-- ==== Sys2Proof/Word.lean ====
section
/-!
DEFINITION. The word types of the SG4 and their plainest arithmetic (R6, R7, R72).
-/
namespace Sys2Proof

/-- A 64 B stream word, scratchpad line or queue entry (R11, R221). -/
abbrev Line := BitVec 512

/-- A 512 B vector: 128 lanes of 32 bits or 64 lanes of 64 bits (R212). -/
abbrev Vec := BitVec 4096

/-- A schedule cycle count (R71). -/
abbrev Scc := BitVec 48

/-- A linear tile number (R5). -/
abbrev TileNo := BitVec 10

/-- One byte. -/
abbrev Byte := BitVec 8

end Sys2Proof
end

