-- ==== Sys2Proof/Syntax.lean ====
section
/-!
DEFINITION. The commands of the block: one constructor of `Instr` for each row of spec/opcode_table.json.
The operands are the fields that the spec gives the operation or event.
-/
namespace Sys2Proof

/-! ## Operand records -/

/-- The fields of an M slot beside its opcode (R108). -/
structure MSlot where
  fmt : BitVec 4
  bank : BitVec 2
  acc : Bool
  plane : Bool
  ag : BitVec 4
  off : BitVec 12
  rsv : BitVec 11
  deriving DecidableEq, Repr

/-- The fields of a V slot beside its opcode (R112, R147). -/
structure VSlot where
  dst : BitVec 6
  srcA : BitVec 6
  srcB : BitVec 6
  srcC : BitVec 6
  rnd : BitVec 2
  bp : Bool
  fmt : BitVec 4
  part : BitVec 3
  sh : BitVec 7
  xa : BitVec 2
  xb : BitVec 2
  slice : BitVec 4
  rsv : BitVec 7
  deriving DecidableEq, Repr

/-- The fields of an L slot beside its opcode (R116, R160). -/
structure LSlot where
  ag : BitVec 4
  off : BitVec 12
  qe : BitVec 6
  ag2 : BitVec 4
  off2 : BitVec 12
  chk : Bool
  rsv : BitVec 4
  deriving DecidableEq, Repr

/-- The fields of a take, tap or drive beside ACT (R120). -/
structure SSub where
  west : Bool
  track : BitVec 6
  fin : BitVec 3
  lat : BitVec 8
  rsv : BitVec 3
  deriving DecidableEq, Repr

/-- The fields of a move beside ACT (R120): bit 3 and bits [23:16] are the reserved ones. -/
structure SMove where
  src : BitVec 6
  dst : BitVec 6
  rsv : BitVec 9
  deriving DecidableEq, Repr

/-- The fields of a C slot beside its opcode (R123). -/
structure CSlot where
  lvl : BitVec 3
  p : Bool
  pidx : BitVec 6
  imm : BitVec 16
  arg : BitVec 16
  deriving DecidableEq, Repr

/-- A slot, numbered as HALT_SOURCE.SLOT numbers it (R94). -/
inductive Slot where
  | m | v | l | s | c
  deriving DecidableEq, Repr

/-- The fields of a script instruction beside its opcode (R277). -/
structure ScriptOp where
  d : BitVec 4
  a : BitVec 4
  b : BitVec 4
  w : Bool
  rsv : BitVec 11
  imm : BitVec 32
  deriving DecidableEq, Repr

/-- A source of till operations (R298). -/
inductive TillSource where
  | tile (t : TileNo)
  | fetch (engine : BitVec 4)
  | ringEnd (die : BitVec 2) (index : BitVec 10)
  | remote (device : BitVec 12) (channel : BitVec 14)
  | house
  deriving DecidableEq, Repr

/-- An unscheduled agent of a slice (R229), in the order of service of R230. -/
inductive Agent where
  | steward | fetch | remote | petty | house | scrubber
  deriving DecidableEq, Repr

/-- What a hedge-link packet carries beside its type (R360, R362). `gen` is the stamp that a PPUT gives the lines it
writes (R154); the header has no bits for it (log entry 95). -/
structure Packet where
  vc : BitVec 3
  last : Bool
  dst : BitVec 12
  src : BitVec 12
  chan : BitVec 14
  sig : Bool
  hops : BitVec 4
  tid : BitVec 32
  addr : BitVec 48
  till : BitVec 15
  value : BitVec 32
  data : List Byte
  mask : BitVec 64
  coins : List (BitVec 32)
  gen : Option (BitVec 2) := none
  deriving DecidableEq, Repr

/-- The type of a packet (R361). -/
inductive PacketType where
  | write | readReq | readReply | ring | signal | ack | ret | refuse | mcast | heartbeat | control
  deriving DecidableEq, Repr

/-- The header of a CONTROL message as its receiver has joined it (R363). -/
structure Control where
  link : BitVec 5
  src : BitVec 12
  tid : BitVec 32
  deriving DecidableEq, Repr

/-- What an AES-256-GCM tag authenticates under (R448, R463): its key, nonce and additional data. Log entry 133. -/
structure GcmTag where
  key : BitVec 256
  nonce : BitVec 96
  aad : BitVec 128
  deriving DecidableEq, Repr

/-- A SEALED datagram (R398, R399): its header, its tag, the sub-port and the IP version that brought it, and its DSCP. -/
structure Datagram where
  ver : BitVec 8
  type : BitVec 8 := 4
  frag : BitVec 16
  session : BitVec 32
  pn : BitVec 64
  tag : GcmTag
  port : Bool
  sub : BitVec 2
  v6 : Bool
  dscp : BitVec 6
  deriving DecidableEq, Repr

/-- A mailbox request frame (R424, R425): its datagram, its mailbox, its FKIND, TAG and LEN, and the OR of all its reserved
bytes. `stray` is the CMD and the first data byte of a frame that is no row's: one whose CMD, FORM or table number R431 does not
list. -/
structure Frame where
  d : Datagram
  mb : BitVec 4
  fkind : BitVec 8 := 1
  tag : BitVec 16
  len : BitVec 32 := 0
  rsv : BitVec 8
  stray : Option (BitVec 8 × BitVec 8) := none
  deriving DecidableEq, Repr

/-- The unit that owns a tally (R522). -/
inductive TallyUnit where
  | tile (t : TileNo)
  | field (f : BitVec 4)
  | fetch (f : BitVec 4)
  | stack (s : BitVec 4)
  | link (k : BitVec 5)
  | house
  | steward
  deriving DecidableEq, Repr

/-- Who writes a register: the steward or the JTAG test access (R34). -/
inductive Writer where
  | steward | jtag
  deriving DecidableEq, Repr

/-- The kind of an Ethernet frame, as the sub-port classifies it (R395). -/
inductive FrameKind where
  | arpRequest | neighbourSolicitation | icmpEcho | icmpv6Echo | lolithWire | mailbox | ptp | other
  deriving DecidableEq, Repr

/-- A PTP event message (R397). -/
inductive PtpKind where
  | sync | delayReq | pdelayReq | pdelayResp
  deriving DecidableEq, Repr

/-- What the bring-up finds (R453, R508, R509): the outcomes that the environment decides. `pgood` says that PGOOD
rises in time and `ready` that the bring-up ends in time; `tokens` gives, for each crossing (from domain, to domain), the cycle in which the sender
writes the token and the receiver's cycle of its arrival (R38); `margins` lists, for each step from 0, the margin that each domain reports. -/
structure BootOutcome where
  pgood : Bool
  ready : Bool
  tokens : List ((BitVec 7 × BitVec 7) × (BitVec 32 × BitVec 32))
  margins : List (List (BitVec 7 × BitVec 6))
  nandChannels : BitVec 24
  nandRate : BitVec 8
  chainMacOk : Bool
  deriving DecidableEq, Repr

/-- A flit as it arrives (R352): its 256 B, byte 0 in the low bits, whether the FEC corrected every codeword that it
touches, and whether FEC lock stands (R350, R356). -/
structure Flit where
  bits : BitVec 2048
  fecOk : Bool
  fecLock : Bool
  deriving DecidableEq, Repr

/-- The transfer whose attached signal is to be applied (R323): a petty transfer of this device's tile, or a
transfer received from another device. -/
inductive SignalOf where
  | petty (t : TileNo) (n : BitVec 32)
  | received (src : BitVec 12) (chan : BitVec 14) (tid : BitVec 32)
  deriving DecidableEq, Repr

/-- An Ethernet frame as the sub-port sees it (R394, R395), with its destination address, the first octet high, and the IP
address that it asks for or goes to, an IPv4 address in the low 32 bits. -/
structure EthFrame where
  kind : FrameKind
  dst : BitVec 48
  v6 : Bool
  ip : BitVec 128
  vlan : Option (BitVec 12)
  length : BitVec 16
  fragment : Bool
  checksumOk : Bool
  udpPort : BitVec 16
  deriving DecidableEq, Repr

/-- A fragment of a handshake message (R398, R400): FRAG index and count, its exchange ID, and its body bytes. -/
structure Fragment where
  index : BitVec 8
  count : BitVec 8
  exchange : BitVec 64
  length : BitVec 16
  deriving DecidableEq, Repr

/-- What a signature verifies as (R448): the key, the context and the bytes. Log entry 133. -/
structure Signature where
  key : BitVec 15616
  context : List (BitVec 8)
  bytes : List (BitVec 8)
  deriving DecidableEq, Repr, Inhabited

/-- What a certificate chain says (R450, R462): D of the root key to which it verifies, and the identity key of its leaf. Log
entry 133. -/
structure Chain where
  root : BitVec 256
  leaf : BitVec 15616
  deriving DecidableEq, Repr, Inhabited

/-- A handshake datagram with TYPE 1, INIT (R398, R400, R463), whole once its fragments are joined: its fragments in the order
in which they came, and the client's ephemeral encapsulation key. -/
structure InitMsg where
  control : Bool
  index : BitVec 16
  exchange : BitVec 64
  version : BitVec 8
  type : BitVec 8 := 1
  session : BitVec 32
  fragments : List Fragment
  ek : BitVec 9472
  port : Bool
  sub : BitVec 2
  v6 : Bool
  deriving DecidableEq, Repr

/-- A handshake datagram with TYPE 3, FINISH (R398, R400, R456, R463), whole once its fragments are joined: its fragments, its
exchange ID, the client's public key of 1,952 B, and the sub-port that brought it. -/
structure FinishMsg where
  version : BitVec 8
  type : BitVec 8 := 3
  exchange : BitVec 64
  fragments : List Fragment
  key : BitVec 15616
  port : Bool
  sub : BitVec 2
  deriving DecidableEq, Repr

/-- What a REPORT says beside the acknowledged copy (R363): bit 1 the replay has ended, and bit 2 a snapshot is asked for (log
entry 62). -/
structure ReportEnd where
  ended : Bool
  snapshot : Bool := false
  deriving DecidableEq, Repr

/-- A byte that the BMC writes over SMBus (R445, R447, R519): the target address, the level of CHAIN_IN at the transfer, the code
and the byte. -/
structure SmbWrite where
  target : BitVec 7
  chainIn : Bool
  code : BitVec 8 := 1
  data : BitVec 8
  deriving DecidableEq, Repr

/-- The POS strap (R536), and the level of CHAIN_IN when it is sampled (R445). -/
structure SlotPins where
  pos : BitVec 4
  chainIn : Bool := true
  deriving DecidableEq, Repr

/-- A SEALED datagram with a message of a data session (R402): its datagram, and the OR of the bytes of the message header
that R402 sets to 0 in a message of its MTYPE from a client, beside those that the command gives by themselves. `stray` is the
MTYPE of a message that is no row's: one that R402 does not list. -/
structure Sealed where
  d : Datagram
  rsv : BitVec 8
  stray : Option (BitVec 8) := none
  deriving DecidableEq, Repr

/-- A REQUEST message (R402): intake, segment byte, request ID and data. -/
structure RequestMsg where
  intake : BitVec 8
  seg : BitVec 8
  reqid : BitVec 64
  status : BitVec 8
  data : List Byte
  deriving DecidableEq, Repr

/-- One part of a patch list (R164). -/
structure PatchPart where
  part : BitVec 16
  parts : BitVec 16
  rsv : BitVec 32
  bytes : List Byte
  deriving DecidableEq, Repr

/-- The arguments of ENROL beside FORM (R457). -/
structure EnrolArgs where
  mb : BitVec 8
  role : BitVec 8
  rights : BitVec 8
  client : BitVec 16
  mask : BitVec 64
  key : BitVec 256
  staged : BitVec 48
  deriving DecidableEq, Repr

/-- The unit whose reported error makes the steward abort the program (R442). -/
inductive AbortSource where
  | fetch (f : BitVec 4)
  | gleaner (s : BitVec 4)
  | channel (chan : BitVec 14)
  | ringEnd (die : BitVec 2) (index : BitVec 10)
  | route (phys : BitVec 12)
  | outbox
  deriving DecidableEq, Repr

/-! ## The commands -/

/-- A command of the block: one row of spec/opcode_table.json. -/
inductive Instr where
  /-- MMA (R188): M-slot pass that pops one activation word from MA, multiplies it by the weight buffer PLANE and writes or adds the result into accumulator bank BANK. -/
  | mma (t : TileNo) (m : MSlot)
  /-- LDW (R111): M-slot operation that starts a 32-cycle load of a weight plane of format FMT from the operand cache into buffer PLANE. -/
  | ldw (t : TileNo) (m : MSlot)
  /-- WEIGHT_LOAD_COMPLETE (R200): A weight-plane load ends and its buffer becomes usable by an MMA, with unread parts zeroed. -/
  | weightLoadComplete (t : TileNo) (plane : Bool)
  /-- PASS_SETTLE (R203): An MMA pass settles in cycle t + A + 3 and the bank lanes hold its result, setting the bank class. -/
  | passSettle (t : TileNo) (bank : BitVec 2)
  /-- MOV (R113): V operation that copies source A lane by lane. -/
  | mov (t : TileNo) (v : VSlot)
  /-- FADD (R113): V operation that adds two FP32 sources lane by lane under RND. -/
  | fadd (t : TileNo) (v : VSlot)
  /-- FSUB (R113): V operation that subtracts FP32 source B from source A lane by lane. -/
  | fsub (t : TileNo) (v : VSlot)
  /-- FMUL (R113): V operation that multiplies two FP32 sources lane by lane. -/
  | fmul (t : TileNo) (v : VSlot)
  /-- FMA (R113): V operation that computes A × B + C with one rounding per lane. -/
  | fma (t : TileNo) (v : VSlot)
  /-- FMAX (R179): V operation that takes the IEEE maximum of A and B per lane. -/
  | fmax (t : TileNo) (v : VSlot)
  /-- FMIN (R179): V operation that takes the IEEE minimum of A and B per lane. -/
  | fmin (t : TileNo) (v : VSlot)
  /-- FABS (R179): V operation that clears the sign bit of each lane of A. -/
  | fabs (t : TileNo) (v : VSlot)
  /-- FNEG (R179): V operation that flips the sign bit of each lane of A. -/
  | fneg (t : TileNo) (v : VSlot)
  /-- FCMPGT (R179): V operation that yields 1.0 where A > B, else 0.0. -/
  | fcmpgt (t : TileNo) (v : VSlot)
  /-- FCMPEQ (R179): V operation that yields 1.0 where A = B, else 0.0. -/
  | fcmpeq (t : TileNo) (v : VSlot)
  /-- SEL (R113): V operation that selects A where C is non-zero, else B, per lane. -/
  | sel (t : TileNo) (v : VSlot)
  /-- EXP (R214): V transcendental that computes e^A per lane within 2 ulp. -/
  | exp (t : TileNo) (v : VSlot)
  /-- LOG (R214): V transcendental that computes ln A per lane within 1.5 ulp. -/
  | log (t : TileNo) (v : VSlot)
  /-- TANH (R214): V transcendental that computes tanh A per lane within 2 ulp. -/
  | tanh (t : TileNo) (v : VSlot)
  /-- SIGM (R214): V transcendental that computes the logistic sigmoid of A per lane. -/
  | sigm (t : TileNo) (v : VSlot)
  /-- RSQRT (R214): V transcendental that computes 1/√A per lane within 1 ulp. -/
  | rsqrt (t : TileNo) (v : VSlot)
  /-- IADD (R113): V operation that adds 32-bit integers modulo 2^32 per lane. -/
  | iadd (t : TileNo) (v : VSlot)
  /-- ISUB (R113): V operation that subtracts 32-bit integers modulo 2^32 per lane. -/
  | isub (t : TileNo) (v : VSlot)
  /-- IMUL (R113): V operation that keeps the low 32 bits of the integer product per lane. -/
  | imul (t : TileNo) (v : VSlot)
  /-- AND (R113): V operation that takes the bitwise and of A and B. -/
  | and_ (t : TileNo) (v : VSlot)
  /-- OR (R113): V operation that takes the bitwise or of A and B. -/
  | or_ (t : TileNo) (v : VSlot)
  /-- XOR (R113): V operation that takes the bitwise xor of A and B. -/
  | xor (t : TileNo) (v : VSlot)
  /-- SHL (R113): V operation that shifts each lane left by SH mod 32. -/
  | shl (t : TileNo) (v : VSlot)
  /-- SHR (R113): V operation that shifts each lane right by SH mod 32 with zero fill. -/
  | shr (t : TileNo) (v : VSlot)
  /-- SAR (R113): V operation that shifts each lane right by SH mod 32 with sign fill. -/
  | sar (t : TileNo) (v : VSlot)
  /-- ROT (R113): V operation that rotates the 128 lanes of A by SH. -/
  | rot (t : TileNo) (v : VSlot)
  /-- CVTN (R182): V operation that converts FP32 lanes to format FMT and pushes one 64 B word of part PART. -/
  | cvtn (t : TileNo) (v : VSlot)
  /-- CVTW (R183): V operation that pops a 64 B word, widens it from FMT to FP32 into part PART and takes other lanes from B. -/
  | cvtw (t : TileNo) (v : VSlot)
  /-- RNG (R217): V operation that computes 32 generator blocks from RNG_SEED and RNG_CTR and advances the counter by 32. -/
  | rng (t : TileNo) (v : VSlot)
  /-- XCLR (R147): V operation that zeroes exact accumulator EXA_XA. -/
  | xclr (t : TileNo) (v : VSlot)
  /-- XADD (R193): V operation that adds an FP32 or SF16 source exactly into EXA_XA, occupying the EXA unit for 4 cycles. -/
  | xadd (t : TileNo) (v : VSlot)
  /-- XSUM (R193): V operation that adds EXA_XB exactly into EXA_XA and ORs the flags. -/
  | xsum (t : TileNo) (v : VSlot)
  /-- XRD (R195): V operation that rounds each lane of EXA_XA once to FP32 under RND. -/
  | xrd (t : TileNo) (v : VSlot)
  /-- XOUT (R196): V operation that exports 32-bit slice SLICE of EXA_XA without interpretation. -/
  | xout (t : TileNo) (v : VSlot)
  /-- XIN (R196): V operation that writes 32-bit slice SLICE of EXA_XA from source A. -/
  | xin (t : TileNo) (v : VSlot)
  /-- DADD (R149): FP64 pipe operation that adds binary64 lanes. -/
  | dadd (t : TileNo) (v : VSlot)
  /-- DSUB (R149): FP64 pipe operation that subtracts binary64 lanes. -/
  | dsub (t : TileNo) (v : VSlot)
  /-- DMUL (R149): FP64 pipe operation that multiplies binary64 lanes. -/
  | dmul (t : TileNo) (v : VSlot)
  /-- DFMA (R149): FP64 pipe operation that computes A × B + C with one rounding per binary64 lane. -/
  | dfma (t : TileNo) (v : VSlot)
  /-- F2D (R183): FP64 pipe operation that widens 64 FP32 lanes of part PART exactly to binary64. -/
  | f2d (t : TileNo) (v : VSlot)
  /-- D2F (R183): FP64 pipe operation that rounds 64 binary64 lanes into FP32 part PART, taking other lanes from B. -/
  | d2f (t : TileNo) (v : VSlot)
  /-- V_RESULT_COMPLETE (R208): A V or L result completes at issue + L − 1 into its queue end or vector register, raising any FP flags. -/
  | vResultComplete (t : TileNo) (dst : BitVec 6)
  /-- LD (R117): L-slot read of one 64 B scratchpad line pushed to an SO or MA end. -/
  | ld (t : TileNo) (l : LSlot)
  /-- ST (R117): L-slot pop of one 64 B word written to one scratchpad line. -/
  | st (t : TileNo) (l : LSlot)
  /-- LDV (R117): L-slot read of 512 B pushed to a VQ or vector register. -/
  | ldv (t : TileNo) (l : LSlot)
  /-- STV (R117): L-slot write of 512 B from a VQ or vector register to scratchpad. -/
  | stv (t : TileNo) (l : LSlot)
  /-- OCW (R119): L-slot copy of 512 B from scratchpad into the operand cache. -/
  | ocw (t : TileNo) (l : LSlot)
  /-- SCRATCHPAD_WRITE_LAND (R227): A scheduled write takes effect in its line at the end of cycle c + 2, stamping its generation. -/
  | scratchpadWriteLand (t : TileNo)
  /-- PGET (R153): L-slot petty read that starts a transfer of 1–256 B into PQ from a local or remote address. -/
  | pget (t : TileNo) (l : LSlot)
  /-- PPUT (R153): L-slot petty write that starts a transfer of 1–256 B from a VQ or register to a destination. -/
  | pput (t : TileNo) (l : LSlot)
  /-- GPOST (R150): L-slot operation that posts a 64 B request line to a gleaner array. -/
  | gpost (t : TileNo) (l : LSlot)
  /-- REQUEST_LINE_READ (R273): In cycle issue + 3 the tile reads and checks the request line of a GPOST, PGET or PPUT and starts or refuses it. -/
  | requestLineRead (t : TileNo)
  /-- TAKE (R121): S sub-operation that takes the word at this tile into SI_END under the stamp check. -/
  | take (t : TileNo) (x : SSub)
  /-- TAP (R121): S sub-operation that copies the word into SI_END and lets it continue. -/
  | tap (t : TileNo) (x : SSub)
  /-- DRIVE (R121): S sub-operation that pops SO_END onto a track with its cycle stamp. -/
  | drive (t : TileNo) (x : SSub)
  /-- MOVE (R121): S sub-operation that pops an SI, PQ or FQ end and pushes an SO or MA end. -/
  | move (t : TileNo) (x : SMove)
  /-- STREAM_WORD_ARRIVAL (R122): A stream word reaches a route-end tile or an unconnected spine port and must be taken there or halts with STAMP untaken. -/
  | streamWordArrival (t : TileNo) (west : Bool) (track : BitVec 6)
  /-- LOOP (R130): C-slot operation that activates a loop level with a count and start index. -/
  | loop (t : TileNo) (c : CSlot)
  /-- LOOP_END (R131): Header LE processing after a bundle issues that advances or closes the loop nest and chooses the next PC. -/
  | loopEnd (t : TileNo) (level : BitVec 3) (rsv : BitVec 4)
  /-- JUMP (R127): C-slot operation that sets the next PC to the target. -/
  | jump (t : TileNo) (c : CSlot)
  /-- IDLE (R126): C-slot operation that suspends issue for n cycles. -/
  | idle (t : TileNo) (c : CSlot)
  /-- IDLE_EXPIRY (R126): The idle count ends and the tile resumes issue at the chosen bundle. -/
  | idleExpiry (t : TileNo)
  /-- END (R127): C-slot operation that stops issue until the next arm or replay and sets ENDED. -/
  | endProgram (t : TileNo) (c : CSlot)
  /-- TADD (R128): C-slot operation that posts a signed addition to a till. -/
  | tadd (t : TileNo) (c : CSlot)
  /-- TSUB (R128): C-slot operation that posts a signed subtraction from a till. -/
  | tsub (t : TileNo) (c : CSlot)
  /-- WAIT (R158): C-slot operation that schedules a condition sample of its kind at issue + 8. -/
  | wait (t : TileNo) (c : CSlot)
  /-- WAIT_SAMPLE (R80): A wait samples its condition in cycle w + 8 and requests a hold with stop w + 32 if it fails. -/
  | waitSample (t : TileNo)
  /-- DRAIN (R84): C-slot layer drain that checks scheduled queue ends and open escrow, and may name a spine set and a coin count. -/
  | drain (t : TileNo) (c : CSlot)
  /-- DRAIN_SAMPLE (R85): A drain samples its tag, petty, spill and signal condition in D + 8, holds if unmet, then checks PQ and FQ ends. -/
  | drainSample
  /-- SPINE_SET_SWITCH (R86): The named spine configuration set comes into force for words pushed from cycle D + 32. -/
  | spineSetSwitch
  /-- FALLOW_BANK_POWER_DOWN (R234): A bank made fallow by a drain loses its contents at the end of D + 31. -/
  | fallowBankPowerDown (t : TileNo) (bank : BitVec 4)
  /-- BANK_WAKE_COMPLETE (R235): A waking bank finishes zero-fill and becomes ready. -/
  | bankWakeComplete (t : TileNo) (bank : BitVec 4)
  /-- FARM (R241): C-slot operation that sends an arm of a fetch descriptor to the field's fetch engine. -/
  | farm (t : TileNo) (c : CSlot)
  /-- AGSET (R133): C-slot operation that replaces one word of an address generator's working copy. -/
  | agset (t : TileNo) (c : CSlot)
  /-- AGADD (R133): C-slot operation that adds to one word of an address generator's working copy. -/
  | agadd (t : TileNo) (c : CSlot)
  /-- EOPEN (R334): C-slot operation by which the members enter an escrow group. -/
  | eopen (t : TileNo) (c : CSlot)
  /-- ERES (R339): C-slot operation that pops a verdict and commits or discards the escrow group. -/
  | eres (t : TileNo) (c : CSlot)
  /-- VBR (R145): C-slot operation that pops a verdict word and advances or branches. -/
  | vbr (t : TileNo) (c : CSlot)
  /-- NOP (R103): A bundle whose slots are all NOP issues in its cycle, advances the PC by one and is checked for PC run-off and illegal encoding. -/
  | nop (t : TileNo) (hdr : BitVec 8)
  /-- RESERVED_OPCODE_ISSUE (R144): A bundle that uses a reserved opcode, sub-operation or format code, including the removed RSYNC, LDR and FRCP, issues and halts with ILLEGAL_OP subcode 1. -/
  | reservedOpcodeIssue (t : TileNo) (slot : Slot)
  /-- ESCROW_SWAP (R339): At the end of E + 4 after a commit every escrow line becomes its home line. -/
  | escrowSwap (f : BitVec 4) (row : BitVec 3) (g : BitVec 4)
  /-- HELD_OPERATION_RELEASE (R339): After a commit a member releases its k-th held operation in cycle E + 5 + k. -/
  | heldOperationRelease (t : TileNo)
  /-- CAPTURED_WORD_RELEASE (R340): After a commit a captured stream word is driven at the group edge, one per track per cycle. -/
  | capturedWordRelease (t : TileNo) (west : Bool) (track : BitVec 6)
  /-- TSIG (R157): C-slot operation that posts a bare signal on a heath signal channel, optionally fenced. -/
  | tsig (t : TileNo) (c : CSlot)
  /-- GEN (R159): C-slot operation that marks a swath boundary and advances the 2-bit generation. -/
  | gen (t : TileNo) (c : CSlot)
  /-- HOLD_STOP (R76): Every compute island completes cycle C − 1 and stops at the announced stop cycle. -/
  | holdStop
  /-- HOLD_RESTART (R78): When the latest restart time of all joined causes is reached every island restarts cycle C on one edge and debts clear. -/
  | holdRestart
  /-- HOLD_TIMEOUT (R82): The measured hold time with an unsatisfied wait or drain reaches HOLD_LIMIT and the fabric halts. -/
  | holdTimeout
  /-- STRETCH (R42): A supply droop stretches one period of an island and adds to its stretch debt. -/
  | stretch (domain : BitVec 7) (units : BitVec 6)
  /-- REFERENCE_LOSS (R58): An island sees no reference edge for 80 ns and declares loss with the effects of its domain. -/
  | referenceLoss (domain : BitVec 7)
  /-- RELOCK_COMPLETE (R48): A 2 µs generator relock for a frequency step ends and the new step is in force. -/
  | relockComplete
  /-- MEASURE (R60): Write of ISLAND_CLK.MEASURE that starts a replica margin measurement when no program runs. -/
  | measure (w : Writer) (domain : BitVec 7)
  /-- MEASURE_COMPLETE (R60): A 10 µs margin measurement ends and MARGIN is reported. -/
  | measureComplete (domain : BitVec 7) (margin : BitVec 6)
  /-- BEACON (R52): Every 64 ns the time-reference domain sends a short or full beacon that consumers use to rebuild time. -/
  | beacon (full : Bool) (missed : List (BitVec 7))
  /-- BEACON_TIMEOUT (R53): A consumer that missed beacons for 2^31 ns loses its valid value. -/
  | beaconTimeout (consumer : BitVec 7)
  /-- TIME_STEP (R55): Write of a signed offset to the time counter, refused if negative once the ledger exists. -/
  | timeStep (w : Writer) (offset : BitVec 64)
  /-- PTP_EVENT_MESSAGE (R397): A PTP event message is received or sent, timestamped and passed to the steward servo. -/
  | ptpEventMessage (port : Bool) (sub : BitVec 2) (kind : PtpKind) (sent : Bool) (oneStep : Bool) (locked : Bool)
  /-- TILL_OPERATION_APPLY (R299): A till block applies an arriving till operation atomically or halts with TILL_OVF. -/
  | tillOperationApply (src : TillSource) (die : BitVec 2)
  /-- TILL_WRITE_JTAG (R302): A JTAG 4 B write to the till region sets a till and is recorded in the ledger. -/
  | tillWriteJtag (n : BitVec 15) (v : BitVec 32)
  /-- FARM_ARRIVAL (R247): A FARM reaches the fetch engine and activates the descriptor, fills its shadow, or halts with DESC_OVERRUN. -/
  | farmArrival (t : TileNo)
  /-- BLOCK_ISSUE (R243): The fetch engine issues a permitted block on a free tag once releases, LEAD and tags allow. -/
  | blockIssue (f : BitVec 4) (desc : BitVec 8)
  /-- TAG_HOME (R244): A fetch block completes, its tag returns and the arrival till rises in block order. -/
  | tagHome (f : BitVec 4) (desc : BitVec 8) (block : BitVec 25)
  /-- SHADOW_ACTIVATION (R247): When an active arm completes the shadow arm of the descriptor activates. -/
  | shadowActivation (f : BitVec 4) (desc : BitVec 8)
  /-- PGET_REPLY (R155): A petty read reply arrives and enters PQ in issue order, or is burned after a discard. -/
  | pgetReply (t : TileNo) (n : BitVec 32)
  /-- PPUT_ACK (R156): The destination acknowledges a petty write and its signal and the transfer stops being outstanding. -/
  | pputAck (t : TileNo) (n : BitVec 32)
  /-- UNSCHEDULED_ACCESS_GRANT (R230): A bank grants a waiting unscheduled agent a port when no scheduled access holds it. -/
  | unscheduledAccessGrant (t : TileNo) (bank : BitVec 4) (write : Bool)
  /-- SCRUB (R225): The scrubber reads scratchpad lines within every 100 ms and rewrites corrected ones. -/
  | scrub (t : TileNo) (line : BitVec 15)
  /-- DRAM_SCRUB (R265): The stack controller reads every codeword within 24 hours and rewrites corrected ones. -/
  | dramScrub (s : BitVec 4) (offset : BitVec 36)
  /-- REFRESH (R266): A pseudo-channel refresh falls due at the 3.9 µs or 1.95 µs interval. -/
  | refresh (s : BitVec 4) (pc : BitVec 5)
  /-- TEMP_SAMPLE (R292): The stack samples its case temperature at least once per ms and sets HOT above 85 °C. -/
  | tempSample (s : BitVec 4) (temp : BitVec 8)
  /-- HOT_CLEAR (R266): After 10 ms at or below 82 °C the stack returns to the 3.9 µs refresh interval. -/
  | hotClear (s : BitVec 4)
  /-- POST_ACTIVATE (R271): A post in the gleaner intake becomes active in intake order when fewer than 32 are active. -/
  | postActivate (s : BitVec 4)
  /-- ITEM_START (R276): A gleaner item starts on a thread with fresh state once the item window allows. -/
  | itemStart (s : BitVec 4) (post : BitVec 32)
  /-- SCRIPT_NOP (R278): Script instruction that does nothing. -/
  | scriptNop (s : BitVec 4) (post : BitVec 32) (item : BitVec 20) (o : ScriptOp)
  /-- SCRIPT_LI (R278): Script instruction that loads a sign-extended immediate. -/
  | scriptLi (s : BitVec 4) (post : BitVec 32) (item : BitVec 20) (o : ScriptOp)
  /-- SCRIPT_LIH (R278): Script instruction that loads the high 32 bits of a register. -/
  | scriptLih (s : BitVec 4) (post : BitVec 32) (item : BitVec 20) (o : ScriptOp)
  /-- SCRIPT_ADD (R278): Script instruction that adds two registers and an immediate. -/
  | scriptAdd (s : BitVec 4) (post : BitVec 32) (item : BitVec 20) (o : ScriptOp)
  /-- SCRIPT_SUB (R278): Script instruction that subtracts two registers. -/
  | scriptSub (s : BitVec 4) (post : BitVec 32) (item : BitVec 20) (o : ScriptOp)
  /-- SCRIPT_MULI (R278): Script instruction that multiplies by an unsigned immediate. -/
  | scriptMuli (s : BitVec 4) (post : BitVec 32) (item : BitVec 20) (o : ScriptOp)
  /-- SCRIPT_AND (R278): Script instruction that takes a bitwise and. -/
  | scriptAnd (s : BitVec 4) (post : BitVec 32) (item : BitVec 20) (o : ScriptOp)
  /-- SCRIPT_SHL (R278): Script instruction that shifts left. -/
  | scriptShl (s : BitVec 4) (post : BitVec 32) (item : BitVec 20) (o : ScriptOp)
  /-- SCRIPT_SHR (R278): Script instruction that shifts right with zero fill. -/
  | scriptShr (s : BitVec 4) (post : BitVec 32) (item : BitVec 20) (o : ScriptOp)
  /-- SCRIPT_MODU (R278): Script instruction that takes an unsigned remainder, faulting on zero. -/
  | scriptModu (s : BitVec 4) (post : BitVec 32) (item : BitVec 20) (o : ScriptOp)
  /-- SCRIPT_HASH (R281): Script instruction that computes EKH64 of a key and salt. -/
  | scriptHash (s : BitVec 4) (post : BitVec 32) (item : BitVec 20) (o : ScriptOp)
  /-- SCRIPT_LD8 (R278): Script instruction that loads 8 B from the stack. -/
  | scriptLd8 (s : BitVec 4) (post : BitVec 32) (item : BitVec 20) (o : ScriptOp)
  /-- SCRIPT_LDROW (R278): Script instruction that loads ROWLEN bytes into a row slot. -/
  | scriptLdrow (s : BitVec 4) (post : BitVec 32) (item : BitVec 20) (o : ScriptOp)
  /-- SCRIPT_PROBE (R282): Script instruction that walks a hash directory for a key's row offset. -/
  | scriptProbe (s : BitVec 4) (post : BitVec 32) (item : BitVec 20) (o : ScriptOp)
  /-- SCRIPT_XW (R278): Script instruction that extracts an 8 B word from a row slot. -/
  | scriptXw (s : BitVec 4) (post : BitVec 32) (item : BitVec 20) (o : ScriptOp)
  /-- SCRIPT_NSAMP (R283): Script instruction that samples distinct positions into a row slot. -/
  | scriptNsamp (s : BitVec 4) (post : BitVec 32) (item : BitVec 20) (o : ScriptOp)
  /-- SCRIPT_SETROW (R278): Script instruction that sets ROWLEN and ROWFMT. -/
  | scriptSetrow (s : BitVec 4) (post : BitVec 32) (item : BitVec 20) (o : ScriptOp)
  /-- SCRIPT_BCLR (R278): Script instruction that clears the bag accumulator to +0 or −∞. -/
  | scriptBclr (s : BitVec 4) (post : BitVec 32) (item : BitVec 20) (o : ScriptOp)
  /-- SCRIPT_BADD (R278): Script instruction that adds a widened row into the bag accumulator. -/
  | scriptBadd (s : BitVec 4) (post : BitVec 32) (item : BitVec 20) (o : ScriptOp)
  /-- SCRIPT_BMAX (R278): Script instruction that takes the maximum of the bag and a widened row. -/
  | scriptBmax (s : BitVec 4) (post : BitVec 32) (item : BitVec 20) (o : ScriptOp)
  /-- SCRIPT_BDIV (R278): Script instruction that divides the bag by a converted register. -/
  | scriptBdiv (s : BitVec 4) (post : BitVec 32) (item : BitVec 20) (o : ScriptOp)
  /-- SCRIPT_EMITB (R278): Script instruction that emits bag elements converted to OFMT as result words. -/
  | scriptEmitb (s : BitVec 4) (post : BitVec 32) (item : BitVec 20) (o : ScriptOp)
  /-- SCRIPT_EMITW (R278): Script instruction that emits a row slot as result words. -/
  | scriptEmitw (s : BitVec 4) (post : BitVec 32) (item : BitVec 20) (o : ScriptOp)
  /-- SCRIPT_EMITX (R278): Script instruction that emits a register at a result byte. -/
  | scriptEmitx (s : BitVec 4) (post : BitVec 32) (item : BitVec 20) (o : ScriptOp)
  /-- SCRIPT_ST8 (R278): Script instruction that stores 8 B to the stack in a writing post. -/
  | scriptSt8 (s : BitVec 4) (post : BitVec 32) (item : BitVec 20) (o : ScriptOp)
  /-- SCRIPT_RADD (R285): Script instruction that scatter-adds a row slot into a DRAM row in fixed order. -/
  | scriptRadd (s : BitVec 4) (post : BitVec 32) (item : BitVec 20) (o : ScriptOp)
  /-- SCRIPT_BEQ (R278): Script branch if two registers are equal. -/
  | scriptBeq (s : BitVec 4) (post : BitVec 32) (item : BitVec 20) (o : ScriptOp)
  /-- SCRIPT_BNE (R278): Script branch if two registers differ. -/
  | scriptBne (s : BitVec 4) (post : BitVec 32) (item : BitVec 20) (o : ScriptOp)
  /-- SCRIPT_BLTU (R278): Script branch if unsigned less than. -/
  | scriptBltu (s : BitVec 4) (post : BitVec 32) (item : BitVec 20) (o : ScriptOp)
  /-- SCRIPT_JMP (R278): Script jump to an immediate PC. -/
  | scriptJmp (s : BitVec 4) (post : BitVec 32) (item : BitVec 20) (o : ScriptOp)
  /-- SCRIPT_END (R278): Script instruction that completes the item. -/
  | scriptEnd (s : BitVec 4) (post : BitVec 32) (item : BitVec 20) (o : ScriptOp)
  /-- SCRIPT_ACCESS_COMPLETE (R279): An outstanding gleaner DRAM access completes and frees its thread slot. -/
  | scriptAccessComplete (s : BitVec 4) (post : BitVec 32) (item : BitVec 20) (second : Bool)
  /-- POST_RESULT_DELIVERY (R274): Result words of completed items or reduced segments enter the FQ end in order as room allows. -/
  | postResultDelivery (s : BitVec 4) (post : BitVec 32)
  /-- POST_COMPLETE (R286): A post delivers its last word after all its writes are acknowledged and stops being outstanding. -/
  | postComplete (s : BitVec 4) (post : BitVec 32)
  /-- RING_MESSAGE_SEND (R314): The sending memory port places a ring message at HEAD, sends a skip marker, or spills it. -/
  | ringMessageSend (chan : BitVec 14)
  /-- SPILL_DEPART (R319): When returns bring enough coins a spilled message leaves the spill region in order. -/
  | spillDepart (chan : BitVec 14)
  /-- ATILL_APPLY (R316): The ring end applies +1 to ATILL for a message once every earlier message and marker has landed. -/
  | atillApply (die : BitVec 2) (index : BitVec 10)
  /-- SIGNAL_APPLY (R323): An attached signal is applied once all bytes of its transfer are written. -/
  | signalApply (x : SignalOf)
  /-- COIN_COUNT (R329): At a counting drain the steward checks every ring's coins and spill, aborting on a mismatch. -/
  | coinCount
  /-- FLIT_RECEIVE (R355): A flit arrives and is accepted in SEQ order or dropped with a NAK, and its ACKSEQ and credits are taken. -/
  | flitReceive (k : BitVec 5) (x : Flit)
  /-- RETRY_TIMEOUT (R355): The oldest unacknowledged flit waits 600 ns and the sender resends from it. -/
  | retryTimeout (k : BitVec 5)
  /-- LINK_DOWN (R356): A link goes down after 8 resends of one flit or 1 µs without FEC lock. -/
  | linkDown (k : BitVec 5) (fecLost : Bool)
  /-- LINK_TRAINING (R351): A link trains, equalises, learns its peer and exchanges identity proofs, or fails after 10 ms. -/
  | linkTraining (k : BitVec 5) (peer : Option (BitVec 12))
  /-- WRITE (R373): WRITE packet arrives and its bytes are stored or added into a reduction window. -/
  | write (k : BitVec 5) (p : Packet)
  /-- READ_REQ (R361): READ_REQ packet arrives and the receiver reads and replies with data. -/
  | readReq (k : BitVec 5) (p : Packet)
  /-- READ_REPLY (R361): READ_REPLY packet arrives carrying data of an earlier read. -/
  | readReply (k : BitVec 5) (p : Packet)
  /-- RING (R361): RING packet arrives and lands a message or skip marker at the ring end. -/
  | ring (k : BitVec 5) (p : Packet)
  /-- SIGNAL (R324): SIGNAL packet arrives and its bare signal is applied to the till. -/
  | signal (k : BitVec 5) (p : Packet)
  /-- ACK (R361): ACK packet arrives and completes a transfer at its sender. -/
  | ack (k : BitVec 5) (p : Packet)
  /-- RETURN (R317): RETURN packet of coins arrives and adds them to the sender's HELD. -/
  | ret (k : BitVec 5) (p : Packet)
  /-- REFUSE (R361): REFUSE packet arrives with a cause and returned coins. -/
  | refuse (k : BitVec 5) (p : Packet)
  /-- MCAST (R372): MCAST packet arrives and is split along the tree and delivered to local members. -/
  | mcast (k : BitVec 5) (p : Packet)
  /-- HEARTBEAT (R480): HEARTBEAT packet arrives and refreshes the neighbour's liveness. -/
  | heartbeat (k : BitVec 5) (p : Packet)
  /-- PACKET_FORWARD (R369): A packet for another device is forwarded by cut-through or refused at the hop limit. -/
  | packetForward (k : BitVec 5) (ty : PacketType) (p : Packet)
  /-- LINK_NONCE (R462): CONTROL message carrying the peer's fresh training nonce. -/
  | linkNonce (c : Control) (nonce : BitVec 256)
  /-- LINK_PROOF (R462): CONTROL message carrying the peer's chain, owner digest and signature, checked to set PEER_OK. -/
  | linkProof (c : Control) (owner : BitVec 256) (chain : Chain) (signature : Signature)
  /-- DEATH (R481): CONTROL message declaring a device dead, on which the program is aborted with PEER_DEAD. -/
  | death (c : Control) (phys : BitVec 12) (logical : BitVec 12) (image : BitVec 256) (time : BitVec 64)
  /-- EXPELLED (R482): CONTROL message telling a returning device it was expelled, causing a program reset. -/
  | expelled (c : Control) (logical : BitVec 12) (image : BitVec 256)
  /-- PLAN_CHECK (R485): CONTROL message asking the named buddy to confirm a survival plan. -/
  | planCheck (c : Control) (plan : Line) (image : BitVec 256) (grade : BitVec 2) (feed : BitVec 4)
  /-- PLAN_ANSWER (R485): CONTROL reply accepting or refusing a buddy plan. -/
  | planAnswer (c : Control) (refuses : Bool) (reason : BitVec 8) (cofated : Bool)
  /-- REPORT (R487): CONTROL message by which a device reports copy acknowledgement and replay end to the leader. -/
  | report (c : Control) (step : BitVec 64) (logical : BitVec 12) (copied : Bool) (ended : ReportEnd)
  /-- COMMIT (R487): CONTROL message from the leader committing a step and possibly ordering a snapshot. -/
  | commit (c : Control) (step : BitVec 64) (loss : BitVec 32) (snapshot : Bool)
  /-- COIN_HALF (R329): CONTROL message carrying one steward's half of a ring coin count. -/
  | coinHalf (c : Control) (chan : BitVec 14) (die : BitVec 2) (index : BitVec 10) (ringHalf : Bool) (spillEmpty : Bool) (coins : BitVec 32) (returned : BitVec 32)
  /-- RECONCILE_ASK (R326): CONTROL message asking a receiver which retry-buffer transfer IDs it completed. -/
  | reconcileAsk (c : Control) (chan : BitVec 16) (first : BitVec 32) (count : BitVec 13)
  /-- RECONCILE_ANSWER (R326): CONTROL reply with completed IDs and returned coins, used to drop or resend buffered packets. -/
  | reconcileAnswer (c : Control) (chan : BitVec 16) (first : BitVec 32) (done : BitVec 4096) (returned : BitVec 32)
  /-- RING_END_CHECK (R308): CONTROL question or answer checking a ring end or channel before opening or closing. -/
  | ringEndCheck (c : Control) (chan : BitVec 14) (die : BitVec 2) (index : BitVec 10) (rcoins : BitVec 32) (matching : Bool) (answer : Bool)
  /-- MAP (R497): CONTROL message giving the new physical number of a logical device after a death. -/
  | map (c : Control) (logical : BitVec 12) (phys : BitVec 12) (image : BitVec 256) (step : BitVec 64)
  /-- SPARE_JOIN (R497): CONTROL message telling the chosen spare its logical number and plan. -/
  | spareJoin (c : Control) (logical : BitVec 12) (image : BitVec 256) (step : BitVec 64) (plan : Line)
  /-- RESUME (R497): CONTROL message from the leader to rearm, verify, resume or declare recovery lost. -/
  | resume (c : Control) (step : BitVec 64) (what : BitVec 8)
  /-- SEAL_REPORT (R500): CONTROL message by which a scoring twin reports each seal it makes. -/
  | sealReport (c : Control) (epoch : BitVec 32) (last : BitVec 64) (head : BitVec 256)
  /-- HEARTBEAT_SEND (R480): Every 10 µs each live link sends a heartbeat while the steward is alive. -/
  | heartbeatSend (k : BitVec 5)
  /-- DEATH_DECLARATION (R481): No heartbeat from a neighbour for 500 µs and the steward declares it dead. -/
  | deathDeclaration (phys : BitVec 12)
  /-- ISOLATION (R481): No heartbeat from any neighbour for 500 µs and the steward aborts its own program. -/
  | isolation
  /-- FRAME_RECEIVE (R395): An Ethernet frame arrives and is answered, delivered or dropped by its kind. -/
  | frameReceive (port : Bool) (sub : BitVec 2) (x : EthFrame)
  /-- PAUSE_FRAME (R396): An 802.1Qbb pause frame arrives and the sub-port obeys it. -/
  | pauseFrame (port : Bool) (sub : BitVec 2) (prio : BitVec 3) (quanta : BitVec 16)
  /-- INIT (R400): Lolith Wire INIT arrives and the device answers ACCEPT or REJECT or drops it. -/
  | init (x : InitMsg)
  /-- FINISH (R400): Lolith Wire FINISH arrives and the session opens if the signature verifies. -/
  | finish (session : BitVec 32) (control : Bool) (x : FinishMsg) (signature : Signature)
  /-- HANDSHAKE_TIMEOUT (R400): A handshake not complete within 1 s is freed. -/
  | handshakeTimeout (session : BitVec 32) (control : Bool)
  /-- SESSION_TIMEOUT (R401): An OPEN session closes after 30 s without an accepted datagram. -/
  | sessionTimeout (session : BitVec 32) (control : Bool)
  /-- REQUEST (R405): A REQUEST message is checked, looked up in the receipt book and accepted onto an intake ring or refused. -/
  | request (h : Sealed) (x : RequestMsg)
  /-- KEEPALIVE (R401): A KEEPALIVE message keeps its session open. -/
  | keepalive (h : Sealed)
  /-- CLOSE (R401): A CLOSE message closes its session. -/
  | close (h : Sealed)
  /-- LEDGER (R472): A LEDGER message starts or stops export of ledger records and seals to a subscriber. -/
  | ledger (h : Sealed) (start : Option (BitVec 64))
  /-- PATCH_MESSAGE (R402): A counting-house PATCH message passes one patch-list part to the steward. -/
  | patchMessage (h : Sealed) (x : PatchPart)
  /-- OUTBOX_MESSAGE (R408): An outbox message is recorded in the ledger, stored in the receipt book and sent as a REPLY. -/
  | outboxMessage (n : BitVec 6)
  /-- PROGRAM_END_TICKETS (R414): On a halt or abort the counting house stops accepting and completes pending tickets with ABORTED. -/
  | programEndTickets
  /-- QUERY (R431): Mailbox command returning the capability words and HOLD_STATUS. -/
  | query (f : Frame)
  /-- LAST_RESULT (R427): Mailbox command returning the stored result from an offset. -/
  | lastResult (f : Frame) (offset : BitVec 32)
  /-- READ_HALT (R431): Mailbox command returning the halt record. -/
  | readHalt (f : Frame)
  /-- STAGE (R431): Mailbox command writing staged data into DRAM. -/
  | stage (f : Frame) (addr : BitVec 48) (data : List Byte)
  /-- LOAD_IMAGE (R437): Mailbox command that verifies and loads a program image as a long operation. -/
  | loadImage (f : Frame) (addr : BitVec 48) (length : BitVec 64) (logical : BitVec 16) (digest : BitVec 256)
  /-- ARM (R438): Mailbox command that checks the device map and prepares the program: tills, coins, counters, flags, SCC. -/
  | arm (f : Frame)
  /-- START (R439): Mailbox command setting the time at which the first replay begins. -/
  | start (f : Frame) (time : BitVec 64)
  /-- REPLAY (R439): Mailbox command setting the number of further replays. -/
  | replay (f : Frame) (count : BitVec 32)
  /-- REPLAY_START (R439): The device begins a replay when the start time is reached or all tiles have ended and descriptors are idle. -/
  | replayStart
  /-- PATCH (R164): Mailbox command delivering one patch-list part, checked and applied to shadows at the last part. -/
  | patch (f : Frame) (x : PatchPart)
  /-- PATCH_ASSEMBLY_TIMEOUT (R164): An assembly that receives no part for 1 s is discarded. -/
  | patchAssemblyTimeout
  /-- STOP (R440): Mailbox command aborting the program with code 0x86, optionally with a program reset. -/
  | stop (f : Frame) (reset : Bool)
  /-- HOLD (R440): Mailbox command requesting or releasing a steward hold. -/
  | hold (f : Frame) (hold : Bool)
  /-- SET_STEP (R441): Mailbox command requesting a frequency step. -/
  | setStep (f : Frame) (step : BitVec 8)
  /-- SET_HEATH_ID (R441): Mailbox command writing HEATH_ID and resetting live links. -/
  | setHeathId (f : Frame) (phys : BitVec 16)
  /-- SET_PORT (R431): Mailbox command configuring an Ethernet sub-port and its addresses. -/
  | setPort (f : Frame) (port : BitVec 8) (sub : BitVec 8) (cfg : BitVec 64) (ipv4 : BitVec 32) (ipv6 : BitVec 256)
  /-- HEATH_TABLES_ROUTE (R379): HEATH_TABLES form 1 writing route entries. -/
  | heathTablesRoute (f : Frame) (first : BitVec 16) (entries : List (BitVec 32))
  /-- HEATH_TABLES_DEVMAP (R365): HEATH_TABLES form 2 writing the inactive device-map bank. -/
  | heathTablesDevmap (f : Frame) (first : BitVec 16) (entries : List (BitVec 32))
  /-- HEATH_TABLES_SELECT (R366): HEATH_TABLES form 3 selecting the active device-map bank. -/
  | heathTablesSelect (f : Frame) (bank : BitVec 8)
  /-- CHANNEL_OPEN (R444): CHANNEL form 1 opening a channel entry and minting ring coins after the ring-end check. -/
  | channelOpen (f : Frame) (chan : BitVec 16) (entry : Line) (remote : Option Bool)
  /-- CHANNEL_CLOSE (R444): CHANNEL form 0 closing a channel, retiring ring coins after a count. -/
  | channelClose (f : Frame) (chan : BitVec 16)
  /-- RING_END_OPEN (R308): CHANNEL form 3 opening a ring end. -/
  | ringEndOpen (f : Frame) (index : BitVec 16) (entry : BitVec 256)
  /-- RING_END_CLOSE (R308): CHANNEL form 2 closing a ring end. -/
  | ringEndClose (f : Frame) (index : BitVec 16) (remoteClosed : Bool)
  /-- FALLOW (R234): Mailbox command setting a tile's fallow banks and waking banks with zero fill. -/
  | fallow (f : Frame) (tile : BitVec 16) (mask : BitVec 16)
  /-- TILLS_READ (R431): TILLS form 0 returning till values. -/
  | tillsRead (f : Frame) (till : BitVec 16) (count : BitVec 32)
  /-- TILLS_SET (R302): TILLS form 1 setting a till by hand with a ledger record. -/
  | tillsSet (f : Frame) (till : BitVec 16) (value : BitVec 32)
  /-- READ_TALLIES (R531): Mailbox command latching and returning every extended tally. -/
  | readTallies (f : Frame)
  /-- SNAPSHOT_PLAN (R485): SNAPSHOT form 1 giving a survival plan, checked with the buddy. -/
  | snapshotPlan (f : Frame) (plan : Line)
  /-- SNAPSHOT_TAKE (R493): SNAPSHOT form 2 requesting a granary snapshot of a committed step. -/
  | snapshotTake (f : Frame)
  /-- SNAPSHOT_LIST (R501): SNAPSHOT form 3 returning the commit records of both slots. -/
  | snapshotList (f : Frame)
  /-- SNAPSHOT_SPARE (R496): SNAPSHOT form 4 declaring the device a spare with a staged image. -/
  | snapshotSpare (f : Frame) (addr : BitVec 48) (length : BitVec 64) (digest : BitVec 256)
  /-- SNAPSHOT_TWIN (R500): SNAPSHOT form 5 naming a scoring twin. -/
  | snapshotTwin (f : Frame) (twin : BitVec 16)
  /-- RESTORE (R494): Mailbox command restoring state from a granary slot. -/
  | restore (f : Frame) (step : BitVec 64)
  /-- ATTEST (R461): Mailbox command returning a signed attestation quote and optional log or chain. -/
  | attest (f : Frame) (nonce : BitVec 256) (part : BitVec 8)
  /-- ENROL_OWNER (R458): ENROL form 1 enrolling the owner and blowing an OWNER_GEN fuse. -/
  | enrolOwner (f : Frame) (x : EnrolArgs) (osigA : Signature) (osigB : Signature)
  /-- ENROL_BIND (R457): ENROL form 2 binding a mailbox to a key and role. -/
  | enrolBind (f : Frame) (x : EnrolArgs)
  /-- ENROL_UNBIND (R457): ENROL form 3 unbinding a mailbox. -/
  | enrolUnbind (f : Frame) (x : EnrolArgs)
  /-- ENROL_CLIENT (R457): ENROL form 4 enrolling or replacing a client. -/
  | enrolClient (f : Frame) (x : EnrolArgs)
  /-- ENROL_REVOKE (R457): ENROL form 5 revoking a client and evicting its receipts. -/
  | enrolRevoke (f : Frame) (x : EnrolArgs)
  /-- UPDATE_FW (R454): Mailbox command verifying and writing new firmware into the other slot. -/
  | updateFw (f : Frame) (addr : BitVec 48) (length : BitVec 64) (esig : Signature) (osig : Signature)
  /-- ZEROISE (R473): Mailbox command that aborts, seals, blows a fuse and clears all owner data. -/
  | zeroise (f : Frame)
  /-- PREPARE_RETURN (R474): Mailbox command that zeroises, writes the failure record and enters return mode. -/
  | prepareReturn (f : Frame) (reason : BitVec 32) (rma : BitVec 64) (note : BitVec 2048)
  /-- RESET (R431): Mailbox command that replies and then begins a warm reset. -/
  | reset (f : Frame) (code : BitVec 8)
  /-- LONG_OPERATION_COMPLETE (R430): A long operation ends, its result is stored and the final reply is sent. -/
  | longOperationComplete (ok : Bool)
  /-- FIRMWARE_ABORT (R442): The steward aborts the program with a firmware code after a unit reports an error. -/
  | firmwareAbort (cause : AbortSource)
  /-- LOCKSTEP_MISMATCH (R421): The steward comparator finds a mismatch and starts a warm reset. -/
  | lockstepMismatch
  /-- SEAL_DUE (R471): 4,096 unsealed records or a 10 ms old record make a seal fall due and start signing. -/
  | sealDue
  /-- SEAL_COMPLETE (R471): The vault completes a seal signature and waiting appends proceed. -/
  | sealComplete
  /-- BULK_COPY (R487): A CTILL rise starts the bulk copy of the state buffer into the partner's buddy slot. -/
  | bulkCopy
  /-- BULK_COPY_COMPLETE (R487): A buddy copy is acknowledged and reported toward commit. -/
  | bulkCopyComplete
  /-- SNAPSHOT_DRAIN_COMPLETE (R493): A snapshot drain writes its commit record and the slot becomes valid. -/
  | snapshotDrainComplete
  /-- ENUM_ID (R447): SMBus block read of board, position, feed and serial. -/
  | enumId
  /-- ENUM_ASSIGN (R445): SMBus write assigning the module address and raising CHAIN_OUT. -/
  | enumAssign (w : SmbWrite)
  /-- CAP (R447): SMBus block read of CAP_0–CAP_3. -/
  | smbCap
  /-- HALT (R447): SMBus block read of the halt record. -/
  | smbHalt
  /-- SMB_STATUS (R447): SMBus read of lockstep and busy status. -/
  | smbStatus
  /-- PWR (R519): SMBus block read of PWR_STATUS. -/
  | pwr
  /-- TEMPS (R519): SMBus block read of the sensor temperatures. -/
  | temps
  /-- CAP_WRITE (R519): SMBus write word setting PWR_CAP.CAP under R507. -/
  | capWrite (watts : BitVec 16)
  /-- WARM (R519): SMBus write asking for a warm reset, forced after 1 s. -/
  | warm (code : BitVec 8)
  /-- STATE (R519): SMBus read of CAP_1.STATE. -/
  | smbState
  /-- POWER_ON (R508): MOD_EN rising starts the power-up sequence to state 1. -/
  | powerOn (o : BootOutcome)
  /-- POWER_LOSS (R505): Input below limits, over-voltage or MOD_EN falling drops PGOOD and power. -/
  | powerLoss
  /-- PGOOD_TIMEOUT (R508): PGOOD not high within 25 ms and the module holds its rails off. -/
  | pgoodTimeout
  /-- STRAP_SAMPLE (R536): 0.5 ms after PGOOD the straps are sampled into CAP_1 and HEATH_ID. -/
  | strapSample (board : BitVec 8) (feed : BitVec 4) (pins : SlotPins)
  /-- BRINGUP_TIMEOUT (R509): State 1 not reached within 1 s of PGOOD and the device enters state 6. -/
  | bringupTimeout
  /-- WARM_RESET (R511): A warm reset reloads the steward, recalibrates crossings and retrains links keeping DRAM. -/
  | warmReset (o : BootOutcome)
  /-- PROGRAM_RESET (R512): A program reset clears fabric state and keeps the loaded image. -/
  | programReset
  /-- LINK_RESET (R357): A link reset stops new flits, reconciles the retry buffer and retrains. -/
  | linkReset (k : BitVec 5)
  /-- LRESET (R357): Write of HL_CTRL.LRESET requesting a link reset. -/
  | lreset (w : Writer) (k : BitVec 5)
  /-- ENABLE (R378): Write of HL_CTRL.ENABLE taking a link down or enabling it to train. -/
  | enable (w : Writer) (k : BitVec 5) (on : Bool)
  /-- POWER_CAP_STEP (R507): The 100 ms input power above CAP steps down, or below 90 % for 1 s steps up. -/
  | powerCapStep (average : BitVec 16)
  /-- THERMAL_STEP_DOWN (R516): A sensor past its step-down threshold for 1 ms moves to the next slower step. -/
  | thermalStepDown (sensor : BitVec 5) (reading : BitVec 16)
  /-- THERMAL_STEP_UP (R516): A sensor below its step-up threshold for 1 s moves to the next faster step. -/
  | thermalStepUp (sensor : BitVec 5) (reading : BitVec 16)
  /-- THERMAL_HOLD (R517): A sensor at its hold threshold requests a thermal hold. -/
  | thermalHold (sensor : BitVec 5) (reading : BitVec 16)
  /-- THERMAL_HOLD_RELEASE (R516): A sensor below its release threshold releases the thermal hold. -/
  | thermalHoldRelease (sensor : BitVec 5) (reading : BitVec 16)
  /-- TRIP (R518): A sensor at its trip threshold aborts with THERMAL_TRIP and stops the compute islands. -/
  | trip (sensor : BitVec 5) (reading : BitVec 16)
  /-- CLEAR (R528): Write of 1 to TALLY_CFG.CLEAR zeroing the tally. -/
  | clear (w : Writer) (u : TallyUnit) (n : BitVec 4)
  /-- TALLY_EVENT_SELECT (R528): Write of TALLY_CFG EVENT or QUAL selecting an event and zeroing the count. -/
  | tallyEventSelect (w : Writer) (u : TallyUnit) (n : BitVec 4) (event : BitVec 8) (qual : BitVec 8)
  /-- TALLY_LATCH (R531): Write of 1 to TALLY_LATCH copying every tally into TALLY_SNAP. -/
  | tallyLatch (w : Writer)
  /-- TALLY_SAMPLE (R530): At least every 10 s the steward samples each tally into its 64-bit extension. -/
  | tallySample (u : TallyUnit) (n : BitVec 4)
  /-- REGISTER_WRITE (R8): A steward or JTAG write to a register with no row of its own, including W1C clears. -/
  | registerWrite (w : Writer) (addr : BitVec 48) (value : BitVec 64) (wide : Bool)
  /-- SPARE_COPY_COMPLETE (R497): The partner's copy of the four regions into the spare ends, after which every device performs a program reset and ARM. -/
  | spareCopyComplete
  /-- UNDERVOLTAGE_DIP (R521): The 48 V input falls below 40 V without reaching a shutdown condition, and the module rides through and sets PWR_STATUS.UV_SEEN. -/
  | undervoltageDip
  /-- PORT_DOWN (R393): An Ethernet sub-port loses its link or its reference and goes down, and it returns through Clause 73 auto-negotiation and link training. -/
  | portDown (port : Bool) (sub : BitVec 2) (back : Bool)
  deriving DecidableEq, Repr

end Sys2Proof
end

