-- ==== Sys2Proof/Config.lean ====
section
/-!
DEFINITION. The values that the spec leaves open, as constants without a body, and the cryptographic functions that
the spec names by their public standards and does not define. Nothing can be proved of a value of any of them.
-/
namespace Sys2Proof

/-- The value that the last step of a transcendental rounds, as a mantissa and a binary exponent, for an operand outside
the exact special cases of R214. The table that fixes the SG4's bits stands outside the manual (R215); a value outside
the bound of R214 is not used. It does not depend on RND, since only the last step rounds under RND. Arguments: V
opcode, operand. Log entry 4. -/
opaque Config.transcendental : BitVec 8 → BitVec 32 → Int × Int

/-- D(x): the 32 B SHAKE256 output over bytes `x` (R448). Log entry 5. -/
opaque Config.digest : List Byte → BitVec 256

/-- KMAC256 with an output of 256 bits (R448): the key, then the bytes. Log entry 5. -/
opaque Config.kmac : BitVec 256 → List Byte → BitVec 256

/-- KMAC256 with an output of 512 bits (R448, R450). Log entry 5. -/
opaque Config.kmac512 : BitVec 256 → List Byte → BitVec 512

/-- K_PUF, as the vault reconstructs it with the helper data of the fuses (R450). Log entry 5. -/
opaque Config.puf : List Byte → BitVec 256

/-- The ML-DSA-65 public key, 1,952 B, of the key pair that a seed gives (R450). Log entry 5. -/
opaque Config.signKey : BitVec 256 → BitVec 15616

/-- The ML-DSA-65 signature, 3,309 B, of the key pair of a seed, with a context, over bytes (R448). Log entry 5. -/
opaque Config.sign : BitVec 256 → List Byte → List Byte → BitVec 26472

/-- What a signature of 3,309 B verifies as (R448). Log entry 133. -/
opaque Config.signature : List Byte → Signature

/-- What a certificate chain in DER verifies as (R450, R462). Log entry 133. -/
opaque Config.chain : List Byte → Chain

/-- The ML-KEM-768 encapsulation key, 1,184 B, of the key pair of (d, z) (R450). Log entry 5. -/
opaque Config.kemKey : BitVec 512 → BitVec 9472

/-- The shared secret that the key pair of (d, z) finds in a ciphertext of 1,088 B (R448, R464). Log entry 5. -/
opaque Config.decapsulate : BitVec 512 → BitVec 8704 → BitVec 256

/-- AES-256-GCM decryption (R448): key, nonce, additional data, ciphertext, tag; none where the tag fails. Log entry 5. -/
opaque Config.gcmOpen : BitVec 256 → BitVec 96 → List Byte → List Byte → BitVec 128 → Option (List Byte)

/-- D of the identity public key of the device of a logical number (R450, R500). Log entry 5. -/
opaque Config.peerIdentity : Nat → BitVec 256

/-- The device's certificate chain in NOR flash (R451), DER bytes. Log entry 5. -/
opaque Config.certificates : List Byte

/-- Enfizal's root public key (R449), 1,952 B. Log entry 5. -/
opaque Config.rootKey : BitVec 15616

/-- The body of the factory firmware, which a new module holds in slot A (R454). Log entry 140. -/
opaque Config.factoryBody : List Byte

/-- D of the boot ROM (R459). Log entry 5. -/
opaque Config.romDigest : BitVec 256

/-- Fresh random bits: a nonce, a session's ciphertext, an epoch's 24 bytes (R462, R463, R467). The argument is the
model's counter of draws. Log entry 6. -/
opaque Config.random : Nat → BitVec 256

/-- A byte of a state buffer that a failed RESTORE leaves undefined (R501): the draw and the byte's place.
Log entry 7. -/
opaque Config.undefinedByte : Nat → Nat → Byte

/-- The latency fixed by calibration that a time consumer adds to a beacon (R52) less the time it counts, within
±4 ns: the reading error of a consumer. Log entry 8. -/
opaque Config.beaconError : Nat → BitVec 64

/-- Whether the capacity of a granary slot holds a state of that many bytes with its tags (R490): the capacity is
fixed by the flash that the carrier board fits on the channels given. Log entry 11. -/
opaque Config.slotHolds : BitVec 24 → Nat → Bool

/-- A sensor of the power manager as it is sampled (R516, R519, R521): the draw, and the sensor, 20 the input power in W
and 21 the input voltage in units of 10 mV. Log entry 12. -/
opaque Config.sensor : Nat → Nat → BitVec 16

/-- PROGRESS that the steward reports of a long operation, before its bounds (R425, R429): the draw. Log entry 10. -/
opaque Config.progress : Nat → Nat

/-- ETA that the steward reports of a long operation (R425, R429): the draw. Log entry 10. -/
opaque Config.eta : Nat → BitVec 64

/-- The ciphertext of an ML-KEM-768 encapsulation (R448, R463), 1,088 B: the draw of its random bits, and the encapsulation
key. Log entry 5. -/
opaque Config.encapsulate : Nat → BitVec 9472 → BitVec 8704

/-- The shared secret of that encapsulation, 32 B. Log entry 5. -/
opaque Config.sharedSecret : Nat → BitVec 9472 → BitVec 256

/-- The 72 B SHAKE256 output over the bytes from which a session's keys come (R463). Log entry 5. -/
opaque Config.wireKeys : List Byte → BitVec 576

/-- The fixed PHY latency in ns that a reset calibrates for a port mode (R397): the draw of the reset, and the mode.
Log entry 8. -/
opaque Config.phyLatency : Nat → Nat → BitVec 16

/-- The base MAC address fused at manufacture (R394). Log entry 9. -/
opaque Config.baseMac : BitVec 48

/-- The module's serial number (R447). Log entry 9. -/
opaque Config.serial : BitVec 48

end Sys2Proof
end

