-- ==== Sys2Proof/Machine/Sparse.lean ====
section
/-!
DEFINITION. Sparse tables: lists of (key, value) pairs in one canonical form, and the byte memory of the device
(R31) in the same form. A key that is not listed holds the table's default.
-/
namespace Sys2Proof.Machine

/-- A table from keys to values, sorted by key, that lists no default value. -/
abbrev SMap (α : Type) := List (Nat × α)

/-- The value listed for key `k`, if any. -/
def Sparse.find? {α : Type} (k : Nat) : SMap α → Option α
  | [] => none
  | (j, a) :: m => if j = k then some a else Sparse.find? k m

/-- The value of key `k` in a table of default `d`. -/
def Sparse.get {α : Type} (d : α) (m : SMap α) (k : Nat) : α := (Sparse.find? k m).getD d

/-- The table without key `k`. -/
def Sparse.erase {α : Type} (k : Nat) (m : SMap α) : SMap α := m.filter fun e => e.1 != k

/-- The table with key `k` listed with value `v`. -/
def Sparse.put {α : Type} (k : Nat) (v : α) : SMap α → SMap α
  | [] => [(k, v)]
  | (j, a) :: m =>
    if j = k then (k, v) :: m else if k < j then (k, v) :: (j, a) :: m else (j, a) :: Sparse.put k v m

/-- The table of default `d` in which key `k` now holds `v`. -/
def Sparse.set {α : Type} [DecidableEq α] (d : α) (m : SMap α) (k : Nat) (v : α) : SMap α :=
  if v = d then Sparse.erase k m else Sparse.put k v m

/-- Every listed value changed by `f`; those that become the default leave the table. -/
def Sparse.mapD {α : Type} [DecidableEq α] (d : α) (f : α → α) (m : SMap α) : SMap α :=
  m.filterMap fun e => if f e.2 = d then none else some (e.1, f e.2)

/-- Every key of the table is above `lo`, keys rise strictly, and no value is the default. -/
def Sparse.wfAbove {α : Type} [DecidableEq α] (d : α) : Option Nat → SMap α → Bool
  | _, [] => true
  | lo, (j, a) :: m => (match lo with | none => true | some l => l < j) && (a != d) && Sparse.wfAbove d (some j) m

/-- The canonical form: keys rise strictly and no entry is the default `d`. -/
def Sparse.wf {α : Type} [DecidableEq α] (d : α) (m : SMap α) : Bool := Sparse.wfAbove d none m

/-! ## The byte memory

Its cells are keyed by the stack-local DRAM address or the scratchpad device address (R31). A byte that is not
listed reads zero: R508 step 4 and R512 fill DRAM and scratchpad with zero. -/

/-- The memory's cells. -/
abbrev Memory := List Host.Cell

/-- The byte at address `a`. -/
def Mem.byte (m : Memory) (a : Nat) : Byte := Sparse.get 0 m a

/-- The memory with byte `a` holding `v`. -/
def Mem.setByte (m : Memory) (a : Nat) (v : Byte) : Memory := Sparse.set 0 m a v

/-- The canonical form of the memory. -/
def Memory.wf (m : Memory) : Bool := Sparse.wf (0 : Byte) m

/-- `n` bytes from `a` upward, byte 0 first, as a number (R6: little-endian). -/
def Mem.readNat (m : Memory) (a : Nat) : Nat → Nat
  | 0 => 0
  | n + 1 => (Mem.byte m a).toNat + 256 * Mem.readNat m (a + 1) n

/-- The memory with the `n` low bytes of `v` stored from `a` upward, least significant first (R6). -/
def Mem.writeNat (m : Memory) (a : Nat) : Nat → Nat → Memory
  | 0, _ => m
  | n + 1, v => Mem.writeNat (Mem.setByte m a (BitVec.ofNat 8 v)) (a + 1) n (v / 256)

/-- A 64 B line read at `a`. -/
def Mem.line (m : Memory) (a : Nat) : Line := BitVec.ofNat 512 (Mem.readNat m a 64)

/-- The memory with a 64 B line stored at `a`. -/
def Mem.setLine (m : Memory) (a : Nat) (v : Line) : Memory := Mem.writeNat m a 64 v.toNat

/-- The bytes listed in a memory whose addresses lie in `[a, a + n)`, as a list of `n` bytes. -/
def Mem.readBytes (m : Memory) (a : Nat) : Nat → List Byte
  | 0 => []
  | n + 1 => Mem.byte m a :: Mem.readBytes m (a + 1) n

/-- The memory with the bytes of a list stored from `a` upward. -/
def Mem.writeBytes (m : Memory) (a : Nat) : List Byte → Memory
  | [] => m
  | b :: bs => Mem.writeBytes (Mem.setByte m a b) (a + 1) bs

/-- The memory with every byte of `[a, a + n)` zero. -/
def Mem.clear (m : Memory) (a n : Nat) : Memory := m.filter fun c => c.1 < a || a + n ≤ c.1

/-- The memory with `[dst, dst + n)` holding what `[src, src + n)` held, for any length: the listed cells of the
source range are stored again at the destination. -/
def Mem.copy (m : Memory) (src dst n : Nat) : Memory :=
  (m.filter fun c => src ≤ c.1 && c.1 < src + n).foldl (fun acc c => Mem.setByte acc (c.1 - src + dst) c.2)
    (Mem.clear m dst n)

/-- The memory with every byte of `[a, a + n)` taken from `f`: `f` is applied to the byte's place in the range. -/
def Mem.fill (f : Nat → Byte) (m : Memory) (a : Nat) : Nat → Memory
  | 0 => m
  | n + 1 => Mem.setByte (Mem.fill f m a n) (a + n) (f n)

/-! ## Byte strings -/

/-- Little-endian bytes of a number. -/
def bytesOf (n : Nat) : Nat → List Byte
  | 0 => []
  | k + 1 => BitVec.ofNat 8 n :: bytesOf (n / 256) k

/-- A number from little-endian bytes. -/
def natOf : List Byte → Nat
  | [] => 0
  | b :: bs => b.toNat + 256 * natOf bs

/-- The ASCII bytes of a string. -/
def ascii (x : String) : List Byte := x.toList.map fun c => BitVec.ofNat 8 c.toNat

end Sys2Proof.Machine
end

