-- ==== Sys2Proof/Machine/TileState.lean ====
section
/-!
DEFINITION. The state of one tile (R10): its sequencer, queue ends, matrix unit, vector engine, scratchpad ports,
petty path, escrow and stream port, as plain data.
-/
namespace Sys2Proof.Machine

/-- A tally (R523, R525): event and qualifier, sticky OVF, COUNT, SNAP, and the steward's extension (R530). The last three
last to the end of the cycle: whether the tally was started anew in it, so that its events do not count, whether it wrapped in
it, so that OVF stays set (R528), and whether it was latched in it, so that SNAP takes its events in (R531). -/
structure Tally where
  event : BitVec 8 := 0
  qual : BitVec 8 := 0
  ovf : Bool := false
  count : BitVec 48 := 0
  snap : BitVec 48 := 0
  ext : BitVec 64 := 0
  last : BitVec 48 := 0
  quiet : Bool := false
  wrapped : Bool := false
  latched : Bool := false
  deriving DecidableEq, Repr

/-- A 64 B word in a queue end (R67): its data, its push cycle (R68; it counts in PQ and the FQ ends alone, which
their producers fill at any time), the speculative post it belongs to (R287) as
1 + stack + 16 × post number, else 0, and what its codewords hold: 0 no error, 1 a correctable, 2 an uncorrectable one
(R202, R223). -/
structure Entry where
  data : Line
  cyc : Scc
  spec : Nat := 0
  mark : BitVec 2 := 0
  deriving DecidableEq, Repr

/-- A 512 B value in a VQ end (R67). -/
structure VEntry where
  data : Vec
  cyc : Scc
  mark : BitVec 2 := 0
  deriving DecidableEq, Repr

/-- A loop level (R130, R138). -/
structure Loop where
  active : Bool := false
  index : BitVec 24 := 0
  start : BitVec 11 := 0
  count : BitVec 25 := 0
  deriving DecidableEq, Repr

/-- A stream word standing at a tile (R12, R73): its data and stamp, the spine configuration set in force at its push
(R86), whether its arrival at the end of its route has been noted in this cycle (R122), its place in escrow
(0 none, 1 driven speculatively, 2 driven speculatively and discarded), and what its codewords hold. -/
structure Word where
  data : Line
  stamp : BitVec 3
  set : BitVec 4 := 0
  noted : Bool := false
  spec : BitVec 2 := 0
  mark : BitVec 2 := 0
  deriving DecidableEq, Repr

/-- What the tile has issued in the current cycle (R99, R105, R141): the bundle's cycle and index, and what its
commands have used so far; `active` holds the loop levels that were active before it. The word that an AGSET or AGADD
writes waits in `agw`, with its key, for the end of the cycle (R107, R133). -/
structure Bundle where
  cyc : Scc
  iaddr : BitVec 11
  used : List Nat := []
  pops : List Nat := []
  pushes : List Nat := []
  taken : List Nat := []
  driven : List Nat := []
  cop : Nat := 0
  lop : Bool := false
  sop : Nat := 0
  mvop : Nat := 0
  closed : Bool := false
  active : BitVec 6 := 0
  agw : Option (Nat × BitVec 32) := none
  deriving DecidableEq, Repr

/-- The sequencer (R99, R134, R136–R139, R242, R161). The address generators' copies are keyed by 8g + w. -/
structure Seq where
  pc : BitVec 11 := 0
  run : Bool := false
  ended : Bool := false
  idling : Bool := false
  resumeAt : Option Scc := none
  stopped : Bool := false
  loops : SMap Loop := []
  ag : SMap (BitVec 32) := []
  agLoad : SMap (BitVec 32) := []
  param : SMap (BitVec 32) := []
  shadow : SMap (BitVec 32) := []
  trackEnd : BitVec 48 := 0
  trackEndW : BitVec 48 := 0
  farmMap : BitVec 256 := 0
  imem : SMap (BitVec 256) := []
  genEn : Bool := false
  gen : BitVec 2 := 0
  deriving DecidableEq, Repr

/-- The contents of an accumulator bank after a settle (R205, R206): class 0 none, 1 FP32, 2 integer, 3 FP64. -/
structure BankVal where
  since : Scc := 0
  cls : BitVec 2 := 0
  val : BitVec 6144 := 0
  deriving DecidableEq, Repr

/-- A pass in flight (R203): its operands are captured at issue. -/
structure Pass where
  bank : BitVec 2
  fmt : BitVec 4
  acc : Bool
  act : Line
  plane : BitVec 65536
  scales : BitVec 8192
  settle : Scc
  deriving DecidableEq, Repr

/-- A weight buffer (R197, R200, R220). -/
structure Plane where
  data : BitVec 65536 := 0
  scales : BitVec 8192 := 0
  fmt : BitVec 4 := 0
  deriving DecidableEq, Repr

/-- A weight-plane load in progress (R111, R201): what it loads was captured at issue; `last` is its last cycle. The
words of MW are those that the cache has pushed and the matrix unit has not popped (R67). -/
structure Load where
  plane : Bool
  data : Plane
  last : Scc
  deriving DecidableEq, Repr

/-- The matrix unit and the operand cache (R197–R206). `banks` holds, newest first, the contents after the latest
settles of each bank. `ocws` are copies whose data complete at the end of the cycle given. `lastLoad` is the last cycle
of the latest load that has ended, with its buffer, and `mw` holds the words of queue end MW (R67). -/
structure Matrix where
  plane0 : Plane := {}
  plane1 : Plane := {}
  load : Option Load := none
  lastLoad : Option (Scc × Bool) := none
  mw : List Line := []
  arrayUntil : Option (Scc × Bool) := none
  passes : List Pass := []
  banks : SMap (List BankVal) := []
  opcache : BitVec 524288 := 0
  ocws : List (Scc × BitVec 7 × Vec) := []
  deriving DecidableEq, Repr

/-- A result in flight, or a word on its way into a queue end (R208): its destination queue end or register, its data
(a 64 B word in the low bits), the cycle that completes it, its issue cycle, the slot that produced it, its FP flags
(R180), and what its codewords hold (R223). -/
structure Result where
  dst : BitVec 6
  data : Vec
  due : Scc
  issued : Scc
  iaddr : BitVec 11
  slot : Nat
  flags : BitVec 13
  mark : BitVec 2 := 0
  deriving DecidableEq, Repr

/-- The vector engine (R208–R217). -/
structure VecUnit where
  vregs : SMap Vec := []
  exa : SMap (BitVec 40960) := []
  exaUntil : Option Scc := none
  fp64Until : Option Scc := none
  results : List Result := []
  fpflags : BitVec 13 := 0
  seed : BitVec 128 := 0
  ctrLoad : BitVec 128 := 0
  ctr : BitVec 128 := 0
  deriving DecidableEq, Repr

/-- A scheduled read whose sample is due (R227): the slice address, whether it is 512 B, whether it fills the operand
cache (at line `oc`), its destination, and whether it is checked (R160). -/
structure PadRead where
  addr : BitVec 21
  wide : Bool
  oc : Option (BitVec 7)
  dst : BitVec 6
  chk : Bool
  issued : Scc
  iaddr : BitVec 11
  deriving DecidableEq, Repr

/-- A scheduled write in flight (R227). -/
structure PadWrite where
  addr : BitVec 21
  wide : Bool
  data : Vec
  due : Scc
  gen : BitVec 2
  spec : Bool
  deriving DecidableEq, Repr

/-- A check of earlier work that fails in a later cycle: the cycle, the bundle, the slot, and the halt (R142). -/
structure LateFail where
  cyc : Scc
  iaddr : BitVec 11
  slot : Nat
  reason : BitVec 8
  subcode : BitVec 4
  detail : BitVec 32
  deriving DecidableEq, Repr

/-- Whom an unscheduled access serves (R229): the steward, the scrubber, a petty transfer of a tile, a block of a descriptor, a
transfer from another device (`member` 0, or 1 + m for member m of a multicast), one of the counting house, or the
reading of an outbox message (R407). -/
inductive UOwner where
  | steward
  | scrub
  | petty (t : BitVec 10) (n : BitVec 32)
  | fetch (f : BitVec 4) (desc : BitVec 8) (index : BitVec 25)
  | remote (src : BitVec 12) (chan : BitVec 14) (member : BitVec 7) (tid : BitVec 32)
  | house (src : BitVec 12) (chan : BitVec 14) (tid : BitVec 32)
  | outbox (die : BitVec 2) (index : BitVec 10) (pos : BitVec 24)
  deriving DecidableEq, Repr

/-- An unscheduled access that waits for a bank (R229, R230): the agent's rank in the order of service, the time at which
it came, the line, the bytes it writes with their mask (or none for a read), the stamp it writes (none keeps the stamp), whether
its write is speculative (R249), and whom it serves. -/
structure URequest where
  agent : Nat
  age : Nat
  line : BitVec 15
  data : Option (Line × BitVec 64)
  gen : Option (BitVec 2)
  spec : Bool
  owner : UOwner
  deriving DecidableEq, Repr

/-- The scratchpad slice beside its bytes (R221–R238): the stamps, the accesses in flight, the banks of the latest
scheduled reads and writes by issue cycle, the port cycles that granted unscheduled accesses claim (the banks' cycle,
bank, write port), the partial writes granted whose lines take their values at the end of the banks' cycle given (R230),
and the banks' power. -/
structure Pad where
  stamps : SMap (BitVec 2) := []
  reads : List PadRead := []
  writes : List PadWrite := []
  readHist : List (Scc × BitVec 16) := []
  writeHist : List (Scc × BitVec 16) := []
  fails : List LateFail := []
  ureqs : List URequest := []
  claims : List (Nat × BitVec 4 × Bool) := []
  landing : List (Nat × URequest) := []
  fallow : BitVec 16 := 0
  waking : BitVec 16 := 0
  wakeAt : SMap Scc := []
  late : Bool := false
  deriving DecidableEq, Repr

/-- The kind of a request line (R150, R153). -/
inductive ReqKind where
  | pget | pput | gpost
  deriving DecidableEq, Repr

/-- A request line that the tile reads in its issue cycle + 3 (R154, R273); `line` is what the sample returned. -/
structure ReqLine where
  kind : ReqKind
  addr : BitVec 21
  qe : BitVec 6
  issued : Scc
  iaddr : BitVec 11
  number : BitVec 32
  line : Option Line
  data : Vec
  spec : Bool
  deriving DecidableEq, Repr

/-- A petty transfer (R154–R156): its number in the tile's issue order and its line's fields; `phase` is 0 held in
escrow, 1 started, 2 replied and waiting for PQ; `burn` marks a reply that a discard burns; `left` counts what it still
waits for; `lines` and `words` hold what has been read; `err` is the error that it met, with its place: 1 a hole, 2 a
fallow bank, 3 an uncorrectable codeword of a slice. `cyc` is the cycle of its issue or of its release from escrow
(R157, R339). -/
structure Petty where
  number : BitVec 32
  iaddr : BitVec 11
  put : Bool
  chan : BitVec 14
  addr : BitVec 48
  len : BitVec 9
  sig : Option (BitVec 15 × BitVec 32)
  gen : BitVec 2
  data : Vec
  phase : Nat
  burn : Bool
  spec : Bool
  left : Nat
  lines : SMap Line
  words : List Line
  err : Option (Nat × Nat)
  cyc : Scc
  deriving DecidableEq, Repr

/-- A gleaner post that the tile has outstanding (R152): its place in the tile's issue order (R151), stack, post number,
FQ end or NONE, speculative mark. -/
structure TilePost where
  number : BitVec 32
  stack : BitVec 4
  post : BitVec 32
  qe : BitVec 6
  spec : Bool
  deriving DecidableEq, Repr

/-- A posted operation that leaves a tile (R128, R157, R241) or waits in its escrow queue (R337). A fenced signal holds
the cycle of its issue or release. -/
inductive Posted where
  | till (n : BitVec 15) (v : BitVec 32) (sub : Bool)
  | signal (chan : BitVec 14) (v : BitVec 32) (fence : Bool) (after : Scc)
  | farm (desc : BitVec 8) (spec : Bool)
  | pput (number : BitVec 32)
  | gpost (number : BitVec 32) (stack : BitVec 4) (line : Line) (qe : BitVec 6)
  deriving DecidableEq, Repr

/-- A gleaner post whose line has been read and which waits for a post of an earlier issue that is still held (R151). -/
structure LatePost where
  number : BitVec 32
  stack : BitVec 4
  line : Line
  qe : BitVec 6
  spec : Bool
  deriving DecidableEq, Repr

/-- The tile's own part of the petty path and its posted operations on their way. -/
structure PettyUnit where
  reqs : List ReqLine := []
  transfers : List Petty := []
  nextPetty : BitVec 32 := 0
  posts : List TilePost := []
  nextPost : BitVec 32 := 0
  latePosts : List LatePost := []
  tillOut : List (Scc × Posted) := []
  sigOut : List (Scc × Posted) := []
  farmOut : List (Scc × Posted) := []
  deriving DecidableEq, Repr

/-- Escrow in one tile (R333–R348): the open group, the redirections from home line to escrow line, the escrow lines that
wait for the first write of their home line to land, the held
operations, the words captured at this tile's edges, the cycle and outcome of the latest ERES, and what a commit
releases with the cycles of release (R339, R340). -/
structure Esc where
  openedAt : Option Scc := none
  group : BitVec 4 := 0
  redirects : SMap Nat := []
  reserved : SMap Nat := []
  held : List (Scc × Posted) := []
  capEast : List (BitVec 6 × Line) := []
  capWest : List (BitVec 6 × Line) := []
  resolvedAt : Option Scc := none
  committed : Bool := false
  releasing : List (Scc × Posted) := []
  relEast : List (Scc × BitVec 6 × Line) := []
  relWest : List (Scc × BitVec 6 × Line) := []
  bundles : Nat := 0
  deriving DecidableEq, Repr

/-- A pending wait of the tile (R80, R129, R158): issue cycle, index, kind, N, ARG. -/
structure Wait where
  issued : Scc
  iaddr : BitVec 11
  kind : BitVec 3
  n : BitVec 32
  arg : BitVec 16
  deriving DecidableEq, Repr

/-- A DRAIN that a tile issued in the cycle given (R84, R86, R87): its set and COUNT. -/
structure TileDrain where
  cyc : Scc
  iaddr : BitVec 11
  set : BitVec 4
  count : Bool
  deriving DecidableEq, Repr

/-- One tile. `arrived` holds the results and words that reach their ends or registers in the current cycle; they
enter at its end, after every pop and read of the cycle (R68, R107, R115). `drives` holds the words that the tile puts
on its tracks in this cycle, and `taps` the SI ends of its taps, by track (R13). `marks` holds the errors of the tile's own
stores (R202, R226): 1 correctable, 2 uncorrectable. -/
structure Tile where
  seq : Seq := {}
  bundle : Option Bundle := none
  ends : SMap (List Entry) := []
  vqs : SMap (List VEntry) := []
  mx : Matrix := {}
  vec : VecUnit := {}
  pad : Pad := {}
  petty : PettyUnit := {}
  esc : Esc := {}
  east : SMap (Option Word) := []
  west : SMap (Option Word) := []
  waits : List Wait := []
  drains : List TileDrain := []
  req : Option (Scc × Nat) := none
  arrived : List Result := []
  drives : List (Nat × Word) := []
  taps : List (Nat × BitVec 6) := []
  marks : SMap (BitVec 2) := []
  tally0 : Tally := { event := 0x01 }
  tally1 : Tally := { event := 0x07 }
  deriving DecidableEq, Repr

end Sys2Proof.Machine
end

