-- ==== Sys2Proof/Machine/FabricState.lean ====
section
/-!
DEFINITION. The state of the fabric outside the tiles: fetch engines, spines, the hold network and the halt record,
the clock islands and the time registers, and the tills.
-/
namespace Sys2Proof.Machine

/-! ## Fetch engines (R239–R257) -/

/-- A block in flight on one tag (R239, R244): its index, the lines that its grants still owe, the words that it has
read and not yet delivered (by line), whether it is speculative (R249), and whether it is home while an earlier block
is not. -/
structure Block where
  index : BitVec 25
  left : Nat
  words : SMap Line
  spec : Bool
  done : Bool
  deriving DecidableEq, Repr

/-- The state of a descriptor beside its load copy (R243, R247, R257): STATE (0 idle, 1 active, 2 shadow full,
3 error), the active copy and the shadow, NEXT, ARMS, R0, the count of FARMs, the blocks home in order, the blocks
in flight, the blocks burned on arrival, the speculative FARM that it serves (tile, and the STATE and the count of
FARMs before it), when it began to wait for a tag, and the tiles and cycles of the FARMs of the active copy and of the
shadow. -/
structure DescDyn where
  st : BitVec 2 := 0
  copy : Line := 0
  shadow : Line := 0
  next : BitVec 25 := 0
  arms : BitVec 32 := 0
  r0 : BitVec 32 := 0
  farms : BitVec 32 := 0
  home : BitVec 25 := 0
  out : List Block := []
  burned : List (BitVec 25) := []
  spec : Option (BitVec 10 × BitVec 2 × BitVec 32) := none
  waitingSince : Option Nat := none
  farmer : Option (BitVec 10 × Scc) := none
  shadowFarmer : Option (BitVec 10 × Scc) := none
  deriving DecidableEq, Repr

/-- One field: its row map (R26), spine sets (R18, R19; keyed 1024k + entry, fallow masks at 640 + 8r + t), the set
in force, its fetch engine, its escrow definitions (R346, keyed 16r + G) and its channel-kind map (R306). -/
structure Field where
  rowmap : BitVec 32 := 0x06543210
  fset : SMap (BitVec 16) := []
  spineCur : BitVec 4 := 0
  desc : SMap Line := []
  dyn : SMap DescDyn := []
  err : Bool := false
  errDesc : BitVec 8 := 0
  fetchErr : BitVec 52 := 0
  escDef : SMap (BitVec 8) := []
  ckmap : SMap (BitVec 32) := []
  deriving DecidableEq, Repr

/-- A ring end (R312, R316, R317, R332): its 32 B entry, the state of RING_STATE, the messages that have landed
beyond the last applied increment, the coins on their way back, the returns it has yet to send, and the sender's half of a
coin count (R329): whether its spill region is empty, HELD and RETIN. `retSeq` numbers its returns, and `refused` holds
the positions of the messages and markers that it refused. -/
structure RingEnd where
  entry : BitVec 256 := 0
  lodged : BitVec 24 := 0
  retpos : BitVec 24 := 0
  err : Bool := false
  retout : BitVec 32 := 0
  arrived : BitVec 32 := 0
  nextPos : BitVec 24 := 0
  landed : List (BitVec 24 × BitVec 24 × Bool) := []
  refused : List (BitVec 24) := []
  retSeq : BitVec 32 := 0
  half : Option (Bool × BitVec 32 × BitVec 32) := none
  deriving DecidableEq, Repr

/-- One compute die: the die spine's sets (R18; keyed 512k + entry), its ring ends and reduction windows (R381). -/
structure Die where
  dset : SMap (BitVec 16) := []
  ringEnds : SMap RingEnd := []
  rwins : SMap (BitVec 256) := []
  deriving DecidableEq, Repr

/-- Where a stream word between two rows stands next (R18, R20, R39): at an input of a field spine or a die spine,
whose entry it then follows, or at an output of one. A bridge output stands one cycle before the crossing into the
die-link island, whoever feeds it, so that two words that meet there meet in one cycle. -/
inductive Stage where
  | fieldIn (f i : Nat)
  | fieldOut (f o : Nat)
  | dieIn (d i : Nat)
  | dieOut (d o : Nat)
  deriving DecidableEq, Repr

/-- A stream word inside the spines or over a bridge: where it left its row, and the cycle in which it reaches its
next stage. -/
structure Transit where
  word : Word
  fromTile : BitVec 10
  west : Bool
  track : BitVec 6
  at_ : Scc
  stage : Stage
  deriving DecidableEq, Repr

/-! ## The hold network and the halt record (R76–R97) -/

/-- The causes of a hold (R77), numbered as the bits of HOLD_STATUS (R95). -/
inductive Cause where
  | wait | drain | halt | step | thermal | slip | steward
  deriving DecidableEq, Repr

/-- An unsatisfied wait that has joined a hold (R80, R82), and the time at which its condition was met. -/
structure HeldWait where
  tile : BitVec 10
  wait : Wait
  metAt : Option Nat
  deriving DecidableEq, Repr

/-- The hold network: the announced stop, whether the islands stand, when they stopped, and the causes joined with
the times that fix the restart (R77, R78); `measured` is the time counted under R82, and `timedOut` says that it
has reached the limit. -/
structure Hold where
  stopAt : Option Scc := none
  held : Bool := false
  stoppedAt : Nat := 0
  waits : List HeldWait := []
  drain : Bool := false
  drainMet : Option Nat := none
  halt : Bool := false
  step : Bool := false
  stepAt : Nat := 0
  thermal : Bool := false
  thermalOff : Option Nat := none
  slip : Bool := false
  steward : Bool := false
  stewardOff : Option Nat := none
  measured : Nat := 0
  timedOut : Bool := false
  limit : BitVec 32 := 1000000
  deriving DecidableEq, Repr

/-- The halt record (R91–R94), with the rank of R142 of the request that it holds. -/
structure HaltRecord where
  valid : Bool := false
  more : Bool := false
  reason : BitVec 8 := 0
  subcode : BitVec 4 := 0
  count : BitVec 8 := 0
  source : BitVec 64 := 0
  scc : Scc := 0
  detail : BitVec 32 := 0
  rank : Nat := 0
  deriving DecidableEq, Repr

/-- A drain of the program (R84–R87): its cycle, the set that it names, whether its tiles name different sets, its
COUNT, whether it has been sampled, the checks of PQ and FQ have been made and the coins have been counted. -/
structure Drain where
  cyc : Scc
  set : Option (BitVec 4)
  clash : Bool
  count : Bool
  sampled : Bool
  checked : Bool
  counted : Bool
  deriving DecidableEq, Repr

/-! ## Clock islands, steps and time (R35–R63) -/

/-- One clock domain: ISLAND_CLK (R63) for a compute island, and whether its reference is lost (R58). -/
structure Island where
  locked : Bool := false
  refLoss : Bool := false
  guardFault : Bool := false
  debt : Nat := 0
  slipAsked : Bool := false
  margin : BitVec 6 := 0
  marginValid : Bool := false
  measuring : Option Nat := none
  lost : Bool := false
  deriving DecidableEq, Repr

/-- A consumer of time (R52, R53). -/
structure Consumer where
  value : BitVec 64 := 0
  valid : Bool := false
  lastBeacon : Nat := 0
  deriving DecidableEq, Repr

/-- The clocks. `clk` counts elapsed time in units of 1/45,107,216,000 µs, in which every step's period and 1 ns are
whole numbers; `time` is the time counter in units of 2^−32 ns (R51). `relocked` is the step to which the generators have
relocked in a hold that has not restarted (R441). `crossings` holds, for each calibrated crossing (key
128 · from + to), the distance in cycles from its write pointer to its read pointer (R38); `beacons` counts the intervals of
64 ns of `clk` whose beacon has been sent (R52). -/
structure Clocks where
  clk : Nat := 0
  time : BitVec 96 := 0
  rate : BitVec 32 := 0
  valid : Bool := false
  ptpLocked : Bool := false
  monotonic : Bool := false
  stepRefused : Bool := false
  consumers : SMap Consumer := []
  islands : SMap Island := []
  step : BitVec 3 := 7
  safeStep : BitVec 3 := 7
  target : Option (BitVec 3) := none
  relocked : Option (BitVec 3) := none
  askedStep : Option (BitVec 3) := none
  needWarm : Bool := false
  crossings : SMap Nat := []
  beacons : Nat := 0
  lastSamples : Nat := 0
  deriving DecidableEq, Repr

/-! ## Tills (R296–R302) -/

/-- An operation of a source other than a tile on its way to a till block (R298): till, value, the transfer whose
signal it is (channel and ID, else zero), and whether it is an arrival, a signal or a bare signal. -/
structure TillOp where
  till : BitVec 15
  value : BitVec 32
  fromChan : BitVec 14
  dev : BitVec 12
  tid : BitVec 32
  deriving DecidableEq, Repr

/-- The fabric. Tiles are keyed by linear number, fields by 4d + f, dies by number; `saves` are the tiles as they
stood before the bundle they issue in this cycle (R142), and `trials` the tiles whose bundle has failed a check in
this cycle, for the further checks of the same bundle. `beat` counts the cycles of the scratchpad banks, which stay
clocked while the fabric is held (R230). -/
structure Fabric where
  tiles : SMap Tile := []
  saves : SMap Tile := []
  trials : SMap Tile := []
  fields : SMap Field := []
  dies : SMap Die := []
  transits : List Transit := []
  scc : Scc := 0
  hold : Hold := {}
  haltRec : HaltRecord := {}
  drains : List Drain := []
  tills : SMap (BitVec 32) := []
  tillQueue : List (TillSource × TillOp) := []
  beat : Nat := 0
  deriving DecidableEq, Repr

end Sys2Proof.Machine
end

