-- ==== Sys2Proof/Machine/HeathState.lean ====
section
/-!
DEFINITION. The state of the memory stacks and gleaner arrays, of the channels and coins, and of the hedge links.
-/
namespace Sys2Proof.Machine

/-! ## Stacks and gleaners (R258–R295) -/

/-- What an outstanding gleaner access does (R278, R279). -/
inductive AccessKind where
  | ld8 (d : BitVec 4)
  | ldrow (w : Bool) (len : BitVec 16)
  | probe (d : BitVec 4) (key dir salt : BitVec 64)
  | st8 (v : BitVec 64)
  | radd (w : Vec) (fmt : BitVec 4) (elems : Nat)
  deriving DecidableEq, Repr

/-- An outstanding access: its stack offset and what it does when it completes. -/
structure Access where
  kind : AccessKind
  addr : Nat
  len : Nat
  deriving DecidableEq, Repr

/-- A gleaner thread that runs one item (R276). `x` is keyed by register, `out` by result word. -/
structure Thread where
  x : SMap (BitVec 64) := []
  w0 : Vec := 0
  w1 : Vec := 0
  ba : Vec := 0
  rowlen : BitVec 16 := 64
  rowfmt : BitVec 4 := 15
  pc : Nat := 0
  count : Nat := 0
  accesses : List Access := []
  out : SMap Line := []
  emitted : Bool := false
  bag : Option Vec := none
  misses : Nat := 0
  used : Nat := 0
  ended : Bool := false
  dead : Bool := false
  deriving DecidableEq, Repr

/-- A post in a gleaner array (R271–R274): its number on the stack, the tile and its FQ end, the request line, and
its progress. `results` holds the items that have ended and are not yet released, by item. -/
structure Post where
  number : BitVec 32
  tile : BitVec 10
  qe : BitVec 6
  spec : Bool
  line : Line
  active : Bool := false
  nextItem : Nat := 0
  threads : SMap Thread := []
  results : SMap Thread := []
  released : Nat := 0
  completed : Nat := 0
  misses : Nat := 0
  emitters : Nat := 0
  used : Nat := 0
  segVec : Option Vec := none
  segCount : Nat := 0
  words : List Line := []
  delivered : Nat := 0
  statusQueued : Bool := false
  faulted : Bool := false
  cancelled : Bool := false
  deriving DecidableEq, Repr

/-- One stack with its logic die (R291–R295). -/
structure Stack where
  temp : BitVec 8 := 0
  hot : Bool := false
  hotSeen : Bool := false
  coolSince : Option Nat := none
  corrected : BitVec 32 := 0
  ueSeen : Bool := false
  ueAddr : BitVec 36 := 0
  fault : Bool := false
  gleanErr : BitVec 60 := 0
  script : SMap (BitVec 64) := []
  intake : List Post := []
  active : List Post := []
  nextPost : BitVec 32 := 0
  refreshAt : SMap Nat := []
  selfRefresh : Bool := false
  deriving DecidableEq, Repr

/-! ## Channels (R303–R332) -/

/-- A ring message at the sending memory port (R314): the tile and its transfer, or the ticket of the counting
house, the message's bytes, and the stamp that a PPUT gives the lines it writes (R154). -/
structure Message where
  tile : Option (BitVec 10 × BitVec 32)
  ticket : BitVec 64
  data : List Byte
  gen : Option (BitVec 2)
  deriving DecidableEq, Repr

/-- A message in a spill region (R319, R320): whose it is, its stamp, its length, its units in the region (the record unit
first), the members still owed, and its transfer ID. The record unit and the data stand in DRAM. -/
structure Spilled where
  tile : Option (BitVec 10 × BitVec 32)
  ticket : BitVec 64
  gen : Option (BitVec 2)
  len : Nat
  units : List Nat
  owed : BitVec 64
  tid : BitVec 32
  deriving DecidableEq, Repr

/-- A transfer whose completion is outstanding at its sender (R310): its ID, the tile's transfer or the fetch block
that it serves, the message of the counting house, the coins that it carries, the bytes still owed to it, whether its block
has been burned (R249), and the members of a multicast channel whose copies are not acknowledged (R321, R322). -/
structure Transfer where
  tid : BitVec 32
  tile : Option (BitVec 10 × BitVec 32)
  block : Option (BitVec 4 × BitVec 8 × BitVec 25)
  coins : BitVec 24
  addr : BitVec 48
  left : Nat
  burn : Bool := false
  owed : BitVec 64 := 0
  deriving DecidableEq, Repr

/-- The sender's side of a channel (R304, R310, R331). `waiting` holds the transfers that wait because 4,096 are
outstanding; `spillFresh` is the first unit of the spill region that no message has taken yet, and `spillFree` the units
freed since, in the order of their freeing. Returns are taken in the order of their numbers
(R317): `retNext` is the next, `retWait` holds those that came before it. -/
structure Channel where
  entry : Line := 0
  held : BitVec 24 := 0
  head : BitVec 24 := 0
  err : Bool := false
  retin : BitVec 32 := 0
  spillu : BitVec 32 := 0
  nextTid : BitVec 32 := 0
  queue : List Message := []
  spill : List Spilled := []
  spillFresh : Nat := 0
  spillFree : List Nat := []
  retNext : BitVec 32 := 0
  retWait : List (BitVec 32 × BitVec 32) := []
  transfers : List Transfer := []
  waiting : List (Transfer × List (PacketType × Packet)) := []
  half : Option (Bool × BitVec 32 × BitVec 32) := none
  deriving DecidableEq, Repr

/-- The place of a ring message: its ring end (die, index), its first position, its coins, and whether it is a skip
marker. -/
structure RingPlace where
  die : BitVec 2
  index : BitVec 10
  pos : BitVec 24
  coins : BitVec 24
  skip : Bool
  deriving DecidableEq, Repr

/-- A transfer that the receiver has partly received (R323): the addresses of the packets that have come and how many
bytes, its whole length once its last packet is known, the line accesses that wait for their banks, its signal, the
cause if a part of it was refused, its ring place, and, for a read, its address and length and the slice lines that
have been read. -/
structure Partial where
  tid : BitVec 32
  seen : List (BitVec 48) := []
  got : Nat := 0
  total : Option Nat := none
  waits : Nat := 0
  sig : Option (BitVec 15 × BitVec 32) := none
  refused : Option (BitVec 8) := none
  ring : Option RingPlace := none
  read : Option (BitVec 48 × BitVec 13) := none
  lines : SMap Line := []
  deriving DecidableEq, Repr

/-- The receiver's record of one sending channel (R310). `refused` holds the transfers that completed as refused. -/
structure Receiver where
  oldest : BitVec 32 := 0
  done : BitVec 4096 := 0
  refused : List (BitVec 32) := []
  parts : List Partial := []
  deriving DecidableEq, Repr

/-! ## Hedge links (R349–R381) -/

/-- A flit in a retry buffer (R355): its SEQ, its BODY, the credits that it returns, the packets whose last byte it
carries, the virtual channel under which it is counted, and how often it was resent. -/
structure SentFlit where
  seq : BitVec 12
  body : BitVec 1984
  cvc : BitVec 3
  ccnt : BitVec 4
  ends : List (PacketType × Packet)
  vc : BitVec 8 := 0
  resends : Nat
  deriving DecidableEq, Repr

/-- One hedge link. STATE is 1 disabled, 2 training, 3 up, 4 down and retraining, 5 failed (R378). `txq` holds the packets
that have taken their credits, with their bytes that no flit carries yet, and `rx` the bytes received of a packet that
is not complete. `owed` are credits to return by virtual channel; `nakDue` says that the next flit carries NAK. `recon` holds the comparisons that a reset of the link waits for (R357). -/
structure Link where
  enable : Bool := true
  st : BitVec 3 := 1
  peerOk : Bool := false
  peer : BitVec 12 := 0
  txseq : BitVec 12 := 0
  rxseq : BitVec 12 := 0
  nakDue : Bool := false
  retry : List SentFlit := []
  txq : List (PacketType × Packet × List Byte) := []
  rx : List Byte := []
  owed : SMap Nat := []
  oldestSince : Nat := 0
  fecLostSince : Option Nat := none
  credits : SMap Nat := []
  trainSince : Nat := 0
  resetting : Bool := false
  recon : Option (List (BitVec 12 × BitVec 16)) := none
  myNonce : Option (BitVec 256) := none
  peerNonce : Option (BitVec 256) := none
  proofSent : Bool := false
  heard : Option Nat := none
  beats : BitVec 32 := 0
  beatAt : Nat := 0
  deriving DecidableEq, Repr

/-- A packet that waits for an output link (R359, R368): its type and its fields, the link on which it must leave, and,
for one that is forwarded, the link whose receive buffer holds it and the credits of the packet that arrived there. -/
structure OutPacket where
  ty : PacketType
  packet : Packet
  pinned : Option (BitVec 5)
  input : Option (BitVec 5) := none
  back : Nat := 0
  deriving DecidableEq, Repr

/-- A CONTROL message of which packets have come (R363): the link of the latest, its source and number, its kind, its length,
and its parts by offset. -/
structure Joining where
  link : BitVec 5
  src : BitVec 12
  tid : BitVec 32
  ckind : BitVec 8
  len : Nat
  parts : SMap (List Byte)
  deriving DecidableEq, Repr

/-- The heath side of the device. Links are keyed by number; `rot` is the rotation of R368 by destination; `outq`
holds packets that wait for a link, `loopq` packets to this device; receivers are keyed 2^26 × member + 16,384 × source + channel, member
0 but for the copies of a multicast;
`routeFault` is the destination of a packet refused at the hop limit (R370), and `stranded` holds the coins of refusals that met it, with
the device and channel of their sender; `joining` and `inbox` hold the CONTROL
messages that are incomplete, and those that wait for the steward, and `refusals` the signals and transfers that a till
overflow refused (R299): channel, transfer ID and cause. -/
structure Heath where
  id : BitVec 12 := 0
  links : SMap Link := []
  outq : List OutPacket := []
  stranded : List (BitVec 12 × BitVec 14 × BitVec 24) := []
  loopq : List OutPacket := []
  route : SMap (BitVec 32) := []
  rot : SMap Nat := []
  devmapA : SMap (BitVec 32) := []
  devmapB : SMap (BitVec 32) := []
  devSel : Bool := false
  tree : SMap Line := []
  channels : SMap Channel := []
  mlist : SMap (BitVec 16) := []
  receivers : SMap Receiver := []
  memStacks : SMap Stack := []
  controlTid : SMap (BitVec 32) := []
  routeFault : Option (BitVec 12) := none
  joining : List Joining := []
  inbox : List Joining := []
  refusals : List (BitVec 14 × BitVec 32 × BitVec 8) := []
  deriving DecidableEq, Repr

end Sys2Proof.Machine
end

