-- ==== Sys2Proof/Machine/HouseState.lean ====
section
/-!
DEFINITION. What the block sends; the state of the Ethernet ports, the counting house, the steward, the vault, the ledger, survival, power
and the SMBus target.
-/
namespace Sys2Proof.Machine

/-- What the block sends to its environment. -/
inductive Output where
  /-- A mailbox reply frame (R425) on a session, with its PN: mailbox, CMD, TAG, STATUS, DETAIL, data. -/
  | reply (session : BitVec 32) (pn : BitVec 64) (mb : BitVec 4) (cmd : BitVec 8) (tag : BitVec 16) (status detail : BitVec 8)
      (data : List Byte)
  /-- A BUSY reply (R429): OPCMD, OPMBOX, OPTAG, PROGRESS and ETA of the operation in progress, and CAP_0–CAP_3. -/
  | busy (session : BitVec 32) (pn : BitVec 64) (mb : BitVec 4) (cmd : BitVec 8) (tag : BitVec 16) (opcmd : BitVec 8)
      (opmb : BitVec 4) (optag : BitVec 16) (progress : BitVec 16) (eta : BitVec 64) (data : List Byte)
  /-- A flit on a link (R352). -/
  | flit (link : BitVec 5) (bits : BitVec 2048)
  /-- A SEALED datagram leaves with this tag (R398, R463); its plaintext follows. -/
  | sealed (tag : GcmTag) (plain : Output)
  /-- A SEALED message to a client (R398, R402): session, PN, MTYPE, STATUS, SEG, REQID, LSEQ, LTIME, DSCP, data. -/
  | message (session : BitVec 32) (pn : BitVec 64) (mtype status seg : BitVec 8) (reqid lseq ltime : BitVec 64)
      (dscp : BitVec 6) (data : List Byte)
  /-- A fragment of a handshake message (R398, R400, R463): sub-port, TYPE, index and count, session, exchange ID, DSCP and
  the bytes of the body that it carries. -/
  | handshake (port : Bool) (sub : BitVec 2) (type index count : BitVec 8) (session : BitVec 32) (exchange : BitVec 64)
      (dscp : BitVec 6) (bytes : List Byte)
  /-- A REJECT (R400): sub-port, session, exchange ID, DSCP and status. -/
  | reject (port : Bool) (sub : BitVec 2) (session : BitVec 32) (exchange : BitVec 64) (dscp : BitVec 6) (status : BitVec 8)
  /-- An answer to ARP, neighbour solicitation or an echo request (R395). -/
  | answer (port : Bool) (sub : BitVec 2) (kind : FrameKind)
  /-- A pause frame (R396): sub-port, priority, and whether it stops or releases. -/
  | pause (port : Bool) (sub : BitVec 2) (prio : BitVec 3) (stop : Bool)
  /-- A PTP message passed to the steward with its timestamp; a timestamp that the steward reads from the queue of a port; or a
  one-step Pdelay_Resp that leaves with its timestamp inserted (R397). -/
  | ptp (port : Bool) (sub : BitVec 2) (kind : PtpKind) (time : BitVec 64)
  | ptpSent (port : Bool) (time : BitVec 64)
  | ptpOneStep (port : Bool) (sub : BitVec 2) (time : BitVec 64)
  /-- The bytes of an SMBus read (R447, R519), or a NAK. -/
  | smb (data : List Byte)
  | nak
  /-- The bus response to a steward's register access, or bit 0 of the status that JTAG shifts out, reports an address
  error (R32). -/
  | addressError (by_ : Writer) (addr : BitVec 48)
  deriving DecidableEq, Repr

/-! ## Ports (R393–R397, R417) -/

/-- One Ethernet sub-port: PORT_CFG, its addresses, whether its link is up, its receive buffer and whether it pauses its
peer. `paused` holds, by priority, the time until which the peer has paused it, and `txq` what waits for that; `answers` counts
the answers sent in the second `answersSecond` (R395). -/
structure SubPort where
  cfg : BitVec 64 := 0x05DCB7A100000000
  ipv4 : BitVec 32 := 0
  ipv6 : BitVec 256 := 0
  up : Bool := false
  fill : Nat := 0
  pausing : Bool := false
  paused : SMap Nat := []
  txq : List (BitVec 3 × Output) := []
  answers : Nat := 0
  answersSecond : Nat := 0
  deriving DecidableEq, Repr

/-! ## Sessions and the counting house (R398–R419) -/

/-- A Lolith Wire session (R400, R401): whether it belongs to a mailbox, its client index or mailbox, whether it is
OPEN, the device's own PN, the receive window (highest PN accepted plus one, and the PNs seen below it), its times,
the sub-port, IP version and DSCP of its latest datagram, the client's public key, the shared secret and TH of its handshake
while that lasts, and then its keys and salts (R463). -/
structure Session where
  number : BitVec 32
  control : Bool
  index : BitVec 16
  opened : Bool
  txpn : BitVec 64 := 0
  rxNext : Nat := 0
  seen : List Nat := []
  since : Nat := 0
  port : Bool := false
  sub : BitVec 2 := 0
  v6 : Bool := false
  key : BitVec 15616 := 0
  secret : BitVec 256 := 0
  th : BitVec 256 := 0
  keys : BitVec 576 := 0
  exchange : BitVec 64 := 0
  dscp : BitVec 6 := 0
  deriving DecidableEq, Repr

/-- An entry of the receipt book (R411), with the session and the DSCP of the request or its latest retransmission. The bytes
of a stored reply, of which `len` counts, stand in the receipt region in DRAM (R413). -/
structure Receipt where
  ticket : BitVec 64
  dscp : BitVec 6
  client : BitVec 13
  reqid : BitVec 64
  digest : BitVec 192
  pending : Bool
  status : BitVec 8
  len : Nat
  lseq : BitVec 64
  ltime : BitVec 64
  session : BitVec 32
  deriving DecidableEq, Repr

/-- A subscriber to the ledger (R472): its session and the next SEQ that it is owed. -/
structure Subscriber where
  session : BitVec 32
  next : BitVec 64
  deriving DecidableEq, Repr

/-- A message that has arrived at an outbox ring end (R407): its ring end, its first position and its coins; and how far the
counting house has read it: its frame word once it is read, whether lines of a slice have been asked for (R229), those that
have come, how many have not, and whether one could not be read. -/
structure Arrived where
  die : BitVec 2
  index : BitVec 10
  pos : BitVec 24
  coins : BitVec 24
  frame : Option (BitVec 32) := none
  asked : Bool := false
  lines : SMap Line := []
  waits : Nat := 0
  bad : Bool := false
  deriving DecidableEq, Repr

/-- The counting house. The receipt book is keyed by slot, and `phy` holds the PHY latency of each port mode in ns, as a reset
calibrates it (R397). -/
structure House where
  ports : SMap SubPort := []
  phy : SMap (BitVec 16) := []
  ptpQueue : SMap (List (BitVec 64)) := []
  sessions : List Session := []
  nextSession : BitVec 32 := 1
  receipts : SMap (Option Receipt) := []
  nextTicket : BitVec 64 := 0
  stopped : Bool := false
  err : Bool := false
  errCause : BitVec 4 := 0
  receiptCfg : BitVec 62 := 0
  intakes : SMap (BitVec 128) := []
  outboxes : SMap (BitVec 13) := []
  arrivals : List Arrived := []
  subscribers : List Subscriber := []
  deriving DecidableEq, Repr

/-! ## The steward (R420–R447) -/

/-- What a mailbox keeps (R427): the TAG of its last completed command, its STATUS, DETAIL and result. -/
structure MailBox where
  tag : Option (BitVec 16) := none
  status : BitVec 8 := 0
  detail : BitVec 8 := 0
  result : List Byte := []
  deriving DecidableEq, Repr

/-- A section of the loaded image that the image store keeps (R434–R436, R513). -/
structure Section where
  ty : BitVec 16
  unit : BitVec 16
  logical : BitVec 16
  data : List Byte
  deriving DecidableEq, Repr

/-- A patch list in assembly (R164): its source (mailbox n, or 16 plus a session), PARTS, the next part, its bytes,
and the time of its last part. -/
structure Assembly where
  source : Nat
  parts : BitVec 16
  next : BitVec 16
  bytes : List Byte
  since : Nat
  deriving DecidableEq, Repr

/-- Why the steward owes a program reset (R510): STOP, an expulsion (R482), or a recovery (R497), which arms the program anew with
the replays left, commits the step, and perhaps starts the verification replay. -/
inductive ResetCause where
  | stop
  | expelled
  | recovery (left : Option Nat) (step : BitVec 64) (verify : Bool)
  deriving DecidableEq, Repr

/-- A firmware slot of NOR flash (R452): the fields of its header, its signatures, of which OSIG may be all zeros, and its body,
none where a write was cut off, so that no digest fits it (R454). -/
structure FwSlot where
  version : BitVec 32 := 0
  svn : BitVec 8 := 0
  length : BitVec 64 := 0
  digest : BitVec 256 := 0
  rootKey : BitVec 15616 := 0
  esig : Option Signature := none
  osig : Option Signature := none
  body : Option (List Byte) := none
  deriving DecidableEq, Repr

/-- Header bytes [55:0] of a firmware slot (R452). -/
def FwSlot.header (x : FwSlot) : List Byte :=
  bytesOf 0x57465A45 4 ++ bytesOf x.version.toNat 4 ++ [x.svn] ++ bytesOf 0 7 ++ bytesOf x.length.toNat 8
    ++ bytesOf x.digest.toNat 32

/-- What a long operation still has to do when it ends (R428–R430, R437, R501). -/
inductive LongWork where
  /-- LOAD_IMAGE: the program becomes loaded. -/
  | load (digest req : BitVec 256) (logical : BitVec 12) (sections : List Section) (tiles : List Nat)
  /-- READ_TALLIES: when the strobe was sent, and the time counter then. -/
  | tallies (strobe : Nat) (time : BitVec 64)
  /-- SNAPSHOT 1: the buddy's answer, once it is known. -/
  | plan (accepted : Option Bool)
  | take (record : Option (BitVec 1536))
  | list
  | spare (addr : BitVec 48) (length : BitVec 64) (digest : BitVec 256)
  | twin (l : Option (BitVec 12))
  /-- RESTORE from slot B, or from slot A. -/
  | restore (slotB : Bool)
  | attest (nonce : BitVec 256) (part : BitVec 8)
  /-- ENROL: FORM, the arguments, the key of the session, and the OSIG of each slot, if it is not all zeros. -/
  | enrol (form : BitVec 8) (args : EnrolArgs) (key : BitVec 15616) (osigA osigB : Option Signature)
  /-- UPDATE_FW: the new image. -/
  | update (image : FwSlot)
  | zeroise
  /-- PREPARE_RETURN: the failure record. -/
  | retire (record : List Byte)
  deriving DecidableEq, Repr

/-- A long operation in progress (R428–R430): its command, mailbox and TAG, and the PROGRESS reported last. -/
structure LongOp where
  cmd : BitVec 8
  mailbox : BitVec 4
  tag : BitVec 16
  progress : BitVec 16 := 0
  work : LongWork
  deriving DecidableEq, Repr

/-- The loaded program and its run (R437–R440). -/
structure Program where
  digest : Option (BitVec 256) := none
  req : BitVec 256 := 0
  logical : BitVec 12 := 0
  sections : List Section := []
  armed : Bool := false
  started : Bool := false
  aborted : Bool := false
  startAt : Option (BitVec 64) := none
  startDue : Option Nat := none
  remaining : Option Nat := some 0
  replays : Nat := 0
  tiles : List Nat := []
  spills : Bool := false
  everArmed : Bool := false
  rewrite : Bool := false
  deriving DecidableEq, Repr

/-- The steward and the SMBus target. `stepReplies` are the mailboxes and TAGs of the SET_STEP commands whose change has not
completed (R441). `state` is CAP_1.STATE (R443), with 3 kept while a program is armed. A warm
reset is due since `warmAsked`, by cause `warmBy`: 1 the steward, 2 a lockstep mismatch, 3 SMBus WARM (R510). -/
structure Steward where
  grade : BitVec 2 := 0
  fwVersion : BitVec 32 := 0
  svn : BitVec 7 := 0
  state : BitVec 4 := 0
  failDomain : BitVec 7 := 0
  boardId : BitVec 8 := 0
  feedId : BitVec 4 := 0
  pos : BitVec 4 := 0
  mailboxes : SMap MailBox := []
  longOp : Option LongOp := none
  program : Program := {}
  assembly : Option Assembly := none
  tallies : SMap Tally := []
  smbAddr : Option (BitVec 7) := none
  chainIn : Bool := true
  chainOut : Bool := false
  booted : Bool := false
  lockstep : Bool := false
  warmAsked : Option Nat := none
  warmBy : BitVec 2 := 0
  alive : Nat := 0
  holdAsked : Bool := false
  sram : Memory := []
  resetAsked : Option ResetCause := none
  stepReplies : List (BitVec 4 × BitVec 16) := []
  deriving DecidableEq, Repr

/-! ## Trust and the ledger (R448–R477) -/

/-- A client of the enrolment record (R455). -/
structure Client where
  key : BitVec 256 := 0
  rights : BitVec 8 := 0
  mask : BitVec 64 := 0
  deriving DecidableEq, Repr

/-- A copy of the enrolment record whose MAGIC is right and whose MAC verifies (R455): bindings are keyed by mailbox 1–15 as (key digest, role). -/
structure Enrolment where
  gen : BitVec 8 := 0
  version : BitVec 64 := 0
  owner : BitVec 15616 := 0
  bindings : SMap (BitVec 256 × BitVec 8) := []
  clients : SMap Client := []
  deriving DecidableEq, Repr

/-- A seal being signed (R470, R471): its range, time, head and the head of the seal before it. -/
structure SealJob where
  first : BitVec 64
  last : BitVec 64
  time : BitVec 64
  head : BitVec 256
  prev : BitVec 256
  since : Nat
  deriving DecidableEq, Repr

/-- A record that waits to be appended (R471): KIND, STATUS, SESSION, CLIENT, RQD and RPD. -/
structure RecordDraft where
  kind : BitVec 8
  status : BitVec 8
  session : BitVec 32
  client : BitVec 16
  rqd : BitVec 192
  rpd : BitVec 192
  deriving DecidableEq, Repr

/-- The vault, NOR flash and the ledger. `pufHelper` is the PUF_HELPER fuse bank and `kpuf` the device secret K_PUF (R449, R450);
`enrolment` is the copy of the enrolment record in use and `otherCopy` the other one, each none where it is not valid (R455); `challenge` is what the device drew in this boot for a token that opens the private test modes (R475). -/
structure Vault where
  pufOk : Bool := false
  pufHelper : List Byte := []
  kpuf : BitVec 256 := 0
  gen : BitVec 6 := 0
  rollback : BitVec 7 := 0
  returnMode : Bool := false
  slotB : Bool := false
  zpend : Bool := false
  zrecord : Bool := false
  zmarker : Bool := false
  failureRecord : List Byte := []
  slots : SMap FwSlot := []
  selectB : Bool := false
  enrolment : Option Enrolment := none
  otherCopy : Option Enrolment := none
  challenge : BitVec 256 := 0
  epochCounter : BitVec 32 := 0
  mrBoot : BitVec 256 := 0
  mrRun : BitVec 256 := 0
  log : List (BitVec 512) := []
  runCount : Nat := 0
  logOvf : Bool := false
  epoch : BitVec 32 := 0
  seq : BitVec 64 := 0
  chain : BitVec 256 := 0
  sealedNext : BitVec 64 := 0
  prevHead : BitVec 256 := 0
  oldestAt : Nat := 0
  sealedAt : Nat := 0
  lastTime : BitVec 64 := 0
  records : SMap (BitVec 1024) := []
  sealRing : SMap (List Byte) := []
  sealCount : Nat := 0
  signing : List SealJob := []
  sealWaiting : Bool := false
  waiting : List RecordDraft := []
  controlOk : Bool := false
  deriving DecidableEq, Repr

/-! ## Survival (R478–R504) -/

/-- A granary slot (R489–R493): its commit record if it is valid, the state bytes that it holds in chunks of 1 MiB, the tags of
the chunks, each with the key and the nonce under which its chunk is encrypted, and the marks of its codewords of 2 KiB (1
correctable, 2 uncorrectable), those of the state by their place and that of the commit page at 2^48. -/
structure Granary where
  record : Option (BitVec 1536) := none
  state : List (Nat × Byte) := []
  tags : List GcmTag := []
  marks : SMap (BitVec 2) := []
  deriving DecidableEq, Repr

/-- A device's report to the leader (R487): the step, and whether its copy is acknowledged and its replay ended. -/
structure DevReport where
  step : BitVec 64 := 0
  copied : Bool := false
  ended : Bool := false
  deriving DecidableEq, Repr

/-- A snapshot drain in progress (R492, R493): the step, whether slot B is its target, when it began, and TIME, EPOCH and
LOSS of its commit record. -/
structure Drainage where
  step : BitVec 64
  slotB : Bool
  since : Nat
  time : BitVec 64
  epoch : BitVec 32
  loss : BitVec 32
  deriving DecidableEq, Repr

/-- Survival plans, buddies, snapshots, spares and twins. `asked` is a plan whose check with the buddy is not answered;
`lossAsked` and `lossLine` are the leader's read of the loss in a slice, asked for and granted (R229, R487);
`dead` lists the devices declared dead, physical and logical number; `stepRun` is the step of the replay that runs or last
ran, and `verifying` says that it is a verification replay. -/
structure Survival where
  plan : Option Line := none
  asked : Option Line := none
  planSince : Nat := 0
  partnerPhys : BitVec 12 := 0
  partnerPlan : Option Line := none
  cofated : Bool := false
  copyChan : Option (BitVec 14) := none
  copying : Option (BitVec 64) := none
  staticCopied : Bool := false
  ctillSeen : BitVec 32 := 0
  endReported : Bool := false
  commit : BitVec 64 := 0
  loss : BitVec 32 := 0
  reports : SMap DevReport := []
  lossAsked : Bool := false
  lossLine : Option Line := none
  stepRun : BitVec 64 := 0
  verifying : Bool := false
  verify : Bool := false
  recovering : Bool := false
  recoverStep : BitVec 64 := 0
  dead : List (BitVec 12 × BitVec 12) := []
  lost : Bool := false
  mapDue : Bool := false
  spare : Option (BitVec 48 × BitVec 64 × BitVec 256) := none
  twin : Option (BitVec 12) := none
  twinSeal : Option (BitVec 32 × BitVec 64 × BitVec 256) := none
  draining : Option Drainage := none
  granA : Granary := {}
  granB : Granary := {}
  granChan : BitVec 24 := 0
  granRate : BitVec 8 := 0
  granErr : Bool := false
  granLost : Bool := false
  snapAsked : Bool := false
  interval : BitVec 16 := 0
  lastSnap : BitVec 64 := 0
  events : Nat := 0
  replayBegan : Nat := 0
  overlapped : Bool := false
  replayTimes : List Nat := []
  overlapTimes : List Nat := []
  delta : Option Int := none
  deriving DecidableEq, Repr

/-! ## Power (R505–R521) -/

/-- The power and thermal manager. Sensor readings are keyed by sensor (R516), as sampled last; `above` and `below` hold, by
sensor, the time since which it has stood at or above its step-down threshold and below its step-up threshold; `holders` lists
the sensors that ask for the thermal hold. -/
structure Power where
  on : Bool := false
  pgood : Bool := false
  modEn : Bool := false
  strapped : Bool := false
  pgoodAt : Nat := 0
  modEnAt : Nat := 0
  railsOff : Bool := false
  vin : BitVec 16 := 0
  pin : BitVec 16 := 0
  trip : Bool := false
  tripSensor : BitVec 5 := 0
  uvSeen : Bool := false
  cap : BitVec 16 := 2400
  readings : SMap (BitVec 16) := []
  above : SMap Nat := []
  below : SMap Nat := []
  thermalStep : BitVec 3 := 0
  powerStep : BitVec 3 := 0
  holders : List Nat := []
  deriving DecidableEq, Repr

end Sys2Proof.Machine
end

