-- ==== Sys2Proof/Machine/State.lean ====
section
/-!
DEFINITION. The state of the block, its reset, and the reasons a step can stop.
-/
namespace Sys2Proof.Machine

/-- The state of the block: plain data. `ecc` marks the codewords that hold errors, keyed by device address / 16:
1 correctable, 2 uncorrectable (R223, R263). `fresh` counts the draws of free values. `pending` is the queue of
commands, first in, first out. -/
structure State where
  fab : Fabric := {}
  clk : Clocks := {}
  heath : Heath := {}
  house : House := {}
  stew : Steward := {}
  vault : Vault := {}
  surv : Survival := {}
  power : Power := {}
  mem : Memory := []
  ecc : SMap (BitVec 2) := []
  egress : List Output := []
  fresh : Nat := 0
  pending : List Instr := []
  deriving DecidableEq, Repr

/-- The reasons for a fault. There are none: R90–R97 make every error of the SG4 an effect on its state (a halt
record, an error flag, a refusal in a reply), so no command of the block ends in a fault. Safe. -/
inductive Fault
  deriving DecidableEq, Repr

/-- The reasons for a refusal. -/
inductive Refusal where
  /-- Raised by an arm of `exec` whose command has no meaning yet. Safe: the machine stops. -/
  | notModelled (mnemonic : String)
  deriving DecidableEq, Repr

/-- What a command answers. -/
abbrev Answer := Host.Outcome State Fault Refusal

/-- The factory firmware, which Enfizal's root key signed: every module arrives with it (R454). Its VERSION and SVN, and that it
stands in slot A, are the model's choice (DESIGN CHOICE, log entry 140). -/
def factoryFirmware : FwSlot :=
  let x : FwSlot := { length := BitVec.ofNat 64 Config.factoryBody.length, digest := Config.digest Config.factoryBody
                      rootKey := Config.rootKey, body := some Config.factoryBody }
  { x with esig := some { key := Config.rootKey, context := ascii "SG4-FW", bytes := x.header } }

/-- The block right after power-on reset (R508, R512), before its bring-up: CAP_1.STATE 0 and step 7. -/
def State.reset : State := { vault := { slots := [(0, factoryFirmware)] } }

end Sys2Proof.Machine
end

