-- ==== Sys2Proof/Machine/Ops.lean ====
section
/-!
DEFINITION. The named operations over the state: geometry and presence (R1, R5, R27, R30), access to units, tallies
(R523–R529), the cycle count (R71, R72), clocks, the hold network's requests (R76–R79) and the halt record (R90–R97).
-/
namespace Sys2Proof.Machine

/-! ## Geometry -/

def tileDie (t : Nat) : Nat := t / 192
def tileField (t : Nat) : Nat := t / 48
def tileRow (t : Nat) : Nat := t / 8 % 6
def tileCol (t : Nat) : Nat := t % 8
/-- The linear number of R5, from field number 4d + f. -/
def linear (f r t : Nat) : Nat := (f * 6 + r) * 8 + t

/-- Fields per die of a grade (R1): 0 F, 1 L, 2 S. -/
def fieldsOf (grade : BitVec 2) : Nat := if grade = 0 then 4 else if grade = 1 then 3 else 2

def fieldIn (grade : BitVec 2) (f : Nat) : Bool := f < 16 && f % 4 < fieldsOf grade
def tileIn (grade : BitVec 2) (t : Nat) : Bool := t < 768 && fieldIn grade (tileField t)
/-- Stack presence (R30). -/
def stackIn (grade : BitVec 2) (k : Nat) : Bool :=
  k < 12 && k % 3 < (if grade = 0 then 3 else if grade = 1 then 2 else 1)
/-- Hedge-link presence (R30). -/
def linkIn (grade : BitVec 2) (k : Nat) : Bool :=
  k < 20 && k % 10 < (if grade = 0 then 10 else if grade = 1 then 8 else 4)
/-- Whether domain `d` is a compute island of the grade (R35, R36). -/
def islandIn (grade : BitVec 2) (d : Nat) : Bool :=
  d < 32 && (d % 8 < fieldsOf grade || d % 8 = 4 || d % 8 = 6)

/-- Whether domain `d` is present in the grade (R35). -/
def domainIn (grade : BitVec 2) (d : Nat) : Bool :=
  if d < 32 then d % 8 < fieldsOf grade || 4 ≤ d % 8
  else if d < 68 then stackIn grade ((d - 32) / 3) && (grade != 2 || d % 3 != 0)
  else if d < 90 then (d - 68) % 11 = 10 || linkIn grade ((d - 68) / 11 * 10 + (d - 68) % 11)
  else d < 100

def State.grade (s : State) : BitVec 2 := s.stew.grade

/-! ## Units -/

def State.tile (s : State) (t : Nat) : Tile := Sparse.get {} s.fab.tiles t
def State.setTile (s : State) (t : Nat) (x : Tile) : State :=
  { s with fab := { s.fab with tiles := Sparse.set {} s.fab.tiles t x } }
/-- A change of a tile that does not belong to the bundle it issues: it also reaches the tile that stands saved in
case the bundle fails a check (R142). -/
def State.modTile (s : State) (t : Nat) (f : Tile → Tile) : State :=
  let s' := s.setTile t (f (s.tile t))
  match Sparse.find? t s.fab.saves with
  | some x => { s' with fab := { s'.fab with saves := Sparse.put t (f x) s'.fab.saves } }
  | none => s'

def State.field (s : State) (f : Nat) : Field := Sparse.get {} s.fab.fields f
def State.setField (s : State) (f : Nat) (x : Field) : State :=
  { s with fab := { s.fab with fields := Sparse.set {} s.fab.fields f x } }
def State.modField (s : State) (f : Nat) (g : Field → Field) : State := s.setField f (g (s.field f))

def State.die (s : State) (d : Nat) : Die := Sparse.get {} s.fab.dies d
def State.setDie (s : State) (d : Nat) (x : Die) : State :=
  { s with fab := { s.fab with dies := Sparse.set {} s.fab.dies d x } }
def State.modDie (s : State) (d : Nat) (g : Die → Die) : State := s.setDie d (g (s.die d))

def State.stack (s : State) (k : Nat) : Stack := Sparse.get {} s.heath.memStacks k
def State.setStack (s : State) (k : Nat) (x : Stack) : State :=
  { s with heath := { s.heath with memStacks := Sparse.set {} s.heath.memStacks k x } }
def State.modStack (s : State) (k : Nat) (g : Stack → Stack) : State := s.setStack k (g (s.stack k))

def State.link (s : State) (k : Nat) : Link := Sparse.get {} s.heath.links k
def State.setLink (s : State) (k : Nat) (x : Link) : State :=
  { s with heath := { s.heath with links := Sparse.set {} s.heath.links k x } }
def State.modLink (s : State) (k : Nat) (g : Link → Link) : State := s.setLink k (g (s.link k))

def State.chan (s : State) (c : Nat) : Channel := Sparse.get {} s.heath.channels c
def State.setChan (s : State) (c : Nat) (x : Channel) : State :=
  { s with heath := { s.heath with channels := Sparse.set {} s.heath.channels c x } }
def State.modChan (s : State) (c : Nat) (g : Channel → Channel) : State := s.setChan c (g (s.chan c))

def State.island (s : State) (d : Nat) : Island := Sparse.get {} s.clk.islands d
def State.setIsland (s : State) (d : Nat) (x : Island) : State :=
  { s with clk := { s.clk with islands := Sparse.set {} s.clk.islands d x } }
def State.modIsland (s : State) (d : Nat) (g : Island → Island) : State := s.setIsland d (g (s.island d))

def Field.descDyn (f : Field) (n : Nat) : DescDyn := Sparse.get {} f.dyn n
def Field.setDyn (f : Field) (n : Nat) (x : DescDyn) : Field := { f with dyn := Sparse.set {} f.dyn n x }

def State.ringEnd (s : State) (d n : Nat) : RingEnd := Sparse.get {} (s.die d).ringEnds n
def State.setRingEnd (s : State) (d n : Nat) (x : RingEnd) : State :=
  s.modDie d fun y => { y with ringEnds := Sparse.set {} y.ringEnds n x }

def State.till (s : State) (n : Nat) : BitVec 32 := Sparse.get 0 s.fab.tills n
def State.setTill (s : State) (n : Nat) (v : BitVec 32) : State :=
  { s with fab := { s.fab with tills := Sparse.set 0 s.fab.tills n v } }

def State.emit (s : State) (o : Output) : State := { s with egress := s.egress ++ [o] }
def State.draw (s : State) : State := { s with fresh := s.fresh + 1 }

/-- All linear tile numbers. -/
def allTiles : List Nat := List.range 768

/-- The tiles that hold state beside the default, with their numbers. -/
def State.liveTiles (s : State) : List (Nat × Tile) := s.fab.tiles

def State.anyRun (s : State) : Bool := s.fab.tiles.any fun x => x.2.seq.run
def State.fieldRun (s : State) (f : Nat) : Bool := s.fab.tiles.any fun x => tileField x.1 = f && x.2.seq.run

/-- CAP_1.STATE (R443): while a program is armed, 4 if a tile runs and 3 otherwise. -/
def State.capState (s : State) : BitVec 4 :=
  if s.stew.state = 3 then (if s.anyRun then 4 else 3) else s.stew.state

/-! ## Tallies (R522–R531) -/

/-- A tally after `n` events (R523, R528, R531). -/
def Tally.add (x : Tally) (n : Nat) : Tally :=
  if x.quiet then x
  else
    let count := x.count + BitVec.ofNat 48 n
    let wraps : Bool := 2 ^ 48 ≤ x.count.toNat + n
    { x with
      count := count, ovf := x.ovf || wraps, wrapped := x.wrapped || wraps, snap := if x.latched then count else x.snap }

/-- A tally after a reconfiguration: COUNT, OVF and the steward's extension start anew (R528, R530). -/
def Tally.restart (x : Tally) : Tally := { x with count := 0, ovf := false, ext := 0, last := 0, quiet := true, wrapped := false }

/-- A write that clears OVF: a wrap of the same cycle wins (R528). -/
def Tally.clearOvf (x : Tally) : Tally := { x with ovf := x.wrapped }

/-- The strobe of TALLY_LATCH reaches a tally (R531). -/
def Tally.latch (x : Tally) : Tally := { x with snap := x.count, latched := true }

/-- The cycle ends. -/
def Tally.endCycle (x : Tally) : Tally := { x with quiet := false, wrapped := false, latched := false }

def Tally.note (x : Tally) (event qual : BitVec 8) (n : Nat) : Tally :=
  if x.event = event && event != 0 && (x.qual = 0xFF || x.qual = qual) then x.add n else x

/-- The unit's number in the tally table of the model. -/
def tallyUnit : TallyUnit → Nat
  | .tile t => t.toNat
  | .field f => 1024 + f.toNat
  | .fetch f => 1040 + f.toNat
  | .stack k => 1056 + k.toNat
  | .link k => 1072 + k.toNat
  | .house => 1104
  | .steward => 1105

/-- Tallies per unit (R522). -/
def tallyCount : TallyUnit → Nat
  | .tile _ => 2
  | .field _ => 8
  | .fetch _ => 4
  | .stack _ => 8
  | .link _ => 4
  | .house => 16
  | .steward => 8

/-- Whether an event code belongs to the unit (R526). -/
def tallyCodeOf (u : TallyUnit) (e : BitVec 8) : Bool :=
  let n := e.toNat
  match u with
  | .tile _ => 1 ≤ n && n ≤ 8
  | .field _ => 0x20 ≤ n && n ≤ 0x27
  | .fetch _ => 0x40 ≤ n && n ≤ 0x45
  | .stack _ => 0x50 ≤ n && n ≤ 0x58
  | .link _ => 0x70 ≤ n && n ≤ 0x75
  | .house => 0x80 ≤ n && n ≤ 0x90
  | .steward => 0xA0 ≤ n && n ≤ 0xA9

/-- Whether QUAL is in the range of the event (R526); events that take none hold 0. -/
def tallyQualOk (e q : BitVec 8) : Bool :=
  let n := e.toNat
  let v := q.toNat
  if n = 0x70 then v ≤ 7 || v = 0xFF
  else if n = 0x8C then v ≤ 7 || v = 0xFF
  else if n = 0xA2 || n = 0xA3 then (2 ≤ v && v ≤ 8) || v = 0xFF
  else v = 0

/-- The default selection of a tally (R526, R527). -/
def tallyDefault (u : TallyUnit) (n : Nat) : Tally :=
  let e : Nat := match u with
    | .tile _ => if n = 0 then 1 else 7
    | .field _ => 0x20 + n
    | .fetch _ => 0x40 + n
    | .stack _ => 0x50 + n
    | .link _ => 0x70 + n
    | .house => 0x80 + n
    | .steward => 0xA0 + n
  { event := BitVec.ofNat 8 e, qual := if e = 0x70 || e = 0x8C || e = 0xA2 || e = 0xA3 then 0xFF else 0 }

/-- Whether the unit of a tally is present (R522). -/
def tallyIn (grade : BitVec 2) : TallyUnit → Bool
  | .tile t => tileIn grade t.toNat
  | .field f => fieldIn grade f.toNat
  | .fetch f => fieldIn grade f.toNat
  | .stack k => stackIn grade k.toNat
  | .link k => linkIn grade k.toNat
  | .house => true
  | .steward => true

def State.getTally (s : State) (u : TallyUnit) (n : Nat) : Tally :=
  match u with
  | .tile t => if n = 0 then (s.tile t.toNat).tally0 else (s.tile t.toNat).tally1
  | _ => (Sparse.find? (tallyUnit u * 16 + n) s.stew.tallies).getD (tallyDefault u n)

def State.setTally (s : State) (u : TallyUnit) (n : Nat) (x : Tally) : State :=
  match u with
  | .tile t => s.modTile t.toNat fun y => if n = 0 then { y with tally0 := x } else { y with tally1 := x }
  | _ => { s with stew := { s.stew with tallies := Sparse.put (tallyUnit u * 16 + n) x s.stew.tallies } }

/-- `n` events of a code, with its qualifier, at every tally of the unit (R526). -/
def State.count (s : State) (u : TallyUnit) (event qual : BitVec 8) (n : Nat) : State :=
  (List.range (tallyCount u)).foldl
    (fun acc i =>
      let x := acc.getTally u i
      let y := x.note event qual n
      if y = x then acc else acc.setTally u i y) s

def Tile.count (x : Tile) (event : BitVec 8) (n : Nat) : Tile :=
  { x with tally0 := x.tally0.note event 0 n, tally1 := x.tally1.note event 0 n }

/-- `n` events of a tile that happen whether or not its island runs: while the compute islands stand, the tile's tallies gain
nothing (R529). -/
def State.tileEvent (s : State) (t : Nat) (event : BitVec 8) (n : Nat) : State :=
  if n = 0 || s.fab.hold.held then s else s.modTile t fun x => x.count event n

/-- The cycle ends for every tally (R528, R531). -/
def State.endTallies (s : State) : State :=
  let s := s.fab.tiles.foldl (fun (s : State) x =>
    let done (y : Tile) : Tile := { y with tally0 := y.tally0.endCycle, tally1 := y.tally1.endCycle }
    if done x.2 = x.2 then s else s.modTile x.1 done) s
  { s with stew := { s.stew with tallies := s.stew.tallies.map fun x => (x.1, x.2.endCycle) } }

/-! ## Cycles and time -/

/-- Whether cycle `a` is `b` or later, in the window of R72. -/
def sccGe (a b : Scc) : Bool := !(a - b).msb

/-- Units of `clk` in 1 ns. -/
def nsUnits : Nat := 45107216
def usUnits : Nat := 45107216000

/-- The frequency of a step in MHz (R47). -/
def stepMHz (n : BitVec 3) : Nat :=
  if n = 0 then 940 else if n = 1 then 880 else if n = 2 then 820 else if n = 3 then 760
  else if n = 4 then 700 else if n = 5 then 640 else if n = 6 then 470 else 235

/-- The period of a step in units of `clk` (R47). -/
def stepPeriod (n : BitVec 3) : Nat := usUnits / stepMHz n

/-- The time counter in ns (R51). -/
def State.now (s : State) : BitVec 64 := s.clk.time.extractLsb' 32 64

/-- The period of the step in force. -/
def State.period (s : State) : Nat := stepPeriod s.clk.step

/-- The largest stretch debt of the compute islands, in 1/64 of a period. -/
def State.maxDebt (s : State) : Nat := s.clk.islands.foldl (fun m x => max m x.2.debt) 0

/-- The wall time at which the last compute island completes the cycles of `clk`: the stretch that the crossings absorb comes
to the periods and the time held (R43, R392). -/
def State.wall (s : State) : Nat := s.clk.clk + s.period * s.maxDebt / 64

/-- The time counter after `n` cycles of the time-reference domain: 1 ns and TIME_RATE each (R51, R56). -/
def Clocks.tickTime (c : Clocks) (n : Nat) : Clocks :=
  { c with time := c.time + BitVec.ofNat 96 n * (BitVec.ofNat 96 (2 ^ 32) + c.rate.signExtend 96) }

/-- Elapsed time moves on by `u` units of `clk`: the time counter and every consumer of time count on (R51, R52). They
count on while domain 96 has lost its reference, of which the spec says nothing (DESIGN CHOICE, log entry 103). -/
def State.elapse (s : State) (u : Nat) : State :=
  let c := s.clk
  let clk' := c.clk + u
  let n := clk' / nsUnits - c.clk / nsUnits
  let c := { c with clk := clk' }.tickTime n
  { s with clk := { c with
      consumers := c.consumers.map fun x => (x.1, { x.2 with value := x.2.value + (c.time.extractLsb' 32 64 - s.now) }) } }

/-- Whether at least `u` units of `clk` have passed since `since`. -/
def State.passed (s : State) (since u : Nat) : Bool := since + u ≤ s.clk.clk

/-! ## Register writes (R34, R59) -/

/-- The writer reaches the registers: JTAG does not answer after a loss of the reference in domain 98 (R59). -/
def State.reaches (s : State) (w : Writer) : Bool :=
  s.power.pgood && (match w with | .jtag => !(s.island 98).lost | .steward => s.stew.booted)

/-! ## The hold network (R76–R79) -/

/-- The first replay of the armed program has begun, so schedule cycles run when nothing holds the fabric (R77). -/
def State.begun (s : State) : Bool := s.stew.program.armed && 0 < s.stew.program.replays

/-- A schedule cycle is in progress: not held, and not at an announced stop (R76). -/
def State.running (s : State) : Bool :=
  s.begun && !s.fab.hold.held && s.fab.hold.stopAt != some s.fab.scc

def causeBit : Cause → Nat
  | .wait => 2 | .drain => 3 | .halt => 4 | .step => 5 | .thermal => 6 | .slip => 7 | .steward => 8

def Hold.mark (h : Hold) (c : Cause) (clk : Nat) : Hold :=
  match c with
  | .wait => h
  | .drain => { h with drain := true, drainMet := none }
  | .halt => { h with halt := true }
  | .step => if h.step then h else { h with step := true, stepAt := clk }
  | .thermal => { h with thermal := true, thermalOff := none }
  | .slip => { h with slip := true }
  | .steward => { h with steward := true, stewardOff := none }

/-- A request for a hold with request cycle `cyc` (R77, R78): it joins a hold that is announced or in effect, else
the network announces C = cyc + 24. While no schedule cycle runs the stop is reached at once. -/
def State.requestHold (s : State) (c : Cause) (cyc : Scc) : State :=
  let h := s.fab.hold
  let h' := h.mark c s.clk.clk
  if h.held || h.stopAt.isSome then { s with fab := { s.fab with hold := h' } }
  else
    let h' := if s.begun then { h' with stopAt := some (cyc + 24) }
      else { h' with held := true, stoppedAt := s.clk.clk, stopAt := some s.fab.scc }
    { s with fab := { s.fab with hold := h' } }.count .steward 0xA2 (BitVec.ofNat 8 (causeBit c)) 1

/-- A slip request of island `d` (R44, R45). While no schedule cycle runs the stop is reached at once, also where no program
is armed, of which R77 says nothing (DESIGN CHOICE, log entry 104). -/
def State.requestSlip (s : State) (d : Nat) : State :=
  if (s.island d).slipAsked then s
  else
    let own : Bool := !s.fab.hold.held && s.fab.hold.stopAt.isNone
    let s := s.modIsland d fun x => { x with slipAsked := true }
    let s := if d % 8 < 4 then s.count (.field (BitVec.ofNat 4 (d / 8 * 4 + d % 8))) 0x27 0 1 else s
    let s := if own then s.count .steward 0xA1 0 1 else s
    s.requestHold .slip s.fab.scc

/-- Every island whose debt exceeds 96 units has asked for a slip (R43). -/
def State.requestSlips (s : State) : State :=
  (s.clk.islands.filter fun x => 96 < x.2.debt).foldl (fun s x => s.requestSlip x.1) s

/-- HALT_SOURCE of a tile (R94). -/
def tileSource (t slot : Nat) (iaddr : BitVec 11) : BitVec 64 :=
  BitVec.ofNat 64 (tileDie t + tileField t % 4 * 4 + tileRow t * 16 + tileCol t * 128 + slot * 2 ^ 24
    + iaddr.toNat * 2 ^ 32)

/-- HALT_SOURCE of another unit (R94). -/
def unitSource (kind index : Nat) : BitVec 64 := BitVec.ofNat 64 (kind * 2 ^ 12 + index * 2 ^ 16)

/-- The halt record after a request (R91): it keeps the request of the lowest request cycle, and among requests of
one cycle the one of the lowest `rank` (tiles by linear number, then other sources by KIND). -/
def HaltRecord.take (h : HaltRecord) (rank : Nat) (source : BitVec 64) (cyc : Scc) (reason : BitVec 8)
    (subcode : BitVec 4) (detail : BitVec 32) : HaltRecord :=
  let first : Bool := !h.valid || (cyc - h.scc).msb || (cyc = h.scc && rank < h.rank)
  let count := if h.count = 255 then 255 else h.count + 1
  if first then
    { valid := true, more := h.valid, reason := reason, subcode := subcode, count := count, source := source,
      scc := cyc, detail := detail, rank := rank }
  else { h with more := true, count := count }

/-- The islands stand with a halt: no tile runs, and the device is halted (R90, R137, R443). -/
def State.stopRun (s : State) : State :=
  { s with
    fab := { s.fab with
      tiles := Sparse.mapD {} (fun (x : Tile) => { x with seq := { x.seq with run := false } }) s.fab.tiles }
    stew := { s.stew with state := if s.stew.state = 3 then 5 else s.stew.state } }

/-- A halt request (R90, R91, R79): the record, a hold that never ends, and the program aborted. -/
def State.requestHalt (s : State) (rank : Nat) (source : BitVec 64) (cyc : Scc) (reason : BitVec 8)
    (subcode : BitVec 4) (detail : BitVec 32) : State :=
  let cyc := if s.fab.hold.held then s.fab.scc else cyc
  let s := { s with
    fab := { s.fab with haltRec := s.fab.haltRec.take rank source cyc reason subcode detail }
    stew := { s.stew with program := { s.stew.program with aborted := true } } }
  let s := s.requestHold .halt cyc
  if s.fab.hold.held then s.stopRun else s

/-- A halt request of a unit that is no tile, while a program is armed (R91, R94, R442). -/
def State.unitHalt (s : State) (kind index : Nat) (reason : BitVec 8) (subcode : BitVec 4)
    (detail : BitVec 32) : State :=
  if s.stew.program.armed then
    s.requestHalt (768 + kind) (unitSource kind index) s.fab.scc reason subcode detail
  else s

/-- A firmware abort (R97, R442). -/
def State.abort (s : State) (code : BitVec 8) (detail : BitVec 32) : State := s.unitHalt 8 0 code 0 detail

/-- What a tile reports of a failed check (R142): the slot reported and the halt. -/
structure Failure where
  slot : Nat
  reason : BitVec 8
  subcode : BitVec 4
  detail : BitVec 32
  deriving DecidableEq, Repr

/-- The place of a failure in the order of R142, then of the slots. -/
def Failure.rank (f : Failure) : Nat :=
  let r :=
    if f.reason = 0x07 then (if f.subcode = 1 then 1 else if f.subcode = 2 then 3 else if f.subcode = 3 then 6 else 11)
    else if f.reason = 0x06 then 2
    else if f.reason = 0x08 then 4
    else if f.reason = 0x11 then 5
    else if f.reason = 0x02 then 7
    else if f.reason = 0x03 then 8
    else if f.reason = 0x01 then 9
    else if f.reason = 0x05 then 10
    else if f.reason = 0x0C then 12
    else if f.reason = 0x0B then 13
    else if f.reason = 0x04 then 13
    else if f.reason = 0x0D then 14
    else 15
  r * 8 + f.slot

/-- A tile's halt request of a cycle (R142): one request a cycle, carrying the first failure of the order. Of two failures
with one reason and slot, from two bundles, it carries the one that was found first (DESIGN CHOICE, log entry 125). -/
def State.tileHalt (s : State) (t : Nat) (cyc : Scc) (iaddr : BitVec 11) (f : Failure) : State :=
  let x := s.tile t
  let src := tileSource t f.slot iaddr
  match x.req with
  | some (c, r) =>
    if c = cyc then
      if f.rank < r then
        let s := s.modTile t fun y => { y with req := some (cyc, f.rank) }
        let h := s.fab.haltRec
        if h.valid && h.scc = cyc && h.rank = t then
          { s with fab := { s.fab with haltRec :=
            { h with reason := f.reason, subcode := f.subcode, source := src, detail := f.detail } } }
        else s
      else s
    else (s.modTile t fun y => { y with req := some (cyc, f.rank) }).requestHalt t src cyc f.reason f.subcode f.detail
  | none =>
    (s.modTile t fun y => { y with req := some (cyc, f.rank) }).requestHalt t src cyc f.reason f.subcode f.detail

/-! ## Addresses (R31, R32, R259, R260) -/

/-- The scratchpad device address of a slice address (R221). -/
def padAddr (t a : Nat) : Nat := 0x100000000000 + t * 0x200000 + a

/-- What a device address names to an agent that is neither the steward nor JTAG: stack-local DRAM at a canonical
address, a scratchpad byte of a tile, or a hole. -/
inductive Place where
  | dram (stack : Nat) (addr : Nat)
  | pad (tile : Nat) (slice : Nat)
  | absentTile (f : Nat)
  | absentStack (k : Nat)
  | hole
  deriving DecidableEq, Repr

/-- The present stacks of a die, in increasing order (R30). -/
def dieStacks (grade : BitVec 2) (d : Nat) : List Nat := [3 * d, 3 * d + 1, 3 * d + 2].filter (stackIn grade)

/-- Whether a stack-local address lies in the image store or the ledger (R465, R513). -/
def inReserved (a : Nat) : Bool := 0x0FB0000000 ≤ a % 0x1000000000 && a < 0x1000000000

/-- The place of a device address (R31, R260), with the ledger and the image store as holes when `guarded`. -/
def place (grade : BitVec 2) (guarded : Bool) (a : Nat) : Place :=
  if a < 0xC000000000 then
    let k := a / 0x1000000000
    if !stackIn grade k then (if k < 12 then .absentStack k else .hole)
    else if guarded && inReserved a then .hole else .dram k a
  else if 0x040000000000 ≤ a && a < 0x050000000000 then
    let d := (a - 0x040000000000) / 0x4000000000
    let o := (a - 0x040000000000) % 0x4000000000
    let ks := dieStacks grade d
    let n := ks.length
    if n * 0x1000000000 ≤ o then .hole
    else
      let c := o / 4096
      let k := ks.getD (c % n) 0
      let b := k * 0x1000000000 + c / n * 4096 + o % 4096
      if guarded && inReserved b then .hole else .dram k b
  else if 0x100000000000 ≤ a && a < 0x100060000000 then
    let t := (a - 0x100000000000) / 0x200000
    let o := (a - 0x100000000000) % 0x200000
    if 768 ≤ t then .hole
    else if !tileIn grade t then .absentTile (tileField t)
    else if o < 0x140000 then .pad t o else .hole
  else .hole

/-! ## Codewords (R223, R263) -/

/-- The worst mark of the codewords of `[a, a + n)`: 0 clean, 1 correctable, 2 uncorrectable. -/
def State.eccOf (s : State) (a n : Nat) : BitVec 2 :=
  s.ecc.foldl (fun w c => if a / 16 ≤ c.1 && c.1 * 16 < a + n && w.toNat < c.2.toNat then c.2 else w) 0

/-- How many codewords of `[a, a + n)` are correctable. -/
def State.eccCorrectable (s : State) (a n : Nat) : Nat :=
  (s.ecc.filter fun c => a / 16 ≤ c.1 && c.1 * 16 < a + n && c.2 = 1).length

/-- The first uncorrectable codeword of `[a, a + n)`, as an address. -/
def State.eccFirst (s : State) (a n : Nat) : Nat :=
  match s.ecc.filter fun c => a / 16 ≤ c.1 && c.1 * 16 < a + n && c.2 = 2 with
  | [] => a
  | c :: _ => c.1 * 16

/-- Clean codewords where a write covers `[a, a + n)` wholly, and where it corrects on the way (R548): every mark
but an uncorrectable one that the range covers partly. -/
def State.eccWrite (s : State) (a n : Nat) : State :=
  { s with ecc := s.ecc.filter fun c =>
      !(a / 16 ≤ c.1 && c.1 * 16 < a + n) || (c.2 = 2 && (c.1 * 16 < a || a + n < c.1 * 16 + 16)) }

/-- Bytes written under R548: a byte of a partly covered uncorrectable codeword keeps its old value. -/
def State.writeBytes (s : State) (a : Nat) (bs : List Byte) : State :=
  let n := bs.length
  let blocked (b : Nat) : Bool :=
    s.ecc.any fun c => c.1 = b / 16 && c.2 = 2 && (c.1 * 16 < a || a + n < c.1 * 16 + 16)
  let mem := if s.ecc.isEmpty then Mem.writeBytes s.mem a bs
    else (bs.zipIdx a).foldl (fun m x => if blocked x.2 then m else Mem.setByte m x.2 x.1) s.mem
  { s with mem := mem }.eccWrite a n

/-- A 64 B line stored whole: clean codewords (R548). -/
def State.writeLine (s : State) (a : Nat) (v : Line) : State :=
  { s with mem := Mem.setLine s.mem a v }.eccWrite a 64

end Sys2Proof.Machine
end

