-- ==== Sys2Proof/Machine/Dram.lean ====
section
/-!
DEFINITION. The memory stacks (R258–R270, R291–R293): reads and writes of DRAM with their codewords, the scrub,
refresh and temperature.
-/
namespace Sys2Proof.Machine

/-- 64 B accesses that `n` bytes at `a` take (R262). -/
def accesses (a n : Nat) : Nat := if n = 0 then 0 else (a + n - 1) / 64 + 1 - a / 64

/-- A saturating add to STACK_ECC.CORRECTED (R293). -/
def Stack.correct (x : Stack) (n : Nat) : Stack :=
  { x with corrected := BitVec.ofNat 32 (min (2 ^ 32 - 1) (x.corrected.toNat + n)) }

/-- An uncorrectable codeword has been met at stack offset `o` (R263–R265). -/
def Stack.sawUe (x : Stack) (o : Nat) : Stack := { x with ueSeen := true, ueAddr := BitVec.ofNat 36 o }

/-- Codewords corrected by reads and the scrub of stack `k` are counted (R293, tally 0x51). -/
def State.corrects (s : State) (k c : Nat) : State :=
  if c = 0 then s else (s.count (.stack (BitVec.ofNat 4 k)) 0x51 0 c).modStack k fun x => x.correct c

/-- The bytes of `[b, b + n)` of stack `k`, `b` a stack-local address, read in whole 64 B accesses whose codewords are
corrected in line; none when a codeword is uncorrectable (R262–R264). -/
def State.dramRead (s : State) (k b n : Nat) : State × Option (List Byte) :=
  let u : TallyUnit := .stack (BitVec.ofNat 4 k)
  let a := b / 64 * 64
  let m := 64 * accesses b n
  let c := s.eccCorrectable a m
  let s := s.count u 0x52 0 (accesses b n)
  let s := s.corrects k c
  if s.eccOf a m = 2 then (s.modStack k fun x => x.sawUe (s.eccFirst a m % 2 ^ 36), none)
  else (s, some (Mem.readBytes s.mem b n))

/-- An uncorrectable DRAM read of a fetch engine, a petty transfer or a gleaner halts the fabric (R264). -/
def State.dramHalt (s : State) (k a : Nat) : State := s.unitHalt 5 k 0x0E 1 (BitVec.ofNat 32 a)

/-- The codewords that the read half of a write of `[b, b + n)` corrects: those that it touches in a 64 B access of which it
covers some codeword partly (R262, R263, R548). -/
def State.partCorrectable (s : State) (b n : Nat) : Nat :=
  let lo := min (b + n) (b / 64 * 64 + 64)
  let hi := max b ((b + n) / 64 * 64)
  let head : Bool := b % 16 != 0 || (lo = b + n && lo % 16 != 0)
  let tail : Bool := (b + n) % 16 != 0 && b / 64 != (b + n) / 64
  (if head then s.eccCorrectable b (lo - b) else 0) + (if tail then s.eccCorrectable hi (b + n - hi) else 0)

/-- Bytes stored at stack-local address `b` of stack `k` (R263, R548). -/
def State.dramWrite (s : State) (k b : Nat) (bs : List Byte) : State :=
  let n := bs.length
  let s := s.corrects k (s.partCorrectable b n)
  let bad := s.ecc.filter fun c =>
    b / 16 ≤ c.1 && c.1 * 16 < b + n && c.2 = 2 && (c.1 * 16 < b || b + n < c.1 * 16 + 16)
  let s := (s.writeBytes b bs).count (.stack (BitVec.ofNat 4 k)) 0x53 0 (accesses b n)
  match bad with
  | [] => s
  | c :: _ => s.modStack k fun x => x.sawUe (c.1 * 16 % 2 ^ 36)

/-- The bytes `[a, a + n)` in pieces that lie each in one 4 KiB page, as (address, length) (R260). -/
def pagesOf (a n : Nat) : List (Nat × Nat) :=
  (List.range ((a + n + 4095) / 4096 - a / 4096)).map fun i =>
    let lo := max a (4096 * (a / 4096 + i))
    (lo, min (a + n) (4096 * (a / 4096 + i) + 4096) - lo)

/-- The steward and the counting house store bytes at a device address, where DRAM stands there. -/
def State.writeDram (s : State) (a : Nat) (bs : List Byte) : State :=
  (pagesOf a bs.length).foldl (fun s p =>
    match place s.grade false p.1 with
    | .dram k b => s.dramWrite k b ((bs.drop (p.1 - a)).take p.2)
    | _ => s) s

/-- The steward and the counting house read `n` bytes at a device address; none where a codeword is uncorrectable or no DRAM
stands there. -/
def State.readDram (s : State) (a n : Nat) : State × Option (List Byte) :=
  (pagesOf a n).foldl (fun x p =>
    match place x.1.grade false p.1 with
    | .dram k b =>
      let y := x.1.dramRead k b p.2
      (y.1, x.2.bind fun bs => y.2.map fun cs => bs ++ cs)
    | _ => (x.1, none)) (s, some [])

/-- DRAM_SCRUB (R265): one codeword is read; a correctable one is rewritten, an uncorrectable one is recorded. -/
def execDramScrub (k : BitVec 4) (offset : BitVec 36) (s : State) : Answer :=
  let a := k.toNat * 0x1000000000 + offset.toNat
  .next (
    if !stackIn s.grade k.toNat then s
    else
      let m := Sparse.get 0 s.ecc (a / 16)
      if m = 1 then
        { s with ecc := Sparse.erase (a / 16) s.ecc }.corrects k.toNat 1
      else if m = 2 then s.modStack k.toNat fun x => x.sawUe (a / 16 * 16 % 2 ^ 36)
      else s)

/-- The refresh interval of a stack in units of `clk` (R266). -/
def Stack.interval (x : Stack) : Nat := if x.hot then usUnits * 195 / 100 else usUnits * 39 / 10

/-- REFRESH (R266): the refresh of a pseudo-channel falls due an interval after the one before; in self-refresh none
is sent. -/
def execRefresh (k : BitVec 4) (pc : BitVec 5) (s : State) : Answer :=
  let x := s.stack k.toNat
  .next (
    if stackIn s.grade k.toNat && !x.selfRefresh && s.passed (Sparse.get 0 x.refreshAt pc.toNat) x.interval then
      (s.setStack k.toNat { x with refreshAt := Sparse.set 0 x.refreshAt pc.toNat s.clk.clk }).count (.stack k) 0x50 0 1
    else s)

/-- TEMP_SAMPLE (R266, R292). -/
def execTempSample (k : BitVec 4) (temp : BitVec 8) (s : State) : Answer :=
  .next (
    if !stackIn s.grade k.toNat then s
    else
      s.modStack k.toNat fun x =>
        let hot := x.hot || 85 < temp.toNat
        { x with
          temp := temp
          hot := hot
          hotSeen := x.hotSeen || hot
          coolSince := if 82 < temp.toNat then none else some (x.coolSince.getD s.clk.clk) })

/-- HOT_CLEAR (R266): 10 ms at or below 82 °C. -/
def execHotClear (k : BitVec 4) (s : State) : Answer :=
  let x := s.stack k.toNat
  .next (match x.coolSince with
    | some t => if x.hot && s.passed t (10000 * usUnits) then s.setStack k.toNat { x with hot := false } else s
    | none => s)

end Sys2Proof.Machine
end

