-- ==== Sys2Proof/Machine/HeathOps.lean ====
section
/-!
DEFINITION. Operations over channels and links (R303–R310, R352–R372): channel entries, device maps, paths, the
sending of packets and the numbering of transfers.
-/
namespace Sys2Proof.Machine

/-! ## Channel entries (R304) -/

def localChan : Nat := 0x3FFF
def chanKind (e : Line) : Nat := (e.extractLsb' 0 8).toNat
def chanVc (e : Line) : BitVec 3 := e.extractLsb' 8 3
def chanDev (e : Line) : BitVec 12 := e.extractLsb' 16 12
def chanBase (e : Line) : Nat := (e.extractLsb' 64 48).toNat
def chanSize (e : Line) : Nat := (e.extractLsb' 128 48).toNat
def chanTill (e : Line) : BitVec 15 := e.extractLsb' 176 15
def chanRendIndex (e : Line) : BitVec 10 := e.extractLsb' 192 10
def chanRendDie (e : Line) : BitVec 2 := e.extractLsb' 202 2
def chanRcoins (e : Line) : Nat := (e.extractLsb' 208 24).toNat
def chanMfirst (e : Line) : Nat := (e.extractLsb' 240 16).toNat
def chanMcount (e : Line) : Nat := (e.extractLsb' 256 8).toNat
def chanTree (e : Line) : Nat := (e.extractLsb' 272 16).toNat
def chanSbase (e : Line) : Nat := (e.extractLsb' 288 48).toNat
def chanSsize (e : Line) : Nat := (e.extractLsb' 336 32).toNat

/-- KIND and RCOINS as the channel-kind map of a field gives them; entry 0x3FFF reads KIND 1 (R306). -/
def Field.ckKind (f : Field) (c : Nat) : Nat :=
  if c = localChan then 1 else ((Sparse.get 0 f.ckmap c).extractLsb' 0 3).toNat
def Field.ckCoins (f : Field) (c : Nat) : Nat := (Sparse.get 0 f.ckmap c).toNat / 256

/-- The member channels of a multicast channel, member 0 first. -/
def State.members (s : State) (e : Line) : List Nat :=
  (List.range (chanMcount e)).map fun m => (Sparse.get 0 s.heath.mlist (chanMfirst e + m)).toNat % 16384

/-- A tree holds 0x1F in every byte at reset (R377). -/
def treeReset : Line := BitVec.ofNat 512 ((List.range 64).foldl (fun acc i => acc + 0x1F * 2 ^ (8 * i)) 0)

/-! ## Device numbers (R364–R366) -/

def State.devmap (s : State) : SMap (BitVec 32) := if s.heath.devSel then s.heath.devmapB else s.heath.devmapA

/-- The physical number of a logical device, through the active bank. -/
def State.physOf (s : State) (l : BitVec 12) : Option (BitVec 12) :=
  let e := Sparse.get 0 s.devmap l.toNat
  if e.getLsbD 31 then some (e.setWidth 12) else none

/-- The logical number of a physical device, through the inverse of the active bank. -/
def State.logicalOf (s : State) (p : BitVec 12) : Option (BitVec 12) :=
  (s.devmap.find? fun e => e.2.getLsbD 31 && e.2.setWidth 12 = p).map fun e => BitVec.ofNat 12 e.1

/-- The valid entries of a bank are a one-to-one map (R365). -/
def oneToOne (m : SMap (BitVec 32)) : Bool :=
  let ps := (m.filter fun e => e.2.getLsbD 31).map fun e => e.2.setWidth 12
  decide ps.Nodup

/-- DEVMAP_SEL may change: no program of the device runs, or the fabric stands under a steward hold (R366). -/
def State.selectFree (s : State) : Bool := !s.anyRun || (s.fab.hold.held && s.fab.hold.steward)

/-- The steward selects the bank that it has redrawn, once DEVMAP_SEL may change; a bank that is not one-to-one it never
selects (R365, R366). -/
def State.selectRedrawn (s : State) : State :=
  if !s.surv.mapDue || !s.selectFree then s
  else
    let h := s.heath
    { s with
      surv := { s.surv with mapDue := false }
      heath := { h with devSel := if oneToOne (if h.devSel then h.devmapA else h.devmapB) then !h.devSel else h.devSel } }

/-! ## Paths (R367, R368) -/

/-- A path choice: its link and its weight. -/
def routeChoices (e : BitVec 32) : List (Nat × Nat) :=
  (List.range 4).filterMap fun i =>
    let c := (e.extractLsb' (8 * i) 8).toNat
    if c / 128 = 1 then some (c % 32, c / 32 % 4 + 1) else none

/-- The choices of a physical destination. -/
def State.choices (s : State) (dst : BitVec 12) : List (Nat × Nat) :=
  routeChoices (Sparse.get 0 s.heath.route dst.toNat)

/-- The rotation of a destination: each choice as often as its weight. -/
def routeSlots (cs : List (Nat × Nat)) : List Nat := cs.flatMap fun c => List.replicate c.2 c.1

/-- Flits with packets arrive on link `k`: it has come up, and a reset that it waits for does not keep it from receiving. -/
def State.linkHears (s : State) (k : Nat) : Bool := linkIn s.grade k && (s.link k).st = 3

/-- The link carries packets: it is up and no reset of it is under way (R351, R357). -/
def State.linkUp (s : State) (k : Nat) : Bool := s.linkHears k && !(s.link k).resetting

/-- The link trains after it was enabled or reset, or is about to: packets wait for it (R351, R357). -/
def State.linkComing (s : State) (k : Nat) : Bool :=
  linkIn s.grade k && (s.link k).enable && ((s.link k).resetting || (s.link k).st = 2)

/-- The first choice of a destination whose link is up. -/
def State.firstPath (s : State) (dst : BitVec 12) : Option Nat := ((s.choices dst).map Prod.fst).find? s.linkUp

/-- The next link in the rotation of a destination, with the rotation's next position. -/
def State.sprayPath (s : State) (dst : BitVec 12) : Option (Nat × Nat) :=
  let slots := routeSlots (s.choices dst)
  let n := slots.length
  let r := Sparse.get 0 s.heath.rot dst.toNat
  ((List.range n).map fun i => (r + i) % n).findSome? fun i =>
    let k := slots.getD i 32
    if s.linkUp k then some (k, (i + 1) % n) else none

/-- The absent link over which a channel to a logical device is routed (R4, R167): it is routed over one where every path
choice of its route names an absent link, and the first of them is named (DESIGN CHOICE, log entry 126). -/
def State.routeAbsent (s : State) (dev : BitVec 12) : Option Nat :=
  match (s.physOf dev).filter fun p => p != s.heath.id with
  | none => none
  | some p =>
    match s.choices p with
    | [] => none
    | c :: cs => if (c :: cs).all fun k => !linkIn s.grade k.1 then some c.1 else none

/-- The links on which the copies of a multicast channel's members leave this device (R372). -/
def State.treeLinks (s : State) (e : Line) : List Nat :=
  let t := Sparse.get treeReset s.heath.tree (chanTree e)
  ((List.range (chanMcount e)).map fun m => (t.extractLsb' (8 * m) 5).toNat).filter fun k => k < 0x1E

/-- The absent link over which channel `c` is routed (R4, R167): of a multicast channel, any link of its tree. -/
def State.absentLink (s : State) (c : Nat) : Option Nat :=
  let e := (s.chan c).entry
  if c = localChan || chanKind e = 0 then none
  else if chanKind e = 4 then (s.treeLinks e).find? fun k => !linkIn s.grade k
  else s.routeAbsent (chanDev e)

/-! ## Packets (R359–R362) -/

def Packet.blank : Packet :=
  { vc := 0, last := true, dst := 0, src := 0, chan := 0, sig := false, hops := 0, tid := 0, addr := 0, till := 0,
    value := 0, data := [], mask := 0, coins := [] }

/-- TYPE of a packet (R361). -/
def typeCode : PacketType → Nat
  | .write => 1 | .readReq => 2 | .readReply => 3 | .ring => 4 | .signal => 5 | .ack => 6 | .ret => 7 | .refuse => 8
  | .mcast => 9 | .heartbeat => 11 | .control => 12

/-- The type that a TYPE names; none for a reserved one. -/
def typeOf (n : Nat) : Option PacketType :=
  [PacketType.write, .readReq, .readReply, .ring, .signal, .ack, .ret, .refuse, .mcast, .heartbeat, .control].find?
    fun t => typeCode t = n

/-- The virtual channel of a packet (R358). -/
def packetVc (ty : PacketType) (p : Packet) : BitVec 3 :=
  match ty with
  | .heartbeat => 0 | .control => 0
  | .ack => 1 | .ret => 1 | .refuse => 1
  | .readReply => 2
  | _ => p.vc

/-- The 24 B header (R360). -/
def packetHeader (ty : PacketType) (p : Packet) : Nat :=
  typeCode ty + (packetVc ty p).toNat * 2 ^ 4 + p.last.toNat * 2 ^ 7 + p.dst.toNat * 2 ^ 8 + p.src.toNat * 2 ^ 20
    + p.chan.toNat * 2 ^ 32 + p.sig.toNat * 2 ^ 46 + p.hops.toNat * 2 ^ 48 + p.data.length * 2 ^ 52
    + p.tid.toNat * 2 ^ 64 + p.addr.toNat * 2 ^ 96 + p.till.toNat * 2 ^ 144 + p.value.toNat * 2 ^ 160

/-- The bytes of a packet: header, the extension of a MCAST packet (R362), and data. -/
def packetBytes (ty : PacketType) (p : Packet) : List Byte :=
  bytesOf (packetHeader ty p) 24
    ++ (if ty = .mcast then bytesOf p.mask.toNat 8 ++ p.coins.flatMap fun c => bytesOf (c.toNat % 2 ^ 24) 4 else [])
    ++ p.data

/-- The credits of 256 B that a packet's whole length takes (R359). -/
def packetCredits (ty : PacketType) (p : Packet) : Nat :=
  (24 + (if ty = .mcast then 8 + 4 * p.coins.length else 0) + p.data.length + 255) / 256

/-- The packet that a header begins, without its extension and data (R360). -/
def headerPacket (h : BitVec 192) : Packet :=
  { Packet.blank with
    vc := h.extractLsb' 4 3, last := h.getLsbD 7, dst := h.extractLsb' 8 12, src := h.extractLsb' 20 12
    chan := h.extractLsb' 32 14, sig := h.getLsbD 46, hops := h.extractLsb' 48 4, tid := h.extractLsb' 64 32
    addr := h.extractLsb' 96 48, till := h.extractLsb' 144 15, value := h.extractLsb' 160 32 }

/-- The members marked in a mask. -/
def maskMembers (m : BitVec 64) : List Nat := (List.range 64).filter m.getLsbD

/-- The first packet of a stream of bytes that begins with a header: its TYPE, the packet, and the bytes after it; none
while it is incomplete. -/
def readPacket (bs : List Byte) : Option (Nat × Packet × List Byte) :=
  let h : BitVec 192 := BitVec.ofNat 192 (natOf (bs.take 24))
  let ty := (h.extractLsb' 0 4).toNat
  let mask : BitVec 64 := if ty = 9 then BitVec.ofNat 64 (natOf ((bs.drop 24).take 8)) else 0
  let members := (maskMembers mask).length
  let ext := if ty = 9 then 8 + 4 * members else 0
  let len := (h.extractLsb' 52 9).toNat
  if bs.length < 24 + (if ty = 9 then 8 else 0) || bs.length < 24 + ext + len then none
  else some (ty, { headerPacket h with
    mask := mask
    coins := (List.range members).map fun i => BitVec.ofNat 32 (natOf ((bs.drop (32 + 4 * i)).take 4))
    data := (bs.drop (24 + ext)).take len }, bs.drop (24 + ext + len))

/-! ## Flits (R352) -/

/-- One byte of the CRC-32 of R352. The spec gives its polynomial, initial value and final XOR and no order of the
bits; the model takes the order of IEEE 802.3, low bit first (PRESUMED, log entry 96). -/
def crcByte (c : BitVec 32) (b : Byte) : BitVec 32 :=
  (List.range 8).foldl (fun c _ => if c.getLsbD 0 then (c >>> 1) ^^^ 0xEDB88320 else c >>> 1) (c ^^^ b.setWidth 32)

def crc32 (bs : List Byte) : BitVec 32 := bs.foldl crcByte 0xFFFFFFFF ^^^ 0xFFFFFFFF

/-- A flit of a BODY and a control word, with its CRC. -/
def flitBits (body : BitVec 1984) (ctl : BitVec 32) : BitVec 2048 :=
  let low : BitVec 2016 := ctl ++ body
  crc32 (bytesOf low.toNat 252) ++ low

def flitCtl (seq ack : BitVec 12) (nak : Bool) (cvc : BitVec 3) (ccnt : BitVec 4) : BitVec 32 :=
  ccnt ++ (cvc ++ (BitVec.ofBool nak ++ (ack ++ seq)))

end Sys2Proof.Machine

namespace Sys2Proof

def Flit.body (x : Flit) : BitVec 1984 := x.bits.extractLsb' 0 1984
def Flit.seq (x : Flit) : BitVec 12 := x.bits.extractLsb' 1984 12
def Flit.ackseq (x : Flit) : BitVec 12 := x.bits.extractLsb' 1996 12
def Flit.nak (x : Flit) : Bool := x.bits.getLsbD 2008
def Flit.cvc (x : Flit) : BitVec 3 := x.bits.extractLsb' 2009 3
def Flit.ccnt (x : Flit) : BitVec 4 := x.bits.extractLsb' 2012 4
/-- The flit passes its FEC and its CRC (R355). -/
def Flit.ok (x : Flit) : Bool :=
  x.fecOk && x.bits.extractLsb' 2016 32 = Machine.crc32 (Machine.bytesOf (x.bits.extractLsb' 0 2016).toNat 252)

end Sys2Proof

namespace Sys2Proof.Machine

/-- The flits of a link leave while it is up; in training they carry the packets of R462, which take no credits. -/
def Link.flows (l : Link) : Bool := (l.st = 3 && !l.resetting) || ((l.st = 2 || l.st = 4) && l.myNonce.isSome)

/-- The first `n` bytes of the packets on their way into flits, the packets whose last byte is among them, and the rest. -/
def takeBytes : Nat → List (PacketType × Packet × List Byte) →
    List Byte × List (PacketType × Packet) × List (PacketType × Packet × List Byte)
  | _, [] => ([], [], [])
  | n, (ty, p, bs) :: rest =>
    if bs.length ≤ n then
      let r := takeBytes (n - bs.length) rest
      (bs ++ r.1, (ty, p) :: r.2.1, r.2.2)
    else (bs.take n, [], (ty, p, bs.drop n) :: rest)

/-- The next flit of link `k` leaves: its BODY holds the next bytes of the packets, then idle bytes; its control word the
next expected SEQ, a NAK that is due, and credits of one virtual channel that wait to return (R352, R354, R355, R359). -/
def State.sendFlit (s : State) (k : Nat) : State :=
  let l := s.link k
  let (bs, ends, rest) := takeBytes 248 l.txq
  let body : BitVec 1984 := BitVec.ofNat 1984 (natOf bs)
  let (cvc, n) := l.owed.head?.getD (0, 0)
  let c := min 15 n
  let vc : BitVec 8 := match l.txq with | p :: _ => (packetVc p.1 p.2.1).setWidth 8 | [] => BitVec.ofNat 8 cvc
  let f : SentFlit := { seq := l.txseq, body := body, cvc := BitVec.ofNat 3 cvc, ccnt := BitVec.ofNat 4 c, ends := ends
                        vc := vc, resends := 0 }
  ((s.setLink k { l with
    txseq := l.txseq + 1, retry := l.retry ++ [f], txq := rest, nakDue := false
    oldestSince := if l.retry.isEmpty then s.clk.clk else l.oldestSince
    owed := Sparse.set 0 l.owed cvc (n - c) }).emit
    (.flit (BitVec.ofNat 5 k) (flitBits body (flitCtl f.seq l.rxseq l.nakDue f.cvc f.ccnt)))).count
    (.link (BitVec.ofNat 5 k)) 0x70 vc 1

/-- A new flit may leave: the link flows, and fewer than 1,024 flits are unacknowledged (R354). -/
def Link.open_ (l : Link) : Bool := l.flows && l.retry.length < 1024

/-- The link has something to send beside idle bytes: packets, credits, or a NAK. -/
def Link.wants (l : Link) : Bool := l.open_ && (!l.txq.isEmpty || !l.owed.isEmpty || l.nakDue)

/-- Flits leave link `k` while it has something to send and at most 1,024 are unacknowledged (R354). -/
def State.pump (s : State) (k : Nat) : Nat → State
  | 0 => s
  | fuel + 1 => if (s.link k).wants then (s.sendFlit k).pump k fuel else s

/-- Credits of a packet that has left the receive buffer of link `k` wait to return (R359). -/
def State.returnCredits (s : State) (k : Nat) (vc : BitVec 3) (n : Nat) : State :=
  s.modLink k fun l => { l with owed := Sparse.set 0 l.owed vc.toNat (Sparse.get 0 l.owed vc.toNat + n) }

/-! ## Packets leave (R358, R359, R367–R372) -/

/-- A packet leaves the receive buffer that holds it, and the credits of the packet that arrived there return (R359). -/
def State.leaves (s : State) (o : OutPacket) : State :=
  match o.input with
  | some j => s.returnCredits j.toNat (packetVc o.ty o.packet) o.back
  | none => s

/-- A packet takes its credits on link `k`, and its bytes follow those of the packets before it. -/
def State.sendOn (s : State) (k : Nat) (o : OutPacket) : State :=
  let p := { o.packet with vc := packetVc o.ty o.packet }
  let c := Sparse.get 0 (s.link k).credits p.vc.toNat
  let s := s.modLink k fun l => { l with
    txq := l.txq ++ [(o.ty, p, packetBytes o.ty p)]
    credits := Sparse.set 0 l.credits p.vc.toNat (c - packetCredits o.ty p) }
  s.leaves o

/-- The link has the credits of the packet (R359). In training it carries CONTROL packets without any. -/
def State.linkTakes (s : State) (k : Nat) (ty : PacketType) (p : Packet) : Bool :=
  let l := s.link k
  packetCredits ty p ≤ Sparse.get 0 l.credits (packetVc ty p).toNat || (l.st != 3 && ty = .control)

/-- The fabric halts for a destination to which no path remains (R326, R356). -/
def State.linkDead (s : State) (dst : BitVec 12) : State :=
  let k := match s.choices dst with | c :: _ => c.1 | [] => 0
  s.unitHalt 6 k 0x12 0 (BitVec.ofNat 32 k)

/-- Whether a packet type is sprayed (R358). -/
def sprayed : PacketType → Bool
  | .heartbeat => false | .control => false | .mcast => false | _ => true

/-- What a packet that waits meets: it waits on, it is lost with its last path, or it leaves on a link; a source that
sprays takes the rotation's next position with it. A device that forwards does not spray (R368). -/
inductive PathChoice where
  | wait
  | lost
  | on (k : Nat) (rot : Option Nat)
  deriving DecidableEq, Repr

/-- No choice of the destination is up: one that comes up later is waited for. -/
def State.noPath (s : State) (dst : BitVec 12) : PathChoice :=
  if (s.choices dst).any fun c => s.linkComing c.1 then .wait else .lost

/-- The I/O die of link `k` has lost its reference in its core fabric, so it forwards nothing (R59). -/
def State.coreLost (s : State) (k : Nat) : Bool := (s.island (78 + k / 10 * 11)).lost

/-- The path of a packet that waits. A heartbeat, a CONTROL packet of a link's training and a multicast copy name their
link; a copy whose link of the tree is down goes to the device at its other end by another path (R326; DEDUCED, log
entry 97). -/
def State.pathOf (s : State) (o : OutPacket) : PathChoice :=
  match o.pinned with
  | some k =>
    if (if o.ty = .control then (s.link k.toNat).flows else s.linkUp k.toNat) then .on k.toNat none
    else if o.ty != .mcast then .lost
    else if s.linkComing k.toNat then .wait
    else
      match s.firstPath o.packet.dst with
      | some j => .on j none
      | none => s.noPath o.packet.dst
  | none =>
    if sprayed o.ty && o.input.isNone && o.packet.src = s.heath.id then
      match s.sprayPath o.packet.dst with
      | some (k, r) => .on k (some r)
      | none => s.noPath o.packet.dst
    else
      match s.firstPath o.packet.dst with
      | some k =>
        if o.input.any (fun j => s.coreLost j.toNat || s.coreLost k) then .wait else .on k none
      | none => s.noPath o.packet.dst

/-- One packet that waits: it leaves, or is lost with its path, or waits on (none). A heartbeat, a CONTROL packet and a
packet of a training are dropped with their link; any other packet without a path halts the fabric (R356). -/
def State.trySend (s : State) (o : OutPacket) : Option State :=
  match s.pathOf o with
  | .wait => none
  | .lost => some ((if o.ty = .heartbeat || o.ty = .control then s else s.linkDead o.packet.dst).leaves o)
  | .on k rot =>
    if s.linkTakes k o.ty o.packet then
      let s := s.sendOn k o
      some (match rot with
        | some r => { s with heath := { s.heath with rot := Sparse.set 0 s.heath.rot o.packet.dst.toNat r } }
        | none => s)
    else none

/-- Every waiting packet that can leave leaves, in order, and the links send their flits. -/
def State.drainOut (s : State) : State :=
  let s := s.heath.outq.foldl (fun s o =>
    match s.trySend o with
    | some s' => s'
    | none => { s with heath := { s.heath with outq := s.heath.outq ++ [o] } })
    { s with heath := { s.heath with outq := [] } }
  s.heath.links.foldl (fun s l => s.pump l.1 1024) s

/-- A packet joins those that wait for a link. -/
def State.queueOut (s : State) (o : OutPacket) : State :=
  { s with heath := { s.heath with outq := s.heath.outq ++ [o] } }

/-- Packets of this device: to itself, or to those that wait for a link. -/
def State.queuePacket (s : State) (ty : PacketType) (p : Packet) : State :=
  let o : OutPacket := { ty := ty, packet := { p with src := s.heath.id }, pinned := none }
  if p.dst = s.heath.id then { s with heath := { s.heath with loopq := s.heath.loopq ++ [o] } } else s.queueOut o

/-- A packet of this device is sent. -/
def State.send (s : State) (ty : PacketType) (p : Packet) : State := (s.queuePacket ty p).drainOut

/-- A packet on a named link (R358, R363). -/
def State.sendPinned (s : State) (k : Nat) (ty : PacketType) (p : Packet) : State :=
  (s.queueOut { ty := ty, packet := { p with src := s.heath.id }, pinned := some (BitVec.ofNat 5 k) }).drainOut

/-- Bytes cut into parts of at most 256 B, with their offsets; no bytes are one empty part. -/
def cutParts (fuel o : Nat) (bs : List Byte) : List (Nat × List Byte) :=
  match fuel with
  | 0 => []
  | f + 1 => if bs.length ≤ 256 then [(o, bs)] else (o, bs.take 256) :: cutParts f (o + 256) (bs.drop 256)

/-- A steward's message to another steward, with its number, cut into CONTROL packets (R363): to a device on the first
path that is up, or to the peer of a link in training. -/
def State.sendControl (s : State) (dst : BitVec 12) (link : Option (BitVec 5)) (ckind : BitVec 8) (data : List Byte) :
    State :=
  let n := Sparse.get 0 s.heath.controlTid dst.toNat
  let ps := (cutParts (data.length + 1) 0 data).map fun x : Nat × List Byte =>
    { Packet.blank with
      dst := dst, tid := n, till := ckind.setWidth 15, value := BitVec.ofNat 32 data.length
      addr := BitVec.ofNat 48 x.1, data := x.2, last := x.1 + x.2.length = data.length }
  let s := ps.foldl (fun s p =>
    match link with
    | some k => s.queueOut { ty := .control, packet := { p with src := s.heath.id }, pinned := some k }
    | none => s.queuePacket .control p) s
  { s with heath := { s.heath with controlTid := Sparse.set 0 s.heath.controlTid dst.toNat (n + 1) } }.drainOut

/-! ## Transfers (R310) -/

/-- The packets of transfer `tid` of channel `c` are sent. -/
def State.sendTransfer (s : State) (c : Nat) (tid : BitVec 32) (ps : List (PacketType × Packet)) : State :=
  (ps.foldl (fun s p => s.queuePacket p.1 { p.2 with tid := tid, chan := BitVec.ofNat 14 c }) s).drainOut

/-- A transfer of channel `c` starts under the ID given. -/
def State.startAs (s : State) (c : Nat) (tid : BitVec 32) (t : Transfer) (ps : List (PacketType × Packet)) : State :=
  (s.modChan c fun ch => { ch with transfers := ch.transfers ++ [{ t with tid := tid }] }).sendTransfer c tid ps

/-- The next transfer ID of channel `c` is taken (R310). -/
def State.takeTid (s : State) (c : Nat) : State × BitVec 32 :=
  (s.modChan c fun ch => { ch with nextTid := ch.nextTid + 1 }, (s.chan c).nextTid)

/-- The transfer of an ID must wait: 4,096 of the channel are outstanding, or one whose ID is so far behind that the receiver's
record does not reach from it to this one (R310; DEDUCED, log entry 129). -/
def Channel.fullFor (ch : Channel) (tid : BitVec 32) : Bool :=
  4096 ≤ ch.transfers.length || ch.transfers.any fun t => 4096 ≤ (tid - t.tid).toNat

/-- A send with the next ID waits at the sending memory port (R310). -/
def Channel.full (ch : Channel) : Bool := ch.fullFor ch.nextTid

/-- A transfer starts on channel `c`: it takes its ID and its packets leave, or it waits while the channel is full. -/
def State.startTransfer (s : State) (c : Nat) (t : Transfer) (ps : List (PacketType × Packet)) : State :=
  let ch := s.chan c
  if ch.full then s.setChan c { ch with waiting := ch.waiting ++ [(t, ps)] }
  else
    let (s, tid) := s.takeTid c
    s.startAs c tid t ps

/-- A transfer of channel `c` is complete at its sender; one that waited may start. -/
def State.endTransfer (s : State) (c : Nat) (tid : BitVec 32) : State :=
  let s := s.modChan c fun ch => { ch with transfers := ch.transfers.filter fun t => t.tid != tid }
  let ch := s.chan c
  match ch.waiting with
  | [] => s
  | (t, ps) :: rest => if ch.full then s else (s.setChan c { ch with waiting := rest }).startTransfer c t ps

def State.transferOf (s : State) (c : Nat) (tid : BitVec 32) : Option Transfer :=
  (s.chan c).transfers.find? fun t => t.tid = tid

/-- The transfer has to this device's knowledge been sent or waits to be sent. -/
def Channel.unfinished (c : Channel) : Bool := !c.transfers.isEmpty || !c.waiting.isEmpty || !c.spill.isEmpty || !c.queue.isEmpty

/-- Data cut at the 256 B boundaries of their destination addresses (R360): each piece with its address. -/
def cutPackets (fuel : Nat) (a : Nat) (bs : List Byte) : List (Nat × List Byte) :=
  match fuel with
  | 0 => []
  | f + 1 =>
    let n := 256 - a % 256
    if bs.length ≤ n then [(a, bs)] else (a, bs.take n) :: cutPackets f (a + n) (bs.drop n)

end Sys2Proof.Machine
end

