-- ==== Sys2Proof/Machine/Flags.lean ====
section
/-!
DEFINITION. Numbers: the formats of R168, rounding and the exception flags of R179–R180, the output rule of R177,
the conversions of R182–R183 and the special values. A finite value is a sign, a magnitude `m` and an exponent `e`
with the value m × 2^e.
-/
namespace Sys2Proof.Machine

/-- A value of a floating-point format. -/
inductive Num where
  | nan (signalling : Bool)
  | inf (neg : Bool)
  | fin (neg : Bool) (m : Nat) (e : Int)
  deriving DecidableEq, Repr

/-- The precision and the exponent width of an IEEE format. -/
structure IeeeFmt where
  p : Nat
  w : Nat
  deriving DecidableEq, Repr

def binary32 : IeeeFmt := { p := 24, w := 8 }
def binary64 : IeeeFmt := { p := 53, w := 11 }

def IeeeFmt.bias (f : IeeeFmt) : Nat := 2 ^ (f.w - 1) - 1

/-- The exponent of the smallest subnormal. -/
def IeeeFmt.qmin (f : IeeeFmt) : Int := 2 - (f.bias : Int) - f.p

/-- The exception flags of one operation, in the order of TILE_FPFLAGS: NV, DZ, OF, UF, NX (R180). -/
abbrev FpFlags := BitVec 5

def flagNV : FpFlags := 1
def flagDZ : FpFlags := 2
def flagOF : FpFlags := 4
def flagUF : FpFlags := 8
def flagNX : FpFlags := 16

/-- A bit string of an IEEE format as a value. -/
def IeeeFmt.decode (f : IeeeFmt) (bits : Nat) : Num :=
  let frac := bits % 2 ^ (f.p - 1)
  let ex := bits / 2 ^ (f.p - 1) % 2 ^ f.w
  let neg := bits / 2 ^ (f.p - 1 + f.w) % 2 == 1
  if ex = 2 ^ f.w - 1 then
    if frac = 0 then .inf neg else .nan (frac / 2 ^ (f.p - 2) % 2 == 0)
  else if ex = 0 then .fin neg frac f.qmin
  else .fin neg (frac + 2 ^ (f.p - 1)) (f.qmin + (ex - 1 : Nat))

/-- The canonical quiet NaN (R179). -/
def IeeeFmt.qnan (f : IeeeFmt) : Nat := (2 ^ f.w - 1) * 2 ^ (f.p - 1) + 2 ^ (f.p - 2)

def IeeeFmt.signBit (f : IeeeFmt) (neg : Bool) : Nat := if neg then 2 ^ (f.p - 1 + f.w) else 0

def IeeeFmt.infBits (f : IeeeFmt) (neg : Bool) : Nat := f.signBit neg + (2 ^ f.w - 1) * 2 ^ (f.p - 1)

/-- Whether a magnitude that keeps `kept` and drops the fraction rem / 2^sh rounds up under RND (R112). -/
def roundsUp (rnd : BitVec 2) (neg : Bool) (kept rem sh : Nat) : Bool :=
  if rnd = 0 then rem * 2 > 2 ^ sh || (rem * 2 = 2 ^ sh && kept % 2 = 1)
  else if rnd = 1 then false
  else if rnd = 2 then !neg && rem != 0
  else neg && rem != 0

/-- The magnitude m × 2^e rounded to a multiple of 2^q: the integer multiple, and whether it is inexact. -/
def roundMag (rnd : BitVec 2) (neg : Bool) (m : Nat) (e q : Int) : Nat × Bool :=
  if q ≤ e then (m * 2 ^ (e - q).toNat, false)
  else
    let sh := (q - e).toNat
    let kept := m / 2 ^ sh
    let rem := m % 2 ^ sh
    (if roundsUp rnd neg kept rem sh then kept + 1 else kept, rem != 0)

/-- The exact value ±m × 2^e with m > 0, rounded once to the format under RND, with IEEE overflow, subnormal results
and the flags; tininess is detected after rounding (R179). -/
def IeeeFmt.round (f : IeeeFmt) (rnd : BitVec 2) (neg : Bool) (m : Nat) (e : Int) : Nat × FpFlags :=
  let top := e + Nat.log2 m
  let q0 := top - (f.p - 1 : Nat)
  let q := max q0 f.qmin
  let (k, inexact) := roundMag rnd neg m e q
  let mag := (q - f.qmin).toNat * 2 ^ (f.p - 1) + k
  if (2 ^ f.w - 1) * 2 ^ (f.p - 1) ≤ mag then
    let away := rnd = 0 || (rnd = 2 && !neg) || (rnd = 3 && neg)
    ((if away then f.infBits neg else f.infBits neg - 1), flagOF ||| flagNX)
  else
    let (k0, _) := roundMag rnd neg m e q0
    let tiny := q0 < f.qmin && k0 * 2 ^ (q0 - f.qmin + (f.p : Int) + 1).toNat < 2 ^ (2 * f.p)
    let fl : FpFlags := (if inexact then flagNX else 0) ||| (if inexact && tiny then flagUF else 0)
    (f.signBit neg + mag, fl)

/-- The value of a zero with a sign. -/
def IeeeFmt.zero (f : IeeeFmt) (neg : Bool) : Nat := f.signBit neg

/-- The sum of two exact values as a signed integer times a power of two. -/
def dyadicAdd (a b : Int × Int) : Int × Int :=
  let e := min a.2 b.2
  (a.1 * 2 ^ (a.2 - e).toNat + b.1 * 2 ^ (b.2 - e).toNat, e)

def signed (neg : Bool) (m : Nat) : Int := if neg then -(m : Int) else m

/-- The exact value v × 2^e rounded; an exact zero takes the sign `zneg`. -/
def IeeeFmt.roundInt (f : IeeeFmt) (rnd : BitVec 2) (v e : Int) (zneg : Bool) : Nat × FpFlags :=
  if v = 0 then (f.zero zneg, 0) else f.round rnd (v < 0) v.natAbs e

def anySnan : List Num → Bool
  | [] => false
  | .nan true :: _ => true
  | _ :: xs => anySnan xs

def anyNan : List Num → Bool
  | [] => false
  | .nan _ :: _ => true
  | _ :: xs => anyNan xs

/-- a × b + c, rounded once; `useC = false` gives the product alone (R179). -/
def IeeeFmt.fmaNum (f : IeeeFmt) (rnd : BitVec 2) (a b c : Num) (useC : Bool) : Nat × FpFlags :=
  let xs := if useC then [a, b, c] else [a, b]
  let zi : Bool := match a, b with
    | .fin _ 0 _, .inf _ => true
    | .inf _, .fin _ 0 _ => true
    | _, _ => false
  if anyNan xs || zi then (f.qnan, if anySnan xs || zi then flagNV else 0)
  else
    let pinf : Option Bool := match a, b with
      | .inf s, .inf t => some (s != t)
      | .inf s, .fin t _ _ => some (s != t)
      | .fin s _ _, .inf t => some (s != t)
      | _, _ => none
    match pinf, c, useC with
    | some s, .inf t, true => if s = t then (f.infBits s, 0) else (f.qnan, flagNV)
    | some s, _, _ => (f.infBits s, 0)
    | none, .inf t, true => (f.infBits t, 0)
    | none, _, _ =>
      match a, b, c with
      | .fin s m e, .fin t n g, .fin u k h =>
        let ps := s != t
        if useC then
          let r := dyadicAdd (signed ps (m * n), e + g) (signed u k, h)
          let bothZero := m * n = 0 && k = 0
          let zneg := if bothZero && ps = u then ps else rnd = 3
          f.roundInt rnd r.1 r.2 zneg
        else f.roundInt rnd (signed ps (m * n)) (e + g) ps
      | .fin s m e, .fin t n g, _ => f.roundInt rnd (signed (s != t) (m * n)) (e + g) (s != t)
      | _, _, _ => (f.qnan, 0)

def oneNum : Num := .fin false 1 0

def IeeeFmt.fma (f : IeeeFmt) (rnd : BitVec 2) (a b c : Nat) : Nat × FpFlags :=
  f.fmaNum rnd (f.decode a) (f.decode b) (f.decode c) true

def IeeeFmt.mul (f : IeeeFmt) (rnd : BitVec 2) (a b : Nat) : Nat × FpFlags :=
  f.fmaNum rnd (f.decode a) (f.decode b) oneNum false

def IeeeFmt.add (f : IeeeFmt) (rnd : BitVec 2) (a b : Nat) : Nat × FpFlags :=
  f.fmaNum rnd (f.decode a) oneNum (f.decode b) true

def Num.negate : Num → Num
  | .nan s => .nan s
  | .inf s => .inf (!s)
  | .fin s m e => .fin (!s) m e

def IeeeFmt.sub (f : IeeeFmt) (rnd : BitVec 2) (a b : Nat) : Nat × FpFlags :=
  f.fmaNum rnd (f.decode a) oneNum (f.decode b).negate true

/-- Whether a is greater than b, for values that are not NaN; −0 equals +0. -/
def Num.gt : Num → Num → Bool
  | .inf s, .inf t => !s && t
  | .inf s, .fin _ _ _ => !s
  | .fin _ _ _, .inf t => t
  | .fin s m e, .fin t n g => 0 < (dyadicAdd (signed s m, e) (signed (!t) n, g)).1
  | _, _ => false

def Num.neg? : Num → Bool
  | .inf s => s
  | .fin s _ _ => s
  | .nan _ => false

/-- The maximum of R179: −0 is below +0, and a NaN operand gives the canonical NaN. -/
def IeeeFmt.max (f : IeeeFmt) (a b : Nat) : Nat × FpFlags :=
  let x := f.decode a
  let y := f.decode b
  if anyNan [x, y] then (f.qnan, if anySnan [x, y] then flagNV else 0)
  else if x.gt y then (a, 0) else if y.gt x then (b, 0) else if x.neg? then (b, 0) else (a, 0)

/-- The minimum of R179. -/
def IeeeFmt.min (f : IeeeFmt) (a b : Nat) : Nat × FpFlags :=
  let x := f.decode a
  let y := f.decode b
  if anyNan [x, y] then (f.qnan, if anySnan [x, y] then flagNV else 0)
  else if x.gt y then (b, 0) else if y.gt x then (a, 0) else if x.neg? then (a, 0) else (b, 0)

def fp32One : Nat := 0x3F800000

/-- compareQuietGreater as 1.0 or 0.0 (R113, R179). -/
def fcmpGt32 (a b : Nat) : Nat × FpFlags :=
  let x := binary32.decode a
  let y := binary32.decode b
  (if x.gt y then fp32One else 0, if anySnan [x, y] then flagNV else 0)

/-- compareQuietEqual as 1.0 or 0.0 (R113, R179). -/
def fcmpEq32 (a b : Nat) : Nat × FpFlags :=
  let x := binary32.decode a
  let y := binary32.decode b
  (if !anyNan [x, y] && !x.gt y && !y.gt x then fp32One else 0, if anySnan [x, y] then flagNV else 0)

/-- convertFormat of a value that came from another format (R179, R183). -/
def IeeeFmt.convert (f : IeeeFmt) (rnd : BitVec 2) : Num → Nat × FpFlags
  | .nan s => (f.qnan, if s then flagNV else 0)
  | .inf s => (f.infBits s, 0)
  | .fin s m e => if m = 0 then (f.zero s, 0) else f.round rnd s m e

/-! ## Short formats (R168–R178) -/

/-- A short floating-point code as a value: exponent field 0 is a signed zero (R169), SF4 has no infinity or NaN,
SF8 has one pair of NaN codes, SF8W's exponent 31 is NaN, SF16 is IEEE-like above exponent 254 (R170–R176). -/
def shortDecode (fmt : BitVec 4) (c : Nat) : Num :=
  let go (w p bias : Nat) : Num :=
    let neg := c / 2 ^ (w + p) % 2 == 1
    let e := c / 2 ^ p % 2 ^ w
    let m := c % 2 ^ p
    if fmt = 2 && e = 15 && m = 7 then .nan false
    else if fmt = 3 && e = 31 then .nan false
    else if fmt = 5 && e = 255 then (if m = 0 then .inf neg else .nan false)
    else if e = 0 then .fin neg 0 0
    else .fin neg (2 ^ p + m) ((e : Int) - bias - p)
  if fmt = 0 then go 2 1 1
  else if fmt = 2 then go 4 3 7
  else if fmt = 3 then go 5 2 15
  else go 8 7 127

/-- The output rule of R177 for target format `fmt` (SF4, SF8, SF8W or SF16). -/
def shortEncode (fmt : BitVec 4) (x : Num) : Nat :=
  let go (w p : Nat) (bias : Nat) (nan maxFinite : Nat) (saturate : Bool) : Nat :=
    let sgn (neg : Bool) : Nat := if neg then 2 ^ (w + p) else 0
    match x with
    | .nan _ => nan
    | .inf s => sgn s + (if saturate then maxFinite else maxFinite + 1)
    | .fin s m e =>
      if m = 0 then sgn s
      else
        let q := e + Nat.log2 m - p
        let (k, _) := roundMag 0 s m e q
        let (k, q) := if k = 2 ^ (p + 1) then (2 ^ p, q + 1) else (k, q)
        let ef := q + p + bias
        if ef < 1 then sgn s
        else
          let code := ef.toNat * 2 ^ p + (k - 2 ^ p)
          if maxFinite < code then sgn s + (if saturate then maxFinite else maxFinite + 1) else sgn s + code
  if fmt = 0 then go 2 1 1 0 7 true
  else if fmt = 2 then go 4 3 7 0x7F 0x7E true
  else if fmt = 3 then go 5 2 15 0x7F 0x7B true
  else go 8 7 127 0x7FC0 0x7F7F false

/-- The width in bits of one element of a format (R168). -/
def fmtBits (fmt : BitVec 4) : Nat :=
  if fmt = 0 || fmt = 1 then 4
  else if fmt = 2 || fmt = 3 || fmt = 4 || fmt = 8 then 8
  else if fmt = 5 || fmt = 9 then 16
  else if fmt = 7 then 64
  else 32

def fmtIsInt (fmt : BitVec 4) : Bool := fmt = 1 || fmt = 4 || fmt = 8 || fmt = 9 || fmt = 10

/-- The least and the greatest value of an integer format (R168). -/
def intRange (fmt : BitVec 4) : Int × Int :=
  if fmt = 8 then (0, 255)
  else let n := fmtBits fmt; (-(2 ^ (n - 1) : Nat), (2 ^ (n - 1) : Nat) - 1)

/-- An integer code as its value (R178). -/
def intDecode (fmt : BitVec 4) (c : Nat) : Int :=
  let n := fmtBits fmt
  if fmt = 8 || c < 2 ^ (n - 1) then c else (c : Int) - (2 ^ n : Nat)

/-- A value rounded to an integer under RND and clamped into an integer format (R182). -/
def toIntCode (fmt : BitVec 4) (rnd : BitVec 2) (x : Num) : Nat :=
  let (lo, hi) := intRange fmt
  let v : Int := match x with
    | .nan _ => 0
    | .inf s => if s then lo else hi
    | .fin s m e => signed s (roundMag rnd s m e 0).1
  let v := if v < lo then lo else if hi < v then hi else v
  (v % (2 ^ fmtBits fmt : Nat)).toNat

/-- One FP32 lane converted by CVTN (R182). -/
def cvtnLane (fmt : BitVec 4) (rnd : BitVec 2) (x : Nat) : Nat :=
  if fmt = 6 then x
  else if fmtIsInt fmt then toIntCode fmt rnd (binary32.decode x)
  else shortEncode fmt (binary32.decode x)

/-- One element widened to FP32 by CVTW (R183). -/
def cvtwLane (fmt : BitVec 4) (c : Nat) : Nat :=
  if fmt = 6 then c
  else if fmtIsInt fmt then
    let v := intDecode fmt c
    (binary32.roundInt 0 v 0 false).1
  else (binary32.convert 0 (shortDecode fmt c)).1

/-! ## The exact accumulator (R192–R196) -/

def exaMod : Nat := 2 ^ 310

/-- One lane after an addend is added exactly (R193). -/
def exaAdd (lane : Nat) (x : Num) : Nat :=
  match x with
  | .nan _ => lane ||| 2 ^ 312
  | .inf s => lane ||| (if s then 2 ^ 311 else 2 ^ 310)
  | .fin s m e =>
    let v := lane % exaMod
    let d := m * 2 ^ (e + 149).toNat % exaMod
    let v := if s then (v + exaMod - d) % exaMod else (v + d) % exaMod
    v + lane / exaMod * exaMod

/-- The sum of two lanes (R193). -/
def exaSum (a b : Nat) : Nat :=
  (a % exaMod + b % exaMod) % exaMod + ((a / exaMod) ||| (b / exaMod)) * exaMod

/-- One lane rounded once to FP32 (R195). -/
def exaRead (rnd : BitVec 2) (lane : Nat) : Nat × FpFlags :=
  let v := lane % exaMod
  let pinf := lane / 2 ^ 310 % 2 = 1
  let ninf := lane / 2 ^ 311 % 2 = 1
  let nan := lane / 2 ^ 312 % 2 = 1
  if nan || (pinf && ninf) then (binary32.qnan, flagNV)
  else if pinf then (binary32.infBits false, 0)
  else if ninf then (binary32.infBits true, 0)
  else
    let i : Int := if v < 2 ^ 309 then v else (v : Int) - (exaMod : Int)
    binary32.roundInt rnd i (-149) false

/-! ## Transcendental operations (R214): exact special results, else a free value within its bound

The exact value |f(x)| is held as a natural number of units of 2^-640, which no bound of R214 at an FP32 operand can
tell from the exact value (log entry 4). -/

/-- Fraction bits of the exact values. -/
def fixBits : Nat := 640
def fixOne : Nat := 2 ^ fixBits
def fixMul (a b : Nat) : Nat := a * b / fixOne
def fixDiv (a b : Nat) : Nat := a * fixOne / b

/-- e^x for x below 512: the series of e^(x / 2^10), squared ten times. -/
def fixExp (x : Nat) : Nat :=
  let y := x / 2 ^ 10
  let r := (List.range 110).foldl (fun (t : Nat × Nat) n =>
    let k := fixMul t.1 y / (n + 1)
    (k, t.2 + k)) (fixOne, fixOne)
  (List.range 10).foldl (fun v _ => fixMul v v) r.2

/-- 2 artanh z for z at most 1/3. -/
def fixArtanh2 (z : Nat) : Nat :=
  let q := fixMul z z
  2 * ((List.range 210).foldl (fun (t : Nat × Nat) n => (fixMul t.1 q, t.2 + t.1 / (2 * n + 1))) (z, 0)).2

/-- ln (m × 2^e), signed, for m > 0. -/
def fixLog (m : Nat) (e : Int) : Int :=
  let l := Nat.log2 m
  let v := m * fixOne / 2 ^ l
  (e + l) * (fixArtanh2 (fixOne / 3) : Nat) + (fixArtanh2 (fixDiv (v - fixOne) (v + fixOne)) : Nat)

/-- The integer square root, bit by bit from bit `k`. -/
def fixRoot (n : Nat) : Nat → Nat → Nat
  | 0, r => r
  | k + 1, r => fixRoot n k (if (r + 2 ^ k) * (r + 2 ^ k) ≤ n then r + 2 ^ k else r)

/-- m × 2^e with e ≥ -149, but at most 256. -/
def fixOf (m : Nat) (e : Int) : Nat := min (m * 2 ^ (e + fixBits).toNat) (256 * fixOne)

/-- f(x) for x = ±m × 2^e: its sign and its magnitude. -/
def transValue (op : BitVec 8) (neg : Bool) (m : Nat) (e : Int) : Bool × Nat :=
  if op = 0x10 then
    let v := fixExp (fixOf m e)
    (false, if neg then fixOne * fixOne / v else v)
  else if op = 0x11 then
    let v := fixLog m e
    (v < 0, v.natAbs)
  else if op = 0x12 then
    let v := fixExp (2 * min (fixOf m e) (128 * fixOne))
    (neg, fixDiv (v - fixOne) (v + fixOne))
  else if op = 0x13 then
    let v := fixExp (fixOf m e)
    (false, fixDiv (if neg then fixOne else v) (v + fixOne))
  else
    (false, fixRoot (if e < 0 then fixOne * fixOne * 2 ^ (-e).toNat / m else fixOne * fixOne / (m * 2 ^ e.toNat))
      730 0)

/-- Twice the bound of R214, in units in the last place. -/
def transBound (op : BitVec 8) : Nat := if op = 0x11 then 3 else if op = 0x14 then 2 else 4

/-- The exponent of the unit in the last place of the exact value `v` (R214). -/
def transUnit (v : Nat) : Int := max ((Nat.log2 v : Int) - fixBits - 23) (-149)

/-- Whether FP32 bits lie within the bound of R214 for the exact value. -/
def transWithin (op : BitVec 8) (x : Bool × Nat) (bits : Nat) : Bool :=
  match binary32.decode bits with
  | .fin s m e =>
    let d := signed s (m * 2 ^ (e + fixBits).toNat) - signed x.1 x.2
    2 * d.natAbs ≤ transBound op * 2 ^ (transUnit x.2 + fixBits).toNat
  | _ => false

/-- The value that the last step of R215 rounds, as a mantissa and a binary exponent; it does not depend on RND. The free
value of the table stands where all four roundings of it keep the bound of R214, and a value of the model's that keeps
it stands otherwise, so that every value within the bound stands for some table and no other value does. -/
def transExact (op : BitVec 8) (x : Nat) (v : Bool × Nat) : Int × Int :=
  let free := Config.transcendental op (BitVec.ofNat 32 x)
  let keeps (rnd : BitVec 2) : Bool := transWithin op v (binary32.roundInt rnd free.1 free.2 v.1).1
  if keeps 0 && keeps 1 && keeps 2 && keeps 3 then free
  else (signed v.1 (v.2 / 2 ^ (transUnit v.2 + fixBits).toNat), transUnit v.2)

/-- Only the last step rounds under RND (R215). -/
def transFree (op : BitVec 8) (rnd : BitVec 2) (x : Nat) : Nat :=
  match binary32.decode x with
  | .fin s m e =>
    let v := transValue op s m e
    let t := transExact op x v
    (binary32.roundInt rnd t.1 t.2 v.1).1
  | _ => binary32.qnan

def trans32 (op : BitVec 8) (rnd : BitVec 2) (x : Nat) : Nat × FpFlags :=
  let free : Nat × FpFlags := (transFree op rnd x, 0)
  let mag := x % 2 ^ 31
  let neg : Bool := 2 ^ 31 ≤ x
  match binary32.decode x with
  | .nan s => (binary32.qnan, if s then flagNV else 0)
  | _ =>
    if op = 0x10 then
      if mag = 0 then (fp32One, 0)
      else if !neg && 0x42B17218 ≤ mag then (0x7F800000, 0)
      else if neg && 0x42CFF1B5 ≤ mag then (0, 0)
      else free
    else if op = 0x11 then
      if mag = 0 then (0xFF800000, flagDZ)
      else if neg then (binary32.qnan, flagNV)
      else if mag = 0x7F800000 then (0x7F800000, 0)
      else if mag = fp32One then (0, 0)
      else free
    else if op = 0x12 then
      if mag = 0 then (x, 0)
      else if 0x41102CB4 ≤ mag then (binary32.signBit neg + fp32One, 0)
      else free
    else if op = 0x13 then
      if mag = 0 then (0x3F000000, 0)
      else if mag = 0x7F800000 then (if neg then 0 else fp32One, 0)
      else free
    else
      if mag = 0 then (binary32.infBits neg, flagDZ)
      else if neg then (binary32.qnan, flagNV)
      else if mag = 0x7F800000 then (0, 0)
      else if mag = fp32One then (fp32One, 0)
      else free

end Sys2Proof.Machine
end

