-- ==== Sys2Proof/Machine/Operands.lean ====
section
/-!
DEFINITION. Operands: queue ends and their roles (R67, R68, R104–R106), lanes, address generators (R132), and the
issue of one slot of a bundle with its checks (R99, R141, R142).
-/
namespace Sys2Proof.Machine

/-! ## Queue-end numbers (R104) -/

def qeNone : BitVec 6 := 0x1F
def qeMA : BitVec 6 := 0x10
def qePQ : BitVec 6 := 0x1A

def qeIsSI (q : BitVec 6) : Bool := q.toNat < 8
def qeIsSO (q : BitVec 6) : Bool := 8 ≤ q.toNat && q.toNat < 16
def qeIsAQ (q : BitVec 6) : Bool := 0x12 ≤ q.toNat && q.toNat < 0x16
def qeIsVQ (q : BitVec 6) : Bool := 0x16 ≤ q.toNat && q.toNat < 0x1A
def qeIsFQ (q : BitVec 6) : Bool := 0x1B ≤ q.toNat && q.toNat < 0x1F
def qeIsReg (q : BitVec 6) : Bool := 0x20 ≤ q.toNat
/-- A 64 B source: SI, PQ or FQ. -/
def qeSrc64 (q : BitVec 6) : Bool := qeIsSI q || q = qePQ || qeIsFQ q
/-- A 64 B destination: SO or MA. -/
def qeDst64 (q : BitVec 6) : Bool := qeIsSO q || q = qeMA
/-- A queue end that a read pops. -/
def qePops (q : BitVec 6) : Bool := qeSrc64 q || qeIsVQ q
/-- A 512 B source of a V operation: VQ, register or accumulator bank. -/
def qeSrcV (q : BitVec 6) : Bool := qeIsVQ q || qeIsReg q || qeIsAQ q
/-- A 512 B destination of a V operation: VQ, register or NONE. -/
def qeDstV (q : BitVec 6) : Bool := qeIsVQ q || qeIsReg q || q = qeNone

/-- Entries of a popping queue end (R67). -/
def qeDepth (q : BitVec 6) : Nat :=
  let n := q.toNat
  if n < 16 then 4 else if n = 0x10 then 8 else if n = 0x11 then 16 else if n = 0x1A then 32
  else if qeIsVQ q then 8 else 64

/-! ## Lanes (R212) -/

/-- Lane `i` of 32 bits. -/
def lane32 (v : Vec) (i : Nat) : Nat := (v.extractLsb' (32 * i) 32).toNat

/-- A vector from its 32-bit lanes. -/
def vecOf32 (f : Nat → Nat) : Vec :=
  BitVec.ofNat 4096 ((List.range 128).foldr (fun i acc => f i % 2 ^ 32 + 2 ^ 32 * acc) 0)

/-- Lane `j` of 64 bits. -/
def lane64 (v : Vec) (j : Nat) : Nat := (v.extractLsb' (64 * j) 64).toNat

def vecOf64 (f : Nat → Nat) : Vec :=
  BitVec.ofNat 4096 ((List.range 64).foldr (fun i acc => f i % 2 ^ 64 + 2 ^ 64 * acc) 0)

/-- Lanes with the flags of every lane joined. -/
def lanesFlags (n : Nat) (f : Nat → Nat × FpFlags) : List Nat × FpFlags :=
  (List.range n).foldr (fun i acc => let r := f i; (r.1 :: acc.1, r.2 ||| acc.2)) ([], 0)

def vecOfList (w : Nat) (xs : List Nat) : Vec :=
  BitVec.ofNat 4096 (xs.foldr (fun x acc => x % 2 ^ w + 2 ^ w * acc) 0)

/-! ## Failures -/

def illegal (slot : Nat) : Failure := { slot := slot, reason := 7, subcode := 1, detail := BitVec.ofNat 32 slot }
def inconsistent (slot : Nat) : Failure :=
  { slot := slot, reason := 7, subcode := 2, detail := BitVec.ofNat 32 slot }
def absentUnit (slot cls idx : Nat) : Failure :=
  { slot := slot, reason := 6, subcode := 0, detail := BitVec.ofNat 32 (cls + 256 * idx) }
def escrowMisuse (slot cause : Nat) (g : BitVec 4) (bank : Nat) : Failure :=
  { slot := slot, reason := 8, subcode := 0, detail := BitVec.ofNat 32 (cause + 256 * g.toNat + 4096 * bank) }
def paramRange (slot : Nat) (p : BitVec 6) : Failure :=
  { slot := slot, reason := 0x11, subcode := 0, detail := p.setWidth 32 }
def qUnder (slot : Nat) (q : BitVec 6) : Failure :=
  { slot := slot, reason := 2, subcode := 0, detail := q.setWidth 32 }
def qOver (slot q words : Nat) : Failure :=
  { slot := slot, reason := 3, subcode := 0, detail := BitVec.ofNat 32 (q + 256 * words) }
def uncorrectable (slot sub detail : Nat) : Failure :=
  { slot := slot, reason := 0x0E, subcode := BitVec.ofNat 4 sub, detail := BitVec.ofNat 32 detail }

/-- `check b e` passes when `b` holds, and fails with `e` otherwise. -/
def check (b : Bool) (e : Failure) : Except Failure Unit := if b then .ok () else .error e

/-! ## Queue ends of a tile -/

def Tile.end64 (x : Tile) (q : BitVec 6) : List Entry := Sparse.get [] x.ends q.toNat
def Tile.setEnd64 (x : Tile) (q : BitVec 6) (es : List Entry) : Tile :=
  { x with ends := Sparse.set [] x.ends q.toNat es }
def Tile.vq (x : Tile) (q : BitVec 6) : List VEntry := Sparse.get [] x.vqs q.toNat
def Tile.setVq (x : Tile) (q : BitVec 6) (es : List VEntry) : Tile :=
  { x with vqs := Sparse.set [] x.vqs q.toNat es }
def Tile.vreg (x : Tile) (q : BitVec 6) : Vec := Sparse.get 0 x.vec.vregs (q.toNat - 0x20)

/-! ## The tile's own stores (R202, R223, R226) -/

/-- The key of entry `n` of a store of class `c`, as HALT subcodes number them: 2 an operand-cache line, 3 a vector
register, 4 a bundle, 6 a weight buffer (0, 1) or an accumulator bank (2 + n), and 0 a stamp of a line. -/
def markKey (c n : Nat) : Nat := 65536 * c + n

/-- What the codewords of an entry hold: 0 no error, 1 a correctable one, 2 an uncorrectable one. -/
def Tile.mark (x : Tile) (c n : Nat) : BitVec 2 := Sparse.get 0 x.marks (markKey c n)

/-- A whole write of the entry makes its codewords clean. -/
def Tile.clean (x : Tile) (c n : Nat) : Tile := { x with marks := Sparse.erase (markKey c n) x.marks }

/-- A read of an entry: a correctable error is corrected on the way and counted, an uncorrectable one halts (R202). -/
def Tile.readMark (x : Tile) (c n slot detail : Nat) : Except Failure Tile :=
  if x.mark c n = 2 then .error (uncorrectable slot c detail)
  else .ok (if x.mark c n = 1 then x.count 0x08 1 else x)

def Tile.setVreg (x : Tile) (q : BitVec 6) (v : Vec) : Tile :=
  { x with vec := { x.vec with vregs := Sparse.set 0 x.vec.vregs (q.toNat - 0x20) v } }.clean 3 (q.toNat - 0x20)

/-- The bundle of the tile in cycle `c`, if it has one. -/
def Tile.bundleIn (x : Tile) (c : Scc) : Option Bundle := x.bundle.filter fun b => b.cyc = c

def Tile.modBundle (x : Tile) (f : Bundle → Bundle) : Tile := { x with bundle := x.bundle.map f }

def Tile.popped (x : Tile) (q : BitVec 6) : Bool := x.bundle.any fun b => b.pops.contains q.toNat
def Tile.pushed (x : Tile) (q : BitVec 6) : Bool := x.bundle.any fun b => b.pushes.contains q.toNat

/-- A word leaves its end: its codewords are corrected and counted (R202, R224). -/
def Tile.popMark (x : Tile) (m : BitVec 2) : Tile := if m = 1 then x.count 0x08 1 else x

/-- A pop of a 64 B queue end in cycle `now` (R68, R69, R105): only a word pushed in an earlier cycle. -/
def Tile.pop64 (x : Tile) (now : Scc) (slot : Nat) (q : BitVec 6) : Except Failure (Line × Tile) :=
  if x.popped q then .error (inconsistent slot)
  else
    match x.end64 q with
    | [] => .error (qUnder slot q)
    | e :: es =>
      if e.cyc = now then .error (qUnder slot q)
      else if e.mark = 2 then .error (uncorrectable slot 5 q.toNat)
      else .ok (e.data, ((x.setEnd64 q es).popMark e.mark).modBundle fun b => { b with pops := q.toNat :: b.pops })

/-- A pop of a VQ end (R68, R69, R105). -/
def Tile.popV (x : Tile) (now : Scc) (slot : Nat) (q : BitVec 6) : Except Failure (Vec × Tile) :=
  if x.popped q then .error (inconsistent slot)
  else
    match x.vq q with
    | [] => .error (qUnder slot q)
    | e :: es =>
      if e.cyc = now then .error (qUnder slot q)
      else if e.mark = 2 then .error (uncorrectable slot 5 q.toNat)
      else .ok (e.data, ((x.setVq q es).popMark e.mark).modBundle fun b => { b with pops := q.toNat :: b.pops })

/-- The checks on the popping ends of one operation, in the order of R142: no end popped twice, then none empty. Of several
empty ends Q_UNDER names the first in the order of SRCA, SRCB, SRCC (DESIGN CHOICE, log entry 125). -/
def Tile.endsReady (x : Tile) (now : Scc) (slot : Nat) (qs : List (BitVec 6)) : Except Failure Unit :=
  if qs.any x.popped then .error (inconsistent slot)
  else
    match qs.find? fun q => if qeIsVQ q then ((x.vq q).head?.all fun e => e.cyc = now)
        else ((x.end64 q).head?.all fun e => e.cyc = now) with
    | some q => .error (qUnder slot q)
    | none => .ok ()

/-- A bundle pushes each queue end at most once, whatever slots push and whenever their words arrive (R105). -/
def Tile.claimPush (x : Tile) (slot : Nat) (q : BitVec 6) : Except Failure Tile :=
  if qeIsReg q || q = qeNone then .ok x
  else if x.pushed q then .error (inconsistent slot)
  else .ok (x.modBundle fun b => { b with pushes := q.toNat :: b.pushes })

/-- The index of the bundle that the tile issues, 0 when it issues none. -/
def Tile.iaddr (x : Tile) : BitVec 11 := match x.bundle with | some b => b.iaddr | none => 0

/-- A failure that the tile detects in this cycle and that leaves the other slots of its bundle their effects: a stamp
(R74, R75) or a clash on a track (R13). -/
def Tile.softFail (x : Tile) (now : Scc) (f : Failure) : Tile :=
  { x with pad := { x.pad with fails := x.pad.fails ++
    [{ cyc := now, iaddr := x.iaddr, slot := f.slot, reason := f.reason, subcode := f.subcode, detail := f.detail }] } }

/-- A result or a word reaches its queue end or register in this cycle, and enters it at the end of the cycle (R68,
R107, R115). -/
def Tile.arrive (x : Tile) (r : Result) : Tile := { x with arrived := x.arrived ++ [r] }

/-- The word of a scheduled push that the issuing bundle has claimed (R69). -/
def Tile.put64 (x : Tile) (now : Scc) (slot : Nat) (q : BitVec 6) (v : Line) (mark : BitVec 2 := 0) : Tile :=
  x.arrive { dst := q, data := v.setWidth 4096, due := now, issued := now, iaddr := x.iaddr, slot := slot, flags := 0,
             mark := mark }

/-! ## What arrives at the end of a cycle (R69, R115, R180, R208, R210) -/

/-- The later-issued of two results; of two of one bundle, the one of the L slot (R115, R210). -/
def Result.later (a b : Result) : Result :=
  if a.issued = b.issued then (if b.slot ≤ a.slot then a else b) else if sccGe a.issued b.issued then a else b

/-- The tile with the flags of a completed result raised (R180). -/
def Tile.raise (x : Tile) (fl : BitVec 13) : Tile := { x with vec := { x.vec with fpflags := x.vec.fpflags ||| fl } }

/-- One result enters its end or register: a word for an end that is full after the cycle's pops is discarded with
Q_OVER (R69). -/
def Tile.enter (x : Tile) (now : Scc) (r : Result) : Tile × Option Failure :=
  let y := x.raise r.flags
  if r.dst = qeNone then (y, none)
  else if qeIsReg r.dst then (y.setVreg r.dst r.data, none)
  else if qeIsVQ r.dst then
    let es := x.vq r.dst
    if qeDepth r.dst ≤ es.length then (y, some (qOver r.slot r.dst.toNat es.length))
    else (y.setVq r.dst (es ++ [{ data := r.data, cyc := now, mark := r.mark }]), none)
  else
    let es := x.end64 r.dst
    if qeDepth r.dst ≤ es.length then (y, some (qOver r.slot r.dst.toNat es.length))
    else (y.setEnd64 r.dst (es ++ [{ data := r.data.setWidth 512, cyc := now, mark := r.mark }]), none)

/-- The results of the cycle for one destination: a single one enters; two or more at one end or register enter none
and raise no flag, and the later-issued one is inconsistent. -/
def Tile.enterDst (x : Tile) (now : Scc) (dst : BitVec 6) (rs : List Result) : Tile × Option (BitVec 11 × Failure) :=
  match rs with
  | [] => (x, none)
  | [r] => let y := x.enter now r; (y.1, y.2.map fun f => (r.iaddr, f))
  | r :: r' :: rest =>
    if dst = qeNone then (rs.foldl (fun y z => y.raise z.flags) x, none)
    else
      let w := (r' :: rest).foldl Result.later r
      (x, some (w.iaddr, inconsistent w.slot))

/-- Everything that arrived in the cycle enters: the tile, and the failures with their bundles. -/
def Tile.enterAll (x : Tile) (now : Scc) : Tile × List (BitVec 11 × Failure) :=
  ((x.arrived.map fun r => r.dst).dedup).foldl
    (fun acc q =>
      let y := acc.1.enterDst now q (x.arrived.filter fun r => r.dst = q)
      (y.1, acc.2 ++ y.2.toList))
    ({ x with arrived := [] }, [])

/-! ## Accumulator banks (R205–R207) -/

/-- The contents of a bank as an operation that issues in cycle `now` reads them: the latest settle at or before
cycle now − 2 (R206), which is the newest that is not of cycle now − 1 or now. -/
def bankAt (now : Scc) : List BankVal → BankVal
  | [] => {}
  | b :: bs => if b.since = now || b.since = now - 1 then bankAt now bs else b

/-- Lane `i` of the read of a bank (R207). -/
def BankVal.read (b : BankVal) : Vec :=
  if b.cls = 0 then 0
  else if b.cls = 2 then
    vecOf32 fun i =>
      let v := (b.val.extractLsb' (48 * i) 48).toInt
      let v := if v < -(2 ^ 31) then -(2 ^ 31) else if 2 ^ 31 - 1 < v then 2 ^ 31 - 1 else v
      (v % 2 ^ 32).toNat
  else b.val.setWidth 4096

def Tile.bankVals (x : Tile) (b : Nat) : List BankVal := Sparse.get [] x.mx.banks b

/-- A 512 B source of a V operation: a pop of a VQ, or a read of a register or a bank (R104, R106, R113). The detail of
an uncorrectable error names a bank by its queue-end number and a register by its number; R96 says only 'the entry'
(DESIGN CHOICE, log entry 88). -/
def Tile.readV (x : Tile) (now : Scc) (slot : Nat) (q : BitVec 6) : Except Failure (Vec × Tile) :=
  if qeIsVQ q then x.popV now slot q
  else if qeIsAQ q then do
    let y ← x.readMark 6 (2 + (q.toNat - 0x12)) slot q.toNat
    .ok ((bankAt now (x.bankVals (q.toNat - 0x12))).read, y)
  else do
    let y ← x.readMark 3 (q.toNat - 0x20) slot (q.toNat - 0x20)
    .ok (x.vreg q, y)

/-! ## Address generators and parameters (R132–R135) -/

def Tile.agWord (x : Tile) (g w : Nat) : BitVec 32 := Sparse.get 0 x.seq.ag (8 * g + w)
def Tile.loop (x : Tile) (k : Nat) : Loop := Sparse.get {} x.seq.loops k
def Tile.setLoop (x : Tile) (k : Nat) (l : Loop) : Tile :=
  { x with seq := { x.seq with loops := Sparse.set {} x.seq.loops k l } }
def Tile.param (x : Tile) (n : BitVec 6) : BitVec 32 := Sparse.get 0 x.seq.param n.toNat

/-- The index of a level; that of an inactive level is 0 (R132). -/
def Tile.loopIndex (x : Tile) (k : Nat) : Nat := if (x.loop k).active then (x.loop k).index.toNat else 0

/-- The address of AG_g with offset OFF (R132). -/
def Tile.agAddr (x : Tile) (g : BitVec 4) (off : BitVec 12) : BitVec 32 :=
  (List.range 6).foldl
    (fun a k => a + BitVec.ofNat 32 (x.loopIndex k) * x.agWord g.toNat (k + 1))
    (x.agWord g.toNat 0 + off.setWidth 32 * 64)

/-! ## Issue -/

/-- What the checks of a bundle read beside the tile: the cycle, the tile's number, the grade, the image's
declaration of escrow, the field's maps, the reconfiguration window, and the fallow masks that drains bring into
force with the cycles of their effect (R86, R234). -/
structure IssueEnv where
  now : Scc
  tile : Nat
  grade : BitVec 2
  escrow : Bool
  field : Field
  window : Bool
  masks : List (Scc × BitVec 16)
  deriving DecidableEq, Repr

/-- The fallow mask of tile `t` in spine configuration set `k` (R18, R234). -/
def Field.fallowMask (f : Field) (k : BitVec 4) (t : Nat) : BitVec 16 :=
  Sparse.get 0 f.fset (1024 * k.toNat + 640 + 8 * tileRow t + tileCol t)

/-- The bit of UNITS in the loaded image's requirements record (R165). -/
def Program.unitBit (p : Program) (k : Nat) : Bool := p.req.getLsbD (64 + k)
def Program.genCheck (p : Program) : Bool := p.req.getLsbD 96

/-- The fallow masks of tile `t` that drains have named and that come into force in cycle D + 32 or have just done so
(R86, R234). -/
def State.masksOf (s : State) (t : Nat) : List (Scc × BitVec 16) :=
  (s.fab.drains.filter fun d => sccGe (d.cyc + 33) s.fab.scc).filterMap fun d =>
    d.set.map fun k => (d.cyc + 32, (s.field (tileField t)).fallowMask k t)

def State.issueEnv (s : State) (t : Nat) : IssueEnv :=
  { now := s.fab.scc
    tile := t
    grade := s.grade
    escrow := s.stew.program.digest.isSome && s.stew.program.unitBit 2
    field := s.field (tileField t)
    window := s.fab.drains.any fun d => d.set.isSome && sccGe s.fab.scc d.cyc && !sccGe s.fab.scc (d.cyc + 32)
    masks := s.masksOf t }

/-- The tile is in an open group and past its EOPEN cycle, so its work is speculative (R334). -/
def Tile.speculative (x : Tile) (now : Scc) : Bool :=
  match x.esc.openedAt with
  | some o => o != now
  | none => false

/-- The tile issues a bundle in cycle `now` (R99, R126, R137). -/
def Tile.issues (x : Tile) (now : Scc) : Bool :=
  x.seq.run && !x.seq.ended && !x.seq.idling && x.seq.resumeAt != some (now + 1) && !x.seq.stopped

/-- The tile's state with the bundle of cycle `now` open: its PC moves on (R99). -/
def Tile.openBundle (x : Tile) (now : Scc) : Tile :=
  if (x.bundleIn now).isSome then x
  else
    let x := { x with
      bundle := some
        { cyc := now, iaddr := x.seq.pc
          active := (List.range 6).foldl (fun m k => if (x.loop k).active then m ||| (1 <<< k) else m) 0 }
      seq := { x.seq with pc := x.seq.pc + 1, resumeAt := none } }
    (x.popMark (x.mark 4 x.iaddr.toNat)).count 0x01 1

/-- A slot of the bundle is free (each slot issues at most one operation; the S slot two sub-operations). -/
def Tile.slotFree (x : Tile) (slot : Nat) : Bool :=
  match x.bundle with
  | some b => !b.closed && (if slot = 3 then b.sop < 2 else !b.used.contains slot)
  | none => true

def Tile.useSlot (x : Tile) (slot : Nat) : Tile :=
  x.modBundle fun b => { b with used := slot :: b.used, sop := if slot = 3 then b.sop + 1 else b.sop,
                                lop := b.lop || slot = 2, mvop := if slot < 2 then b.mvop + 1 else b.mvop }

/-- The halt of a bundle that fails a check at issue: none of its slots takes effect and the tile issues nothing
further (R90, R142). `work` is the tile as the other slots left it, for the further checks of the bundle; the PC stays
at the bundle's index. -/
def State.failIssue (s : State) (t : Nat) (work : Tile) (f : Failure) : State :=
  let saved := (Sparse.find? t s.fab.saves).getD (s.tile t)
  let ia := match work.bundle with | some b => b.iaddr | none => saved.seq.pc
  let s := { s with fab := { s.fab with trials := Sparse.put t work s.fab.trials } }
  let s := s.setTile t { saved with
    seq := { saved.seq with stopped := true }
    req := (s.tile t).req
    bundle := work.bundle.map fun b => { b with closed := true, agw := none } }
  s.tileHalt t s.fab.scc ia f

/-- The halts of a tile's failures. -/
def State.raiseFails (s : State) (t : Nat) : List LateFail → State
  | [] => s
  | f :: fs =>
    (s.tileHalt t f.cyc f.iaddr { slot := f.slot, reason := f.reason, subcode := f.subcode, detail := f.detail }
      ).raiseFails t fs

/-- The ends that a V slot names. -/
def vUses (v : VSlot) (b : Bundle) : Bundle :=
  { b with pops := [v.srcA.toNat, if v.bp then 0x1F else v.srcB.toNat, v.srcC.toNat] ++ b.pops
           pushes := v.dst.toNat :: b.pushes }

/-- The end that a reading or a storing L slot names. -/
def lUses (l : LSlot) (store : Bool) (b : Bundle) : Bundle :=
  if store then { b with pops := l.qe.toNat :: b.pops } else { b with pushes := l.qe.toNat :: b.pushes }

/-- The tile keeps the state it had before its first slot of the cycle, for a check that fails (R142). -/
def State.openSlot (s : State) (n : Nat) : State :=
  if ((s.tile n).bundleIn s.fab.scc).isSome then s
  else { s with fab := { s.fab with saves := Sparse.put n (s.tile n) s.fab.saves } }

/-- The tile as a slot of the current bundle finds it. -/
def State.slotTile (s : State) (n slot : Nat) : Tile := ((s.tile n).openBundle s.fab.scc).useSlot slot

/-- The tile without the failures that it detected in cycle `now`. -/
def Tile.quietFails (x : Tile) (now : Scc) : Tile :=
  { x with pad := { x.pad with fails := x.pad.fails.filter fun f => f.cyc != now } }

/-- The failures that the tile detected in cycle `now`. -/
def Tile.failsOf (x : Tile) (now : Scc) : List LateFail := x.pad.fails.filter fun f => f.cyc = now

/-- A slot operation has passed its checks: the tile takes its effects, and the failures that it detected in this
cycle are raised. -/
def State.endSlot (s : State) (n : Nat) (y : Tile) : State :=
  (s.setTile n (y.quietFails s.fab.scc)).raiseFails n (y.failsOf s.fab.scc)

/-- A further slot of a bundle that has failed a check passes its own: it takes no effect, and what it detects joins
the tile's one request of the cycle (R142). -/
def State.endTrial (s : State) (n : Nat) (w : Tile) : State :=
  { s with fab := { s.fab with trials := Sparse.put n (w.quietFails s.fab.scc) s.fab.trials } }.raiseFails n
    (w.failsOf s.fab.scc)

/-- One slot operation of tile `t`: `body` holds its checks and its effects, all of them in the tile (R141, R142).
It happens only in a running cycle, at a tile that issues, in a slot that the bundle has not used. After a failure,
`uses` marks what the operation names, for the further checks of the bundle. -/
def State.issue (s : State) (t : TileNo) (slot : Nat) (body : IssueEnv → Tile → Except Failure Tile)
    (uses : Bundle → Bundle := id) : State :=
  let n := t.toNat
  let x := s.tile n
  if !s.running || !tileIn s.grade n then s
  else if x.seq.stopped then
    match Sparse.find? n s.fab.trials with
    | some w =>
      if (w.bundleIn s.fab.scc).isSome && w.slotFree slot then
        let w := w.useSlot slot
        match body (s.issueEnv n) w with
        | .ok w' => s.endTrial n w'
        | .error f => s.failIssue n (w.modBundle uses) f
      else s
    | none => s
  else if (x.bundleIn s.fab.scc).isNone && !x.issues s.fab.scc then s
  else if !(x.openBundle s.fab.scc).slotFree slot then s.openSlot n
  else
    let y := s.slotTile n slot
    if y.mark 4 y.iaddr.toNat = 2 then
      (s.openSlot n).failIssue n (y.modBundle uses) (uncorrectable slot 4 y.iaddr.toNat)
    else
      match body (s.issueEnv n) y with
      | .ok y' => (s.openSlot n).endSlot n y'
      | .error f => (s.openSlot n).failIssue n (y.modBundle uses) f

end Sys2Proof.Machine
end

