-- ==== Sys2Proof/Machine/Scratch.lean ====
section
/-!
DEFINITION. The scratchpad slice (R116–R119, R160, R221–R238, R548): scheduled accesses, their samples and landings,
the redirections of escrow (R232, R233), the grants to unscheduled agents and the scrubber.
-/
namespace Sys2Proof.Machine

/-! ## Banks and lines (R221, R222) -/

def padBank (a : Nat) : Nat := a / 64 % 16
def padLineInBank (a : Nat) : Nat := a / 1024

/-- The banks that an access at `a` touches, as a mask. -/
def padBanks (wide : Bool) (a : Nat) : BitVec 16 :=
  if wide then (if a / 512 % 2 = 0 then 0x00FF else 0xFF00) else BitVec.ofNat 16 (2 ^ padBank a)

/-- The first bank of an access, and how many consecutive banks it touches. -/
def padBankList (wide : Bool) (a : Nat) : List Nat :=
  if wide then (List.range 8).map (padBank a + ·) else [padBank a]

/-- An address-generator result with the bits that R118 clears at zero. -/
def padAlign (wide : Bool) (a : BitVec 32) : Nat := if wide then a.toNat / 512 * 512 else a.toNat / 64 * 64

/-- Whether bank `b` is fallow or still waking in cycle `cy` (R234–R236), the masks that drains bring into force by then
included. -/
def Tile.bankDead (x : Tile) (masks : List (Scc × BitVec 16)) (cy : Scc) (b : Nat) : Bool :=
  x.pad.fallow.getLsbD b
    || (x.pad.waking.getLsbD b && !(match Sparse.find? b x.pad.wakeAt with
      | some w => sccGe cy w
      | none => false))
    || masks.any fun m => sccGe cy m.1 && m.2.getLsbD b

/-- The last escrow-area line of R232 starts here. -/
def escrowBase : Nat := 0x130000
def padTop : Nat := 0x140000

/-- Escrow checks of a scheduled access (R232, R339). A tile in no open group reports cause 1 under group 0; the spec
names no group there (DESIGN CHOICE, log entry 91). -/
def escrowCheck (e : IssueEnv) (x : Tile) (a : Nat) : Except Failure Unit := do
  let inSwap := x.esc.committed && (match x.esc.resolvedAt with
    | some r => sccGe e.now (r + 1) && !sccGe e.now (r + 5)
    | none => false)
  check (!(e.escrow && escrowBase ≤ a && a < padTop))
    (escrowMisuse 2 1 (if x.esc.openedAt.isSome then x.esc.group else 0) 0)
  check (!inSwap) (escrowMisuse 2 8 x.esc.group 0)

/-- An L-slot address past the slice that falls in the scratchpad window of a tile of an absent field (R32, R167). -/
def padAbsent (e : IssueEnv) (a : Nat) : Except Failure Unit :=
  if a < padTop then .ok ()
  else
    match place e.grade true (padAddr e.tile a) with
    | .absentTile f => .error (absentUnit 2 1 f)
    | _ => .ok ()

/-- Hole, fallow-bank and bank-clash checks of a scheduled access (R118, R228, R236). An eight-line access that meets
several fallow, waking or clashing banks names the lowest; the spec does not say which (DESIGN CHOICE, log entry 92). -/
def bankCheck (e : IssueEnv) (x : Tile) (write wide : Bool) (a : Nat) : Except Failure Unit := do
  check (a < padTop)
    { slot := 2, reason := 7, subcode := 0, detail := BitVec.ofNat 32 (padAddr e.tile a) }
  let cy := if write then e.now + 2 else e.now + 1
  match (padBankList wide a).find? fun b => x.bankDead e.masks cy b with
  | some b => .error { slot := 2, reason := 0x0C, subcode := 0, detail := BitVec.ofNat 32 (b + if write then 0 else 16) }
  | none =>
    let hist := if write then x.pad.writeHist else x.pad.readHist
    let busy : BitVec 16 := hist.foldl (fun m h => if h.1 = e.now - 1 then m ||| h.2 else m) 0
    match (padBankList wide a).find? fun b => busy.getLsbD b with
    | some b => .error { slot := 2, reason := 4, subcode := 0,
                         detail := BitVec.ofNat 32 (b + padLineInBank a * 16 + 2 * 2 ^ 16 + 2 * 2 ^ 19) }
    | none => .ok ()

/-- A tile that has issued a scheduled access of the banks of `a` in cycle `now`. -/
def Tile.noteAccess (x : Tile) (now : Scc) (write wide : Bool) (a : Nat) : Tile :=
  let h := (now, padBanks wide a)
  { x with pad := if write then { x.pad with writeHist := (h :: x.pad.writeHist).take 4 }
                  else { x.pad with readHist := (h :: x.pad.readHist).take 4 } }

/-! ## Redirection (R233) -/

/-- The escrow line number `k` of bank `b`, as a line number of the slice. -/
def escrowLine (k b : Nat) : Nat := (1216 + k) * 16 + b

/-- The escrow line that home line `n` has, whether or not a write of it has landed. -/
def Tile.escrowOf (x : Tile) (n : Nat) : Option Nat :=
  (Sparse.find? n x.esc.redirects).orElse fun _ => Sparse.find? n x.esc.reserved

/-- An escrow line for home line `n` of a speculative write: the one it has, or the first free one of its bank, which
stands for the home line once the write lands; none when the bank's 64 lines are taken. -/
def Tile.redirect (x : Tile) (n : Nat) : Option Tile :=
  match x.escrowOf n with
  | some _ => some x
  | none =>
    let taken := (x.esc.redirects ++ x.esc.reserved).map Prod.snd
    match (List.range 64).find? fun k => !taken.contains (escrowLine k (n % 16)) with
    | some k => some { x with esc := { x.esc with reserved := Sparse.put n (escrowLine k (n % 16)) x.esc.reserved } }
    | none => none

/-- Redirects every line of a speculative write. -/
def Tile.redirectAll (x : Tile) (g : BitVec 4) : List Nat → Except Failure Tile
  | [] => .ok x
  | n :: ns =>
    match x.redirect n with
    | some y => y.redirectAll g ns
    | none => .error (escrowMisuse 2 2 g (n % 16))

/-- The line numbers of an access at `a`. -/
def padLines (wide : Bool) (a : Nat) : List Nat :=
  if wide then (List.range 8).map (a / 64 + ·) else [a / 64]

/-- The line that a scheduled read of home line `n` returns (R233). -/
def Tile.readLine (x : Tile) (n : Nat) : Nat := (Sparse.find? n x.esc.redirects).getD n

/-! ## Scheduled accesses -/

/-- CHK is legal only in checked reads of an image that enables the generation check (R160). -/
def chkOk (l : LSlot) (x : Tile) (readOp : Bool) : Bool := !l.chk || (readOp && x.seq.genEn)

/-- LD, LDV and OCW: the read of one line or eight, whose sample falls in the next cycle (R227). -/
def readIssue (wide oc : Bool) (role : BitVec 6 → Bool) (l : LSlot) (e : IssueEnv) (x : Tile) : Except Failure Tile := do
  check (l.rsv = 0 && role l.qe && (oc || (l.ag2 = 0 && l.off2 = 0)) && chkOk l x true) (illegal 2)
  let a := padAlign wide (x.agAddr l.ag l.off)
  padAbsent e a
  let x ← x.claimPush 2 l.qe
  escrowCheck e x a
  bankCheck e x false wide a
  let line : Option (BitVec 7) :=
    if oc then some (BitVec.ofNat 7 ((x.agAddr l.ag2 l.off2).toNat % 65536 / 512)) else none
  let x := (x.noteAccess e.now false wide a).count 0x06 1
  .ok { x with pad := { x.pad with reads := x.pad.reads ++
    [{ addr := BitVec.ofNat 21 a, wide := wide, oc := line, dst := l.qe, chk := l.chk, issued := e.now, iaddr := x.iaddr }] } }

/-- ST and STV: the write of one line or eight, which lands at the end of issue + 2 (R227). -/
def writeIssue (wide : Bool) (role : BitVec 6 → Bool) (l : LSlot) (e : IssueEnv) (x : Tile) : Except Failure Tile := do
  check (l.rsv = 0 && role l.qe && l.ag2 = 0 && l.off2 = 0 && !l.chk) (illegal 2)
  let a := padAlign wide (x.agAddr l.ag l.off)
  padAbsent e a
  check (!(qePops l.qe && x.popped l.qe)) (inconsistent 2)
  escrowCheck e x a
  let spec := x.speculative e.now
  let y ← if spec && a < padTop then x.redirectAll x.esc.group (padLines wide a) else .ok x
  y.endsReady e.now 2 ([l.qe].filter qePops)
  bankCheck e y true wide a
  let (d, y) ←
    if wide then
      (if qeIsVQ l.qe then y.popV e.now 2 l.qe
       else do
         let y ← y.readMark 3 (l.qe.toNat - 0x20) 2 (l.qe.toNat - 0x20)
         .ok (y.vreg l.qe, y))
    else do
      let (w, y) ← y.pop64 e.now 2 l.qe
      .ok (w.setWidth 4096, y)
  let y := (y.noteAccess e.now true wide a).count 0x06 1
  .ok { y with pad := { y.pad with writes := y.pad.writes ++
    [{ addr := BitVec.ofNat 21 a, wide := wide, data := d, due := e.now + 2, gen := y.seq.gen, spec := spec }] } }

/-- R117: LD pushes to an SO or MA end. -/
def execLd (t : TileNo) (l : LSlot) (s : State) : Answer := .next (s.issue t 2 (readIssue false false qeDst64 l) (lUses l false))
/-- R117: ST pops an SI, PQ or FQ end. -/
def execSt (t : TileNo) (l : LSlot) (s : State) : Answer := .next (s.issue t 2 (writeIssue false qeSrc64 l) (lUses l true))
/-- R117: LDV pushes to a VQ or a vector register. -/
def execLdv (t : TileNo) (l : LSlot) (s : State) : Answer :=
  .next (s.issue t 2 (readIssue true false (fun q => qeIsVQ q || qeIsReg q) l) (lUses l false))
/-- R117: STV pops a VQ or reads a vector register. -/
def execStv (t : TileNo) (l : LSlot) (s : State) : Answer :=
  .next (s.issue t 2 (writeIssue true (fun q => qeIsVQ q || qeIsReg q) l) (lUses l true))
/-- R117, R119. -/
def execOcw (t : TileNo) (l : LSlot) (s : State) : Answer :=
  .next (s.issue t 2 (readIssue true true (fun q => q = qeNone) l))

/-! ## Lines of a slice -/

/-- The bytes of line `n` of tile `t`. -/
def State.padLine (s : State) (t n : Nat) : Line := Mem.line s.mem (padAddr t (64 * n))

/-- The stamp of line `n` and its parity written (R226). -/
def Tile.setStamp (x : Tile) (n : Nat) (g : BitVec 2) : Tile :=
  { x with pad := { x.pad with stamps := Sparse.set 0 x.pad.stamps n g } }.clean 0 n

/-- Line `n` of tile `t` written whole, with its stamp when one is given (R226, R548). -/
def State.setPadLine (s : State) (t n : Nat) (v : Line) (gen : Option (BitVec 2)) : State :=
  let s := s.writeLine (padAddr t (64 * n)) v
  match gen with
  | some g => s.modTile t fun x => x.setStamp n g
  | none => s

def Tile.stampOf (x : Tile) (n : Nat) : BitVec 2 := Sparse.get 0 x.pad.stamps n

/-- A line of a slice copied with its codewords and its stamp. -/
def State.copyPadLine (s : State) (t src dst : Nat) : State :=
  let a := padAddr t (64 * src)
  let b := padAddr t (64 * dst)
  let marks := (s.ecc.filter fun c => a / 16 ≤ c.1 && c.1 < a / 16 + 4).map fun c => (c.1 - a / 16, c.2)
  let s := (s.writeLine b (Mem.line s.mem a)).modTile t fun x =>
    let y := x.setStamp dst (x.stampOf src)
    { y with marks := Sparse.set 0 y.marks (markKey 0 dst) (x.mark 0 src) }
  { s with ecc := marks.foldl (fun e m => Sparse.set 0 e (b / 16 + m.1) m.2) s.ecc }

/-- The escrow line of home line `n` stands for it from its first speculative write on, and begins with what the home
line holds (R233; DEDUCED: a read that samples before that write lands sees the old contents, R227). -/
def State.goLive (s : State) (t n : Nat) : State :=
  match Sparse.find? n (s.tile t).esc.reserved with
  | some k => (s.copyPadLine t n k).modTile t fun x => { x with esc := { x.esc with
      reserved := Sparse.erase n x.esc.reserved, redirects := Sparse.put n k x.esc.redirects } }
  | none => s

/-- The line of the slice that a write of home line `n` goes to. -/
def Tile.writeTo (x : Tile) (spec : Bool) (n : Nat) : Nat := if spec then x.readLine n else n

/-- One scheduled write takes effect in its lines, home or escrow (R227, R233). -/
def State.landWrite (s : State) (t : Nat) (w : PadWrite) : State :=
  let gen := if (s.tile t).seq.genEn then some w.gen else none
  (padLines w.wide w.addr.toNat).zipIdx.foldl
    (fun s n =>
      let s := if w.spec then s.goLive t n.1 else s
      s.setPadLine t ((s.tile t).writeTo w.spec n.1) (w.data.extractLsb' (512 * n.2) 512) gen) s

/-- SCRATCHPAD_WRITE_LAND: the write due in this cycle (R227). -/
def execScratchpadWriteLand (t : TileNo) (s : State) : Answer :=
  let n := t.toNat
  let x := s.tile n
  if !s.running then .next s
  else
    match x.pad.writes.find? fun w => w.due = s.fab.scc with
    | none => .next s
    | some w =>
      let s := s.modTile n fun y => { y with pad := { y.pad with writes := y.pad.writes.filter fun v => v != w } }
      .next (s.landWrite n w)

/-! ## Samples (R119, R160, R224, R227) -/

/-- A halt of the read `after` cycles past its issue: 3 for a generation mismatch, the cycle in which its data would have
been usable (R89), and 2 for an uncorrectable codeword, the cycle in which its word would be pushed (R224, R227; DEDUCED). -/
def Tile.lateFail (x : Tile) (r : PadRead) (after : Scc) (f : Failure) : Tile :=
  { x with pad := { x.pad with fails := x.pad.fails ++
    [{ cyc := r.issued + after, iaddr := r.iaddr, slot := f.slot, reason := f.reason, subcode := f.subcode,
       detail := f.detail }] } }

/-- The generation mismatch of a checked read, if any line of it has one. -/
def Tile.genMismatch (x : Tile) (r : PadRead) : Option Failure :=
  if !r.chk || !x.seq.genEn then none
  else
    match (padLines r.wide r.addr.toNat).find? fun n => x.stampOf (x.readLine n) != x.seq.gen with
    | some n => some { slot := 2, reason := 1, subcode := 3,
                       detail := x.seq.gen.setWidth 32 + (x.stampOf (x.readLine n)).setWidth 32 * 8 }
    | none => none

/-- A checked read compares the stamps of its lines; the first whose parity is wrong (R226). -/
def Tile.stampBad (x : Tile) (r : PadRead) : Option Nat :=
  if !r.chk || !x.seq.genEn then none
  else ((padLines r.wide r.addr.toNat).map x.readLine).find? fun n => x.mark 0 n != 0

/-- The sample of one scheduled read at the start of cycle issue + 1: what it delivers enters the pipe for
issue + 2, or the operand cache at the end of issue + 3. -/
def State.sampleRead (s : State) (t : Nat) (r : PadRead) : State :=
  let x := s.tile t
  let lines := (padLines r.wide r.addr.toNat).map x.readLine
  let mark (n : Nat) := s.eccOf (padAddr t (64 * n)) 64
  let fixed := (lines.map fun n => s.eccCorrectable (padAddr t (64 * n)) 64).sum
  let x := if fixed = 0 then x else x.count 0x08 fixed
  match (lines.find? fun n => mark n = 2).orElse fun _ => x.stampBad r with
  | some n => s.setTile t (x.lateFail r 2 (uncorrectable 2 0 (padAddr t (64 * n) % 2 ^ 32)))
  | none =>
    match x.genMismatch r with
    | some f => s.setTile t (x.lateFail r 3 f)
    | none =>
      let d : Vec := BitVec.ofNat 4096
        (lines.foldr (fun n acc => (s.padLine t n).toNat + 2 ^ 512 * acc) 0)
      match r.oc with
      | some o => s.setTile t { x with mx := { x.mx with ocws := x.mx.ocws ++ [(r.issued + 3, o, d)] } }
      | none => s.setTile t { x with vec := { x.vec with results := x.vec.results ++
          [{ dst := r.dst, data := d, due := r.issued + 2, issued := r.issued, iaddr := r.iaddr, slot := 2,
             flags := 0 }] } }

/-- The samples that fall in cycle `now` (R227): every read issued in the cycle before. -/
def State.sampleReads (s : State) (t : Nat) : State :=
  let x := s.tile t
  let due := x.pad.reads.filter fun r => r.issued + 1 = s.fab.scc
  if due.isEmpty then s
  else
    let s := s.setTile t { x with pad := { x.pad with reads := x.pad.reads.filter fun r => r.issued + 1 != s.fab.scc } }
    due.foldl (fun s r => s.sampleRead t r) s

/-- The operand-cache copies whose data complete at the end of cycle `now` (R119). -/
def Tile.finishOcws (x : Tile) (now : Scc) : Tile :=
  let due := x.mx.ocws.filter fun o => o.1 = now
  if due.isEmpty then x
  else
    due.foldl (fun x o =>
      let i := o.2.1.toNat
      let oc := x.mx.opcache
      let low := oc.toNat % 2 ^ (4096 * i)
      let high := oc.toNat / 2 ^ (4096 * (i + 1))
      let oc' := BitVec.ofNat 524288 (low + o.2.2.toNat * 2 ^ (4096 * i) + high * 2 ^ (4096 * (i + 1)))
      { x with mx := { x.mx with opcache := oc' } }.clean 2 i)
      { x with mx := { x.mx with ocws := x.mx.ocws.filter fun o => o.1 != now } }

/-! ## Unscheduled accesses (R229, R230, R237) -/

/-- The bytes of a line with the masked bytes of `d` in their places. -/
def mergeLine (old d : Line) (mask : BitVec 64) : Line :=
  BitVec.ofNat 512 ((List.range 64).foldr
    (fun i acc => (if mask.getLsbD i then d.extractLsb' (8 * i) 8 else old.extractLsb' (8 * i) 8).toNat + 256 * acc) 0)

def maskFull : BitVec 64 := BitVec.allOnes 64

/-- A request of an unscheduled agent joins those that wait for the slice's banks. Its age is the time at which it
came, so that requests of one period are of one age (R230). -/
def State.enqueueAccess (s : State) (t : Nat) (agent : Nat) (line : Nat) (data : Option (Line × BitVec 64))
    (gen : Option (BitVec 2)) (spec : Bool) (owner : UOwner) : State :=
  s.modTile t fun x => { x with pad := { x.pad with ureqs := x.pad.ureqs ++
    [{ agent := agent, age := s.clk.clk, line := BitVec.ofNat 15 line, data := data, gen := gen, spec := spec,
       owner := owner }] } }

/-- A bank refuses every unscheduled access (R235, R237): it is fallow or waking, or a drain that makes it fallow
stands at D + 30 or later. -/
def Tile.bankRefuses (x : Tile) (masks : List (Scc × BitVec 16)) (now : Scc) (b : Nat) : Bool :=
  x.pad.fallow.getLsbD b || x.pad.waking.getLsbD b || masks.any fun m => m.2.getLsbD b && sccGe now (m.1 - 2) && sccGe m.1 now

/-- The port cycles that a read, a full-line write or a partial write claims (R230), counted from the cycle of its
grant. -/
def claimsOf (write partialWrite : Bool) : List (Nat × Bool) :=
  if !write then [(0, false), (1, false)]
  else if partialWrite then [(0, false), (1, false), (1, true), (2, true)]
  else [(0, true), (1, true)]

/-- Whether a scheduled access of bank `b` holds a port in a cycle (R227). -/
def Tile.scheduledHolds (x : Tile) (b : Nat) (cy : Scc) (writePort : Bool) : Bool :=
  if writePort then x.pad.writeHist.any fun h => h.2.getLsbD b && (h.1 + 2 = cy || h.1 + 3 = cy)
  else x.pad.readHist.any fun h => h.2.getLsbD b && (h.1 + 1 = cy || h.1 + 2 = cy)

/-- The access is a partial write. -/
def URequest.part (r : URequest) : Bool := match r.data with | some (_, m) => m != maskFull | none => false

/-- The request waits for the write port, or for the read port: a partial write waits for both. -/
def URequest.waitsFor (r : URequest) (write : Bool) : Bool := if write then r.data.isSome else r.data.isNone || r.part

/-- Request `r` is served before `q`: it is older, or of one age and of an agent that comes first (R230). -/
def URequest.before (r q : URequest) : Bool := r.age < q.age || (r.age = q.age && r.agent ≤ q.agent)

/-- The oldest request that waits for a port of bank `b`; among requests of one age, the first in the order of
service. -/
def oldest (b : Nat) (write : Bool) : List URequest → Option URequest
  | [] => none
  | r :: rs =>
    if r.line.toNat % 16 = b && r.waitsFor write then
      match oldest b write rs with
      | none => some r
      | some q => if r.before q then some r else some q
    else oldest b write rs

/-- The tile is in the swap window of a commit (R339). -/
def Tile.inSwap (x : Tile) (now : Scc) : Bool :=
  x.esc.committed && (match x.esc.resolvedAt with
    | some r => sccGe now (r + 1) && !sccGe now (r + 5)
    | none => false)

/-- Whether bank `b` grants request `r` in this cycle: it is the oldest at each port that it waits for, and no scheduled
access and no unscheduled one holds a port cycle that it claims. The bundle that the tile issues in this cycle counts, so
nothing is granted before it. `beat` counts the banks' own cycles, which run on while the fabric is held; then the banks
serve unscheduled agents only. -/
def Tile.grants (x : Tile) (running : Bool) (now : Scc) (beat b : Nat) (r : URequest) : Bool :=
  !x.inSwap now && (!running || !x.issues now || (x.bundleIn now).isSome)
    && ([false, true].all fun w => !r.waitsFor w || oldest b w x.pad.ureqs = some r)
    && (claimsOf r.data.isSome r.part).all fun c =>
      (!running || !x.scheduledHolds b (now + BitVec.ofNat 48 c.1) c.2)
        && !x.pad.claims.contains (beat + c.1, BitVec.ofNat 4 b, c.2)

/-- The write half of a granted access: full lines take new codewords, partial ones follow R548. A rewrite by the
scrubber, with an empty mask, touches every codeword of its line (R225). The codewords that the read half of a partial
write corrects are counted (R224). -/
def State.landUnscheduled (s : State) (t : Nat) (r : URequest) : State :=
  match r.data with
  | none => s
  | some (d, m) =>
    let s := if r.spec then s.goLive t r.line.toNat else s
    let n := (s.tile t).writeTo r.spec r.line.toNat
    let a := padAddr t (64 * n)
    let s :=
      if m = maskFull then s.writeLine a d
      else
        let mark (c : Nat) : BitVec 2 := Sparse.get 0 s.ecc (a / 16 + c)
        let blocked (c : Nat) : Bool := mark c = 2 && (m.extractLsb' (16 * c) 16) != 0xFFFF
        let touched (c : Nat) : Bool := m = 0 || m.extractLsb' (16 * c) 16 != 0
        let m' : BitVec 64 := (List.range 4).foldl
          (fun acc c => if blocked c then acc &&& ~~~((0xFFFF : BitVec 64) <<< (16 * c)) else acc) m
        let fixed := ((List.range 4).filter fun c => touched c && mark c = 1).length
        { s with
          mem := Mem.setLine s.mem a (mergeLine (Mem.line s.mem a) d m')
          ecc := s.ecc.filter fun c =>
            !(a / 16 ≤ c.1 && c.1 < a / 16 + 4) || !touched (c.1 - a / 16) || blocked (c.1 - a / 16) }.tileEvent t 0x08
          (if m = 0 then 0 else fixed)
    match r.gen with
    | some g => s.modTile t fun x => x.setStamp n g
    | none => s

/-- SCRUB (R225): the scrubber asks for a read of the line; a fallow bank is not read. -/
def execScrub (t : TileNo) (line : BitVec 15) (s : State) : Answer :=
  let n := t.toNat
  let b := line.toNat % 16
  let x := s.tile n
  if !tileIn s.grade n || 20480 ≤ line.toNat || x.pad.fallow.getLsbD b || x.pad.waking.getLsbD b then .next s
  else .next (s.enqueueAccess n 5 line.toNat none none false .scrub)

/-- The scrubber has read the line: a line that it corrects is rewritten by a partial write that keeps its bytes and its
stamp, and one with an uncorrectable codeword is left (R225). -/
def State.scrubbed (s : State) (t line : Nat) : State :=
  let a := padAddr t (64 * line)
  let c := s.eccCorrectable a 64
  if c = 0 then s
  else
    let s := s.tileEvent t 0x08 c
    if s.eccOf a 64 = 2 then s else s.enqueueAccess t 5 line (some (0, 0)) none false .scrub

end Sys2Proof.Machine
end

