-- ==== Sys2Proof/Machine/Rings.lean ====
section
/-!
DEFINITION. Writes of asynchronous agents (R230, R237, R252), tills (R296–R302), coins, rings, spill and multicast at
the sender (R311–R322).
-/
namespace Sys2Proof.Machine

/-! ## Writes of asynchronous agents -/

/-- The bank of slice line `n` of tile `t` refuses unscheduled accesses in the current cycle (R237). -/
def State.lineRefused (s : State) (t n : Nat) : Bool :=
  (s.tile t).bankRefuses (s.masksOf t) s.fab.scc (n % 16)

/-- The part of `bs`, stored from slice address `o`, that falls in line `n`, with its mask. -/
def linePart (o : Nat) (bs : List Byte) (n : Nat) : Line × BitVec 64 :=
  (List.range 64).foldl (fun acc i =>
    let a := 64 * n + i
    if o ≤ a && a < o + bs.length then
      (acc.1 ||| ((bs.getD (a - o) 0).setWidth 512 <<< (8 * i)), acc.2 ||| ((1 : BitVec 64) <<< i))
    else acc) (0, 0)

/-- The lines that `n` bytes at slice address `o` touch. -/
def linesAt (o n : Nat) : List Nat :=
  if n = 0 then [] else (List.range ((o + n - 1) / 64 + 1 - o / 64)).map (o / 64 + ·)

/-- A write that a fallow bank refuses sets TILE_BANKS.LATE (R237). -/
def State.noteLate (s : State) (t : Nat) : State :=
  s.modTile t fun x => { x with pad := { x.pad with late := true } }

/-- A write of an agent that is neither the steward nor a tile's L slot. DRAM takes it at once; the lines of a slice
wait for their banks. The answer holds the cause of a refusal (1 hole, 2 fallow bank; R361) and how many line writes
wait. Where one line of several lies in a fallow bank when the write comes, none of them is written; where a bank becomes
fallow while they wait, the lines of the other banks are (R237; DESIGN CHOICE, log entry 122). -/
def State.asyncWrite (s : State) (a : Nat) (bs : List Byte) (agent : Nat) (gen : Option (BitVec 2)) (spec : Bool)
    (owner : UOwner) : State × Option (BitVec 8) × Nat :=
  let n := bs.length
  if n = 0 then (s, none, 0)
  else
    match place s.grade true a, place s.grade true (a + n - 1) with
    | .dram k b, .dram k' b' =>
      if k' = k && b' = b + n - 1 then
        (s.dramWrite k b bs, none, 0)
      else (s, some 1, 0)
    | .pad t o, .pad t' o' =>
      let ls := linesAt o n
      if !(t' = t && o' = o + n - 1) || ((s.issueEnv t).escrow && escrowBase < o + n) then (s, some 1, 0)
      else if ls.any (s.lineRefused t) then
        (s.noteLate t, some 2, 0)
      else
        (ls.foldl (fun s l => s.enqueueAccess t agent l (some (linePart o bs l)) gen spec owner) s, none, ls.length)
    | _, _ => (s, some 1, 0)

/-- A read of DRAM at a device address for data of a program; none where no DRAM of programs stands there, or a codeword is
uncorrectable. -/
def State.asyncRead (s : State) (a n : Nat) : State × Option (List Byte) :=
  match place s.grade true a, place s.grade true (a + n - 1) with
  | .dram k b, .dram k' b' => if k' = k && b' = b + n - 1 then s.dramRead k b n else (s, none)
  | _, _ => (s, none)

/-! ## Ring ends (R312) -/

def rendBase (e : BitVec 256) : Nat := (e.extractLsb' 0 48).toNat
def rendCoins (e : BitVec 256) : Nat := (e.extractLsb' 64 24).toNat
def rendFbase (e : BitVec 256) : Nat := (e.extractLsb' 96 48).toNat
def rendAtill (e : BitVec 256) : BitVec 15 := e.extractLsb' 144 15
def rendRtill (e : BitVec 256) : BitVec 15 := e.extractLsb' 160 15
def rendDev (e : BitVec 256) : BitVec 12 := e.extractLsb' 176 12
def rendChan (e : BitVec 256) : BitVec 14 := e.extractLsb' 192 14

/-- The ring ends of the device that are configured: die, index and state. -/
def State.openRings (s : State) : List (Nat × Nat × RingEnd) :=
  s.fab.dies.flatMap fun d => (d.2.ringEnds.filter fun r => rendCoins r.2.entry != 0).map fun r => (d.1, r.1, r.2)

/-- The ring end that a sender's channel feeds. -/
def State.ringOf (s : State) (dev : BitVec 12) (chan : BitVec 14) : Option (Nat × Nat × RingEnd) :=
  s.openRings.find? fun r => rendDev r.2.2.entry = dev && rendChan r.2.2.entry = chan

/-- A ring end on which nothing is lodged starts anew, with its entry (R308). -/
def State.restartRing (s : State) (d i : Nat) : State :=
  let r := s.ringEnd d i
  if r.lodged = 0 then s.setRingEnd d i { entry := r.entry } else s

/-- The ring end whose return till is `n` (R317). -/
def State.returnTill (s : State) (n : BitVec 15) : Option (Nat × Nat × RingEnd) :=
  s.openRings.find? fun r => rendRtill r.2.2.entry = n

/-- What a till reads (R317): a return till always reads 0. -/
def State.tillRead (s : State) (n : BitVec 15) : BitVec 32 := if (s.returnTill n).isSome then 0 else s.till n.toNat

/-- A device without a map entry has no path (R365; DESIGN CHOICE, log entry 98). -/
def State.unmapped (s : State) : State := s.unitHalt 6 0 0x12 0 0

/-- A coin fault, with the sending channel in the detail word (R318). -/
def State.coinFault (s : State) (kind index : Nat) (chan : BitVec 14) : State :=
  s.unitHalt kind index 0x10 0 (chan.setWidth 32)

/-- A return of `v` coins at a ring end (R317, R318). Returns carry numbers of their own, so that the sender takes each
once and in order (R310, R317, R326; DEDUCED, log entry 36). A sender whose device has no map entry cannot be reached:
its coins stay lodged (log entry 98). -/
def State.returnCoins (s : State) (d i : Nat) (v : Int) (sub : Bool) : State :=
  let r := s.ringEnd d i
  let chan := rendChan r.entry
  if sub || v ≤ 0 || (r.lodged.toNat : Int) < v then s.coinFault 5 (3 * d) chan
  else
    match s.physOf (rendDev r.entry) with
    | none => s.unmapped
    | some p =>
      let n := v.toNat
      (s.setRingEnd d i { r with
        lodged := r.lodged - BitVec.ofNat 24 n
        retpos := BitVec.ofNat 24 ((r.retpos.toNat + n) % rendCoins r.entry)
        retout := r.retout + BitVec.ofNat 32 n, retSeq := r.retSeq + 1 }).send .ret
        { Packet.blank with dst := p, chan := chan, tid := r.retSeq, value := BitVec.ofNat 32 n }

/-! ## Till blocks (R298, R299) -/

/-- A till block applies one operation: the state, and whether it refused the operation for overflow. -/
def State.applyTill (s : State) (n : BitVec 15) (v : BitVec 32) (sub : Bool) : State × Bool :=
  match s.returnTill n with
  | some (d, i, _) => (s.returnCoins d i v.toInt sub, false)
  | none =>
    let old := (s.till n.toNat).toInt
    let new := if sub then old - v.toInt else old + v.toInt
    if new < -(2 ^ 31) || 2 ^ 31 ≤ new then
      (s.unitHalt 4 (n.toNat / 8192) 9 0 (BitVec.ofNat 32 (n.toNat + sub.toNat * 32768)), true)
    else (s.setTill n.toNat (BitVec.ofInt 32 new), false)

/-- A posted operation has left the bundle that issued it: it reaches its agent in a later cycle. -/
def State.posted (s : State) (c : Scc) : Bool := !(s.running && c = s.fab.scc)

/-- The list without its first element that satisfies `p`. -/
def dropFirst {α : Type} (p : α → Bool) : List α → List α
  | [] => []
  | a :: as => if p a then as else a :: dropFirst p as

/-- The till block of a till: its die (R296). -/
def blockOf (n : BitVec 15) : BitVec 2 := BitVec.ofNat 2 (n.toNat / 8192)

/-- A posted operation is for the till block of die `d`. -/
def Posted.tillAt (d : BitVec 2) : Posted → Bool
  | .till n _ _ => blockOf n = d
  | _ => false

/-- An operation of a source joins those that wait for the till block. -/
def State.queueTill (s : State) (src : TillSource) (o : TillOp) : State :=
  { s with fab := { s.fab with tillQueue := s.fab.tillQueue ++ [(src, o)] } }

/-- The oldest operation of tile `t` for the till block of die `d` takes effect, once it has left its bundle. -/
def State.applyPosted (s : State) (t : Nat) (d : BitVec 2) : State :=
  match (s.tile t).petty.tillOut.find? fun o => o.2.tillAt d with
  | some (c, .till n v sub) =>
    if s.posted c then
      ((s.modTile t fun x => { x with petty := { x.petty with
        tillOut := dropFirst (fun o => o.2.tillAt d) x.petty.tillOut } }).applyTill n v sub).1
    else s
  | _ => s

/-- The oldest operation of another source for the till block of die `d` takes effect. -/
def State.applyQueued (s : State) (src : TillSource) (d : BitVec 2) : State :=
  let mine (q : TillSource × TillOp) : Bool := q.1 = src && blockOf q.2.till = d
  match s.fab.tillQueue.find? mine with
  | some (_, o) =>
    ({ s with fab := { s.fab with tillQueue := dropFirst mine s.fab.tillQueue } }.applyTill o.till o.value false).1
  | none => s

/-- TILL_OPERATION_APPLY: the till block of a die applies the oldest operation of a source, in the order of R298. -/
def execTillOperationApply (src : TillSource) (die : BitVec 2) (s : State) : Answer :=
  .next (match src with
    | .tile t => s.applyPosted t.toNat die
    | _ => s.applyQueued src die)

/-! ## Sending on a ring (R313, R314) -/

def coinsOf (len : Nat) : Nat := (len + 63) / 64

/-- The number of coins of a message (R155: every message takes at least one byte). -/
def Message.coins (m : Message) : Nat := coinsOf m.data.length

def Spilled.coins (m : Spilled) : Nat := coinsOf m.len

/-- The message is too long for the tail of the ring, so a skip marker comes before it. -/
def Channel.needsSkip (ch : Channel) (head n : Nat) : Bool := chanRcoins ch.entry - head < n

/-- A skip marker at HEAD, when the message is too long for the tail and the tail's coins are held, under an ID that it has
already or the next one. -/
def State.skipTail (s : State) (c : Nat) (n : Nat) (tid : Option (BitVec 32)) : State :=
  let ch := s.chan c
  let tail := chanRcoins ch.entry - ch.head.toNat
  if ch.needsSkip ch.head.toNat n && tail ≤ ch.held.toNat then
    match s.physOf (chanDev ch.entry) with
    | none => s
    | some p =>
      let pk := { Packet.blank with
        vc := chanVc ch.entry, dst := p, addr := BitVec.ofNat 48 (64 * ch.head.toNat)
        value := BitVec.ofNat 32 (2 ^ 31 + tail) }
      let s := s.setChan c { ch with held := ch.held - BitVec.ofNat 24 tail, head := 0 }
      let t : Transfer :=
        { tid := 0, tile := none, block := none, coins := BitVec.ofNat 24 tail, addr := pk.addr, left := 1 }
      match tid with
      | some i => s.startAs c i t [(.ring, pk)]
      | none => s.startTransfer c t [(.ring, pk)]
  else s

/-- HEAD has room for `n` coins and HELD covers them. -/
def Channel.takes (ch : Channel) (n : Nat) : Bool :=
  n ≤ chanRcoins ch.entry - ch.head.toNat && n ≤ ch.held.toNat

/-- The coins of a message are spent, and HEAD moves on; the answer holds the position. -/
def State.spend (s : State) (c n : Nat) : State × Nat :=
  let ch := s.chan c
  let r := chanRcoins ch.entry
  (s.setChan c { ch with held := ch.held - BitVec.ofNat 24 n, head := BitVec.ofNat 24 ((ch.head.toNat + n) % r) },
    ch.head.toNat)

/-- The RING packets of a message at a position: cut at 256 B, the last one with the frame word. -/
def ringPackets (e : Line) (dst : BitVec 12) (pos : Nat) (gen : Option (BitVec 2)) (data : List Byte) :
    List (PacketType × Packet) :=
  let ps := cutPackets (data.length + 1) (64 * pos) data
  ps.zipIdx.map fun p => (.ring, { Packet.blank with
    vc := chanVc e, dst := dst, addr := BitVec.ofNat 48 p.1.1, data := p.1.2, gen := gen
    last := p.2 + 1 = ps.length, value := if p.2 + 1 = ps.length then BitVec.ofNat 32 data.length else 0 })

/-- A message leaves on ring channel `c`, whose coins it takes, under an ID that it has already or the next one; the
caller has seen that the coins suffice. No coin is spent for a device without a map entry (log entry 98). -/
def State.sendMessage (s : State) (c : Nat) (m : Message) (tid : Option (BitVec 32)) : State :=
  let e := (s.chan c).entry
  match s.physOf (chanDev e) with
  | none => s.unmapped
  | some p =>
    let (s, pos) := s.spend c m.coins
    let t : Transfer :=
      { tid := 0, tile := m.tile, block := none, coins := BitVec.ofNat 24 m.coins, addr := 0, left := 1 }
    let ps := ringPackets e p pos m.gen m.data
    match tid with
    | some n => s.startAs c n t ps
    | none => s.startTransfer c t ps

/-! ## Spill regions (R319, R320) -/

/-- The stack and address of unit `u` of a spill region. -/
def State.spillPlace (s : State) (e : Line) (u : Nat) : Option (Nat × Nat) :=
  match place s.grade true (chanSbase e + 64 * u) with
  | .dram k b => some (k, b)
  | _ => none

/-- Unit `u` of a spill region written. -/
def State.writeUnit (s : State) (e : Line) (u : Nat) (bs : List Byte) : State :=
  match s.spillPlace e u with
  | some (k, b) => s.dramWrite k b (bs ++ List.replicate (64 - bs.length) 0)
  | none => s

/-- The record unit of a spilled message: its length, its owed members and its transfer ID. The spec gives it no layout;
the model takes bytes [3:0], [11:4] and [15:12] (DESIGN CHOICE, log entry 30). -/
def Spilled.record (m : Spilled) : List Byte := bytesOf m.len 4 ++ bytesOf m.owed.toNat 8 ++ bytesOf m.tid.toNat 4

def State.writeRecord (s : State) (e : Line) (m : Spilled) : State :=
  match m.units with
  | u :: _ => s.writeUnit e u m.record
  | [] => s

/-- `n` free units of a spill region, first in, first out: those that no message has taken yet come before those freed
since. -/
def Channel.freeUnits (ch : Channel) (n : Nat) : List Nat :=
  let fresh := min n (chanSsize ch.entry - ch.spillFresh)
  (List.range fresh).map (ch.spillFresh + ·) ++ ch.spillFree.take (n - fresh)

/-- A message joins the spill region of channel `c`, or the region is full (R319, R320). `owed` are the members still owed
on a multicast channel, `tid` the message's ID. -/
def State.spillMessage (s : State) (c : Nat) (m : Message) (owed : BitVec 64) (tid : BitVec 32) : State :=
  let ch := s.chan c
  let n := 1 + m.coins
  let us := ch.freeUnits n
  if us.length < n then s.unitHalt 5 (((s.spillPlace ch.entry 0).map Prod.fst).getD 0) 0x0A 0 (BitVec.ofNat 32 c)
  else
    let x : Spilled := { tile := m.tile, ticket := m.ticket, gen := m.gen, len := m.data.length, units := us, owed := owed
                         tid := tid }
    let fresh := min n (chanSsize ch.entry - ch.spillFresh)
    let s := s.setChan c { ch with
      spill := ch.spill ++ [x], spillu := ch.spillu + BitVec.ofNat 32 n, spillFresh := ch.spillFresh + fresh
      spillFree := ch.spillFree.drop (n - fresh) }
    (us.drop 1).zipIdx.foldl (fun s u => s.writeUnit ch.entry u.1 ((m.data.drop (64 * u.2)).take 64))
      (s.writeRecord ch.entry x)

/-- The data units of a spilled message read; none when a codeword is uncorrectable, which halts the fabric (R264). -/
def State.readUnits (s : State) (e : Line) : List Nat → State × Option (List Byte)
  | [] => (s, some [])
  | u :: us =>
    match s.spillPlace e u with
    | none => (s, none)
    | some (k, b) =>
      match s.dramRead k b 64 with
      | (s, none) => (s.dramHalt k b, none)
      | (s, some bs) =>
        match s.readUnits e us with
        | (s, some rest) => (s, some (bs ++ rest))
        | (s, none) => (s, none)

/-- A spilled message as it leaves its region. -/
def State.unspill (s : State) (e : Line) (m : Spilled) : State × Option Message :=
  match s.readUnits e (m.units.drop 1) with
  | (s, some bs) => (s, some { tile := m.tile, ticket := m.ticket, data := bs.take m.len, gen := m.gen })
  | (s, none) => (s, none)

/-- The units of a message whose every copy has left are free again. -/
def Channel.freed (ch : Channel) (m : Spilled) : Channel :=
  { ch with spill := ch.spill.erase m, spillu := ch.spillu - BitVec.ofNat 32 m.units.length
            spillFree := ch.spillFree ++ m.units }

/-- HEAD as it will be when every spilled message of a ring has left. -/
def Channel.lastHead (ch : Channel) : Nat :=
  ch.spill.foldl (fun h x => ((if ch.needsSkip h x.coins then 0 else h) + x.coins) % chanRcoins ch.entry) ch.head.toNat

/-- A message of a ring joins the spill region with the next ID, behind the ID of the skip marker that will have to come before it:
IDs rise in the order in which the ring is sent. -/
def State.spillRing (s : State) (c : Nat) (m : Message) : State :=
  let ch := s.chan c
  let s := if ch.needsSkip ch.lastHead m.coins then (s.takeTid c).1 else s
  let (s, n) := s.takeTid c
  s.spillMessage c m 0 n

/-- R314 for one message on a ring channel. -/
def State.placeMessage (s : State) (c : Nat) (m : Message) : State :=
  let spill (s : State) : State := s.spillRing c m
  if !(s.chan c).spill.isEmpty then spill s
  else
    let s := s.skipTail c m.coins none
    if (s.chan c).takes m.coins then s.sendMessage c m none else spill s

/-! ## Multicast (R322, R372) -/

/-- The members of `mask` whose byte of the tree names `link`. -/
def State.treeMembers (s : State) (tree : Nat) (mask : BitVec 64) (b : Nat) : List Nat :=
  let t := Sparse.get treeReset s.heath.tree tree
  (List.range 64).filter fun m => mask.getLsbD m && (t.extractLsb' (8 * m) 5).toNat = b

/-- A MCAST packet cut to the members of a list: its mask and its positions. -/
def mcastFor (p : Packet) (ms : List Nat) : Packet :=
  let all := (List.range 64).filter fun m => p.mask.getLsbD m
  { p with
    mask := ms.foldl (fun acc m => acc ||| ((1 : BitVec 64) <<< m)) 0
    coins := ms.filterMap fun m => (all.zip p.coins).lookup m }

/-- The copies of a MCAST packet that leave this device, one on each link of the tree, for the device at its other end.
The receive buffer of `input` holds the packet, with its `back` credits, until the last of them has left. -/
def State.splitMcast (s : State) (tree : Nat) (input : Option (BitVec 5)) (back : Nat) (p : Packet) : State :=
  let ks := (List.range 20).filter fun k => !(s.treeMembers tree p.mask k).isEmpty
  (ks.foldl (fun s k => s.queueOut
    { ty := .mcast, packet := { mcastFor p (s.treeMembers tree p.mask k) with dst := (s.link k).peer }
      pinned := some (BitVec.ofNat 5 k), input := if ks.getLast? = some k then input else none, back := back }) s).drainOut

/-- The copy of a MCAST packet of this device for the members whose ring ends are on it. -/
def State.ownMcast (s : State) (tree : Nat) (p : Packet) : State :=
  match s.treeMembers tree p.mask 0x1E with
  | [] => s
  | ms =>
    let o : OutPacket := { ty := .mcast, packet := mcastFor p ms, pinned := none }
    { s with heath := { s.heath with loopq := s.heath.loopq ++ [o] } }

/-- The members that can take a message now: none is owed an earlier one, and its coins suffice after its skip
marker. The state holds the skip markers. -/
def State.readyMembers (s : State) (c : Nat) (n : Nat) : List (Nat × Nat) → State × List (Nat × Nat)
  | [] => (s, [])
  | (m, mc) :: rest =>
    let owed := (s.chan c).spill.any fun x => x.owed.getLsbD m
    if owed || (s.physOf (chanDev (s.chan mc).entry)).isNone then s.readyMembers c n rest
    else
      let s := s.skipTail mc n none
      if (s.chan mc).takes n then
        let (s, rs) := s.readyMembers c n rest
        (s, (m, mc) :: rs)
      else s.readyMembers c n rest

/-- R322 for one message on a multicast channel: one copy along the tree to the members that can take it, the rest
owed from the spill region. A member that this device's tree does not place is a coin fault, and nothing is sent
(R372). -/
def State.placeMulticast (s : State) (c : Nat) (m : Message) : State :=
  let e := (s.chan c).entry
  let ms := (s.members e).zipIdx.map fun x => (x.2, x.1)
  let all : BitVec 64 := ms.foldl (fun a x => a ||| ((1 : BitVec 64) <<< x.1)) 0
  if !(s.treeMembers (chanTree e) all 0x1F).isEmpty then s.coinFault 5 0 (BitVec.ofNat 14 c)
  else
    let (s, tid) := s.takeTid c
    let (s, ready) := s.readyMembers c m.coins ms
    let sp := ready.foldl (fun acc r =>
      let (s', pos) := acc.1.spend r.2 m.coins
      (s', acc.2 ++ [(r.1, pos)])) (s, ([] : List (Nat × Nat)))
    let s := sp.1
    let mask : BitVec 64 := sp.2.foldl (fun a x => a ||| ((1 : BitVec 64) <<< x.1)) 0
    let s :=
      if sp.2.isEmpty then s
      else
        let cuts := cutPackets (m.data.length + 1) 0 m.data
        let s := s.modChan c fun x => { x with
          transfers := x.transfers ++ [{ tid := tid, tile := m.tile, block := none, coins := BitVec.ofNat 24 m.coins,
                                         addr := 0, left := sp.2.length, owed := mask }] }
        cuts.zipIdx.foldl (fun s p =>
          let pk : Packet := { Packet.blank with
            vc := chanVc e, src := s.heath.id, chan := BitVec.ofNat 14 c, tid := tid, gen := m.gen
            addr := BitVec.ofNat 48 p.1.1, data := p.1.2, last := p.2 + 1 = cuts.length
            value := if p.2 + 1 = cuts.length then BitVec.ofNat 32 m.data.length else 0
            mask := mask, coins := sp.2.map fun x => BitVec.ofNat 32 x.2 }
          (s.splitMcast (chanTree e) none 0 pk).ownMcast (chanTree e) pk) s
    let owed := all &&& ~~~mask
    if owed = 0 then s else s.spillMessage c m owed tid

/-- RING_MESSAGE_SEND (R314, R322): the oldest message at the sending memory port is sent or spilled. -/
def execRingMessageSend (chan : BitVec 14) (s : State) : Answer :=
  let c := chan.toNat
  let ch := s.chan c
  .next (match ch.queue with
    | [] => s
    | m :: rest =>
      if ch.full then s
      else
        let s := s.setChan c { ch with queue := rest }
        if chanKind ch.entry = 4 then s.placeMulticast c m
        else if chanKind ch.entry = 3 then s.placeMessage c m
        else s)

/-- The first message of the region that owes member `m` its copy. -/
def firstOwed (m : Nat) (ms : List Spilled) : Option Spilled := ms.find? fun x => x.owed.getLsbD m

/-- Member `m` has its copy of message `x`: the record holds the members still owed, and a message that owes no one
leaves its units. -/
def State.payOwed (s : State) (c m : Nat) (x : Spilled) : State :=
  let y := { x with owed := x.owed &&& ~~~((1 : BitVec 64) <<< m) }
  if y.owed = 0 then s.modChan c fun ch => ch.freed x
  else (s.modChan c fun ch => { ch with spill := ch.spill.map fun z => if z = x then y else z }).writeRecord
    (s.chan c).entry y

/-- The owed copy of member `m`, ring channel `mc`, leaves when the coins it needs are held. -/
def State.departMember (s : State) (c m mc : Nat) : State :=
  match firstOwed m (s.chan c).spill with
  | none => s
  | some x =>
    if (s.chan mc).full || (s.physOf (chanDev (s.chan mc).entry)).isNone then s
    else
      let s := s.skipTail mc x.coins none
      if !(s.chan mc).takes x.coins || (s.chan mc).full then s
      else
        match s.unspill (s.chan c).entry x with
        | (s, some msg) => (s.payOwed c m x).sendMessage mc msg none
        | (s, none) => s

/-- The oldest spilled message of a ring leaves when the coins it needs are held. -/
def State.departRing (s : State) (c : Nat) : State :=
  match (s.chan c).spill with
  | [] => s
  | x :: _ =>
    if (s.physOf (chanDev (s.chan c).entry)).isNone then s
    else
      let s := if (s.chan c).fullFor (x.tid - 1) then s else s.skipTail c x.coins (some (x.tid - 1))
      if !(s.chan c).takes x.coins || (s.chan c).fullFor x.tid then s
      else
        match s.unspill (s.chan c).entry x with
        | (s, some msg) => (s.modChan c fun ch => ch.freed x).sendMessage c msg (some x.tid)
        | (s, none) => s

/-- SPILL_DEPART (R319, R322): the oldest spilled message of a ring, or of each member that is owed one, leaves when
the coins it needs are held. -/
def execSpillDepart (chan : BitVec 14) (s : State) : Answer :=
  let c := chan.toNat
  let e := (s.chan c).entry
  .next (if chanKind e = 4 then (s.members e).zipIdx.foldl (fun s x => s.departMember c x.2 x.1) s else s.departRing c)

/-! ## Arrival order at a ring end (R316) -/

/-- The ring end is that of an outbox (R407, R417). -/
def State.outboxEnd (s : State) (d i : Nat) : Bool :=
  s.house.outboxes.any fun b => b.2.getLsbD 12 && b.2.toNat % 1024 = i && b.2.toNat / 1024 % 4 = d

/-- ATILL_APPLY: the next message of the ring in order has landed, and every message and marker before it. The ring
end of an outbox hands the message to the counting house instead (R407). -/
def execAtillApply (die : BitVec 2) (index : BitVec 10) (s : State) : Answer :=
  let r := s.ringEnd die.toNat index.toNat
  let n := rendCoins r.entry
  let step (p : BitVec 24) (c : BitVec 24) : BitVec 24 := BitVec.ofNat 24 ((p.toNat + c.toNat) % n)
  let at_ (p : BitVec 24) := r.landed.find? fun l => l.1 = p
  let go (p : BitVec 24) (gone : List (BitVec 24)) : State :=
    match at_ p with
    | some (q, c, false) =>
      if r.refused.contains q then s
      else
        let out := s.outboxEnd die.toNat index.toNat
        let r' := { r with
          nextPos := step q c, landed := r.landed.filter fun l => l.1 != q && !gone.contains l.1 }
        let s := s.setRingEnd die.toNat index.toNat r'
        if out then
          { s with house := { s.house with
              arrivals := s.house.arrivals ++ [{ die := die, index := index, pos := q, coins := c }] } }
        else
          match s.applyTill (rendAtill r.entry) 1 false with
          | (s, true) => s
          | (s, false) =>
            let r := s.ringEnd die.toNat index.toNat
            s.setRingEnd die.toNat index.toNat { r with arrived := r.arrived + 1 }
    | _ => s
  .next (
    if n = 0 then s
    else
      match at_ r.nextPos with
      | some (q, c, true) => if r.refused.contains q then s else go (step q c) [q]
      | some _ => go r.nextPos []
      | none => s)

end Sys2Proof.Machine
end

