-- ==== Sys2Proof/Machine/Fetch.lean ====
section
/-!
DEFINITION. The fetch engines (R239–R257): arming, the issue of blocks, their delivery and their tags.
-/
namespace Sys2Proof.Machine

/-! ## Descriptors (R240) -/

def descKind (d : Line) : Nat := (d.extractLsb' 0 8).toNat
def descLead (d : Line) : Nat := (d.extractLsb' 8 8).toNat
def descTile (d : Line) : Nat := (d.extractLsb' 16 10).toNat
def descFq (d : Line) : Nat := (d.extractLsb' 32 8).toNat
def descGen (d : Line) : BitVec 2 := d.extractLsb' 40 2
def descChan (d : Line) : Nat := (d.extractLsb' 48 14).toNat
def descDaddr (d : Line) : Nat := (d.extractLsb' 64 48).toNat
def descSaddr (d : Line) : Nat := (d.extractLsb' 128 32).toNat
def descBlk (d : Line) : Nat := (d.extractLsb' 160 8).toNat
def descSwrap (d : Line) : Nat := (d.extractLsb' 168 8).toNat
def descCount (d : Line) : Nat := (d.extractLsb' 192 32).toNat
def descDstride (d : Line) : Int := (d.extractLsb' 224 32 : BitVec 32).toInt
def descSstride (d : Line) : Nat := (d.extractLsb' 256 32).toNat
def descAstride (d : Line) : Int := (d.extractLsb' 288 64 : BitVec 64).toInt
def descRtill (d : Line) : Option (BitVec 15) := if d.getLsbD 367 then some (d.extractLsb' 352 15) else none
def descAtill (d : Line) : Option (BitVec 15) := if d.getLsbD 383 then some (d.extractLsb' 368 15) else none

/-- The DRAM address of block `i` of the active arm, computed exactly (R243). -/
def DescDyn.daddr (x : DescDyn) (i : Nat) : Int :=
  (descDaddr x.copy : Int) + x.arms.toNat * descAstride x.copy + i * descDstride x.copy

/-- The slice address of block `i` (R243). -/
def DescDyn.saddr (x : DescDyn) (i : Nat) : Nat :=
  descSaddr x.copy + (if descSwrap x.copy = 0 then i else i % descSwrap x.copy) * descSstride x.copy

def State.desc (s : State) (f n : Nat) : DescDyn := (s.field f).descDyn n
def State.setDesc (s : State) (f n : Nat) (x : DescDyn) : State := s.modField f fun y => y.setDyn n x
def State.modDesc (s : State) (f n : Nat) (g : DescDyn → DescDyn) : State := s.setDesc f n (g (s.desc f n))

/-- Blocks of the descriptor in flight. -/
def DescDyn.flying (x : DescDyn) : Nat := (x.out.filter fun b => !b.done).length

/-- Tags of the engine in use (R239). -/
def Field.tagsOut (f : Field) : Nat := (f.dyn.map fun x => x.2.flying + x.2.burned.length).sum

/-- Releases counted by the release till since the activation (R243). -/
def State.releases (s : State) (x : DescDyn) : Int :=
  match descRtill x.copy with
  | some t => (s.till t.toNat - x.r0).toInt
  | none => 0

/-- The next block of the descriptor is permitted: the releases, LEAD and COUNT allow it (R243). -/
def State.permitted (s : State) (x : DescDyn) : Bool :=
  (x.st = 1 || x.st = 2) && x.next.toNat < descCount x.copy && x.flying < descLead x.copy
    && (if descKind x.copy = 3 then (x.next.toNat : Int) + 1 ≤ s.releases x
        else if descKind x.copy = 1 && (descRtill x.copy).isSome then
          (x.next.toNat : Int) - descLead x.copy + 1 ≤ s.releases x
        else true)

/-- Every block of the arm is home, and for kind 1 with RTILL every release is counted (R247). -/
def State.armComplete (s : State) (x : DescDyn) : Bool :=
  x.next.toNat = descCount x.copy && x.out.isEmpty && x.home.toNat = descCount x.copy
    && (if descKind x.copy = 1 && (descRtill x.copy).isSome then (descCount x.copy : Int) ≤ s.releases x else true)

/-- The descriptor's tags are home (R129, R244): no block in flight, those that a discard burns on arrival included
(R249), no permitted block waiting, and every FARM issued has reached the engine. -/
def State.tagsHome (s : State) (f n : Nat) : Bool :=
  let x := s.desc f n
  x.flying = 0 && x.burned.isEmpty && !s.permitted x
    && s.fab.tiles.all fun t => tileField t.1 != f || t.2.petty.farmOut.all fun o =>
      match o.2 with | .farm d _ => d.toNat != n | _ => true

/-! ## Errors (R248, R256) -/

/-- A descriptor error: the block moves nothing, its tag returns, and the first error is recorded. -/
def State.descError (s : State) (f n : Nat) (i : Option (BitVec 25)) (addr : Nat) (cause : Nat) : State :=
  s.modField f fun y =>
    let x := y.descDyn n
    let y := y.setDyn n { x with st := 3, out := x.out.filter fun b => i != some b.index }
    if y.err then y
    else { y with err := true, errDesc := BitVec.ofNat 8 n,
                  fetchErr := BitVec.ofNat 52 (addr % 2 ^ 48 + cause * 2 ^ 48) }

/-! ## Arming (R247) -/

/-- The arm becomes active: number `k`, release base `r0`. -/
def DescDyn.activate (x : DescDyn) (copy : Line) (k r0 : BitVec 32) : DescDyn :=
  { x with st := 1, copy := copy, next := 0, arms := k, r0 := r0, home := 0, out := [] }

/-- An arm that is complete ends: the shadow's arm takes its place, or the descriptor is idle. -/
def State.settleDesc (s : State) (f n : Nat) : State :=
  let x := s.desc f n
  if !s.armComplete x then s
  else if x.st = 1 then s.setDesc f n { x with st := 0 }
  else if x.st = 2 then
    let y := x.activate x.shadow (x.arms + 1) (x.r0 + BitVec.ofNat 32 (descCount x.copy))
    (s.setDesc f n { y with farmer := x.shadowFarmer, shadowFarmer := none }).count (.fetch (BitVec.ofNat 4 f)) 0x45 0 1
  else s

/-- A FARM that tile `t` issued in cycle `c`, or that left its escrow queue in it, reaches descriptor `n` of engine `f`
(R247, R249, R339). -/
def State.farmReaches (s : State) (f n t : Nat) (c : Scc) (spec : Bool) : State :=
  let s := s.settleDesc f n
  let copy := Sparse.get 0 (s.field f).desc n
  let x := s.desc f n
  let mark (y : DescDyn) : DescDyn :=
    { y with farms := x.farms + 1
             spec := if spec && x.spec.isNone then some (BitVec.ofNat 10 t, x.st, x.farms) else x.spec }
  if x.st = 3 then s
  else if descKind copy = 0 then s.descError f n none 0 6
  else if x.st = 0 then
    let r0 := match descRtill copy with | some r => s.till r.toNat | none => 0
    s.setDesc f n (mark { (x.activate copy x.farms r0) with farmer := some (BitVec.ofNat 10 t, c) })
  else if x.st = 1 then
    s.setDesc f n (mark { x with st := 2, shadow := copy, shadowFarmer := some (BitVec.ofNat 10 t, c) })
  else s.unitHalt 3 f 0x0B 0 (BitVec.ofNat 32 n)

/-- FARM_ARRIVAL: the oldest FARM of a tile reaches the engine of its field. -/
def execFarmArrival (t : TileNo) (s : State) : Answer :=
  let x := s.tile t.toNat
  .next (match x.petty.farmOut with
    | (c, .farm d spec) :: _ =>
      if s.posted c then
        (s.modTile t.toNat fun y => { y with petty := { y.petty with farmOut := y.petty.farmOut.drop 1 } }).farmReaches
          (tileField t.toNat) d.toNat t.toNat c spec
      else s
    | _ => s)

/-- SHADOW_ACTIVATION (R247). -/
def execShadowActivation (f : BitVec 4) (desc : BitVec 8) (s : State) : Answer :=
  .next (if (s.desc f.toNat desc.toNat).st = 2 then s.settleDesc f.toNat desc.toNat else s)

/-! ## Blocks (R243, R248) -/

/-- What is wrong with the slice range of a block: the cause (R248). The window of an absent tile is a hole to the fetch
engine (R32). -/
def State.sliceError (s : State) (t a n : Nat) : Option Nat :=
  if !tileIn s.grade t || padTop < a + n then some 1
  else if (s.issueEnv t).escrow && escrowBase < a + n then some 4
  else if (linesAt a n).any (s.lineRefused t) then some 2
  else none

/-- A descriptor error at the slice side of block `i`: ADDR is the slice's device address of the block (R256). -/
def State.sliceFail (s : State) (f n : Nat) (i : BitVec 25) (cause : Nat) : State :=
  let x := s.desc f n
  s.descError f n (some i) (padAddr (descTile x.copy) (x.saddr i.toNat)) cause

/-- Whether an address lies in a DRAM region of R31, on whatever device. -/
def isDramAddr (a : Nat) : Bool := a < 0xC000000000 || (0x040000000000 ≤ a && a < 0x050000000000)

/-- A block in flight changes. -/
def State.modBlock (s : State) (f n : Nat) (i : BitVec 25) (g : Block → Block) : State :=
  s.modDesc f n fun x => { x with out := x.out.map fun b => if b.index = i && !b.done then g b else b }

/-- The words of a kind 1 block set out for the slice; those of a speculative fetch take escrow lines (R249). -/
def State.writeBlock (s : State) (f n t : Nat) (i : BitVec 25) (words : List Line) : State :=
  let x := s.desc f n
  let a := x.saddr i.toNat
  let spec := (x.out.find? fun b => b.index = i).any fun b => b.spec
  match s.sliceError t a (64 * words.length) with
  | some c => (if c = 2 then s.noteLate t else s).sliceFail f n i c
  | none =>
    let y := s.tile t
    let r := if spec then y.redirectAll y.esc.group (linesAt a (64 * words.length)) else .ok y
    match r with
    | .error e => s.tileHalt t s.fab.scc y.seq.pc e
    | .ok y =>
      let s := (s.modTile t fun z => { z with esc := { z.esc with reserved := y.esc.reserved } }).modBlock f n i fun b =>
        { b with left := words.length }
      words.zipIdx.foldl (fun s w => s.enqueueAccess t 1 (a / 64 + w.2) (some (w.1, maskFull)) (some (descGen x.copy))
        spec (.fetch (BitVec.ofNat 4 f) (BitVec.ofNat 8 n) i)) s

/-- The lines of a list of bytes. -/
def linesOf (bs : List Byte) : List Line :=
  (List.range ((bs.length + 63) / 64)).map fun k => BitVec.ofNat 512 (natOf ((bs.drop (64 * k)).take 64))

/-- The data of a block have come from DRAM, local or remote: kind 1 sets out for the slice, kind 2 waits for its FQ
end. -/
def State.blockData (s : State) (f n : Nat) (i : BitVec 25) (words : List Line) : State :=
  let x := s.desc f n
  if descKind x.copy = 1 then s.writeBlock f n (descTile x.copy) i words
  else s.modBlock f n i fun b => { b with left := 0, words := words.zipIdx.map fun w => (w.2, w.1) }

/-- A block whose DRAM lies on this device is read. -/
def State.issueLocal (s : State) (f n : Nat) (i : BitVec 25) (a : Int) (size : Nat) : State :=
  let x := s.desc f n
  let t := descTile x.copy
  match (if a < 0 || 2 ^ 48 ≤ a then Place.hole else place s.grade true a.toNat) with
  | .dram k b =>
    if 4096 < a.toNat % 4096 + size then s.descError f n (some i) a.toNat 3
    else if descKind x.copy = 3 then
      match s.sliceError t (x.saddr i.toNat) size with
      | some c => s.sliceFail f n i c
      | none =>
        let ls := linesAt (x.saddr i.toNat) size
        (ls.foldl (fun s l => s.enqueueAccess t 1 l none none false (.fetch (BitVec.ofNat 4 f) (BitVec.ofNat 8 n) i))
          s).modBlock f n i fun y => { y with left := ls.length }
    else
      match s.dramRead k b size with
      | (s, some bs) => s.blockData f n i (linesOf bs)
      | (s, none) => (s.modDesc f n fun y => { y with out := y.out.filter fun c => c.index != i }).dramHalt k a.toNat
  | _ => s.descError f n (some i) (a % 2 ^ 48).toNat 1

/-- A block whose DRAM lies behind a window channel asks for it (R309, R361). -/
def State.issueRemote (s : State) (f n c : Nat) (i : BitVec 25) (a : Int) (size : Nat) : State :=
  let e := (s.chan c).entry
  if a < chanBase e || (chanBase e + chanSize e : Int) < a + size || !isDramAddr a.toNat then
    s.descError f n (some i) (a % 2 ^ 48).toNat 1
  else if 4096 < a.toNat % 4096 + size then s.descError f n (some i) a.toNat 3
  else
    match s.physOf (chanDev e) with
    | none => s.descError f n (some i) a.toNat 1
    | some p =>
      let pk := { Packet.blank with vc := chanVc e, dst := p, addr := BitVec.ofNat 48 a.toNat,
                                    value := BitVec.ofNat 32 size }
      (s.modBlock f n i fun b => { b with left := size / 64 }).startTransfer c
        { tid := 0, tile := none, block := some (BitVec.ofNat 4 f, BitVec.ofNat 8 n, i), coins := 0, addr := pk.addr,
          left := size } [(.readReq, pk)]

/-- Another descriptor of the engine has waited for a tag longer, or as long under a lower number (R243). -/
def State.olderWaiter (s : State) (f n : Nat) : Bool :=
  let mine := (s.desc f n).waitingSince
  (s.field f).dyn.any fun y =>
    y.1 != n && s.permitted y.2 && (match y.2.waitingSince, mine with
      | some a, some b => a < b || (a = b && y.1 < n)
      | some _, none => true
      | none, _ => false)

/-- BLOCK_ISSUE (R243). -/
def execBlockIssue (f : BitVec 4) (desc : BitVec 8) (s : State) : Answer :=
  let n := desc.toNat
  let x := s.desc f.toNat n
  .next (
    if !fieldIn s.grade f.toNat || !s.permitted x then s
    else if 768 ≤ (s.field f.toNat).tagsOut then
      s.setDesc f.toNat n { x with waitingSince := some (x.waitingSince.getD s.clk.clk) }
    else if s.olderWaiter f.toNat n then s
    else
      let i := x.next
      let spec : Bool := match x.spec with | some (_, _, k) => k.toNat ≤ x.arms.toNat | none => false
      let s := (s.setDesc f.toNat n { x with
        next := i + 1, waitingSince := none
        out := x.out ++ [{ index := i, left := 0, words := [], spec := spec, done := false }] }).count
        (.fetch f) 0x40 0 1
      let a := x.daddr i.toNat
      let size := 64 * descBlk x.copy
      if descChan x.copy = localChan then s.issueLocal f.toNat n i a size
      else s.issueRemote f.toNat n (descChan x.copy) i a size)

/-! ## Tags come home (R244) -/

/-- The cycle that stamps an asynchronous push: in a running cycle the word can be popped from the next one; while no
cycle runs, from the cycle at which the fabric stands. -/
def State.asyncCyc (s : State) : Scc := if s.running then s.fab.scc else s.fab.scc - 1

/-- Blocks that are home in order leave the record, and each raises the arrival till (R244). -/
def State.advanceHome (s : State) (f n : Nat) : Nat → State
  | 0 => s
  | fuel + 1 =>
    let x := s.desc f n
    if x.out.any fun b => b.index = x.home && b.done then
      let s := s.setDesc f n { x with home := x.home + 1, out := x.out.filter fun b => b.index != x.home }
      let s := match descAtill x.copy with
        | some t => s.queueTill (.fetch (BitVec.ofNat 4 f)) { till := t, value := 1, fromChan := 0, dev := 0, tid := 0 }
        | none => s
      s.advanceHome f n fuel
    else s

/-- A block is home: its tag returns. -/
def State.blockHome (s : State) (f n : Nat) (i : BitVec 25) : State :=
  let blk := descBlk (s.desc f n).copy
  let s := s.modBlock f n i fun b => { b with done := true, words := [] }
  let s := (s.count (.fetch (BitVec.ofNat 4 f)) 0x41 0 1).count (.fetch (BitVec.ofNat 4 f)) 0x42 0 blk
  (s.advanceHome f n ((s.desc f n).out.length + 1)).settleDesc f n

/-- The words of a kind 2 block enter the FQ end as far as it has room; the block is home when all are in. An FQ end of an
absent tile is as a hole to the engine (R4, R32; DEDUCED, log entry 121). -/
def State.fillFq (s : State) (f n : Nat) (b : Block) : State :=
  let x := s.desc f n
  let t := descTile x.copy
  if !tileIn s.grade t then s.sliceFail f n b.index 1 else
  let q : BitVec 6 := BitVec.ofNat 6 (0x1B + descFq x.copy)
  let y := s.tile t
  let room := 64 - (y.end64 q).length
  let go := b.words.take room
  let s := s.modTile t fun z => z.setEnd64 q (z.end64 q ++ go.map fun w => { data := w.2, cyc := s.asyncCyc })
  let s := s.modBlock f n b.index fun c => { c with words := b.words.drop room }
  if b.words.length ≤ room then s.blockHome f n b.index else s

/-- The data that a burned block has asked of another device are on their way. -/
def State.burning (s : State) (f n : Nat) (i : BitVec 25) : Bool :=
  s.heath.channels.any fun c => c.2.transfers.any fun t =>
    t.burn && t.block = some (BitVec.ofNat 4 f, BitVec.ofNat 8 n, i)

/-- TAG_HOME (R244, R249). The tag of a burned block comes home when the data that it asked for have come. -/
def execTagHome (f : BitVec 4) (desc : BitVec 8) (block : BitVec 25) (s : State) : Answer :=
  let n := desc.toNat
  let x := s.desc f.toNat n
  .next (
    if x.burned.contains block then
      if s.burning f.toNat n block then s else
      (s.setDesc f.toNat n { x with burned := x.burned.erase block }).count (.fetch f) 0x44 0 1
    else
      match x.out.find? fun b => b.index = block && !b.done with
      | none => s
      | some b =>
        if b.left != 0 then s
        else if descKind x.copy = 2 then
          if block = x.home then s.fillFq f.toNat n b else s
        else if descKind x.copy = 3 then
          let a := (x.daddr block.toNat).toNat
          let bs := (List.range (descBlk x.copy)).flatMap fun k => bytesOf (Sparse.get 0 b.words k).toNat 64
          match place s.grade true a with
          | .dram k d => (s.dramWrite k d bs).blockHome f.toNat n block
          | _ => s.descError f.toNat n (some block) a 1
        else s.blockHome f.toNat n block)

/-- A line of a fetch block is refused at its bank or cannot be read: the block moves nothing further (R248). -/
def State.blockRefused (s : State) (t f n : Nat) (i : BitVec 25) (cause : Nat) : State :=
  (s.modTile t fun x => { x with pad := { x.pad with
    ureqs := x.pad.ureqs.filter fun r => r.owner != .fetch (BitVec.ofNat 4 f) (BitVec.ofNat 8 n) i } }).sliceFail f n i cause

/-- A granted access of a fetch block: a line written, or a line read for a kind 3 block (R244, R248). -/
def State.fetchGranted (s : State) (f n : Nat) (i : BitVec 25) (line : Nat) (read : Option Line) : State :=
  s.modBlock f n i fun b =>
    match read with
    | some d => { b with left := b.left - 1, words := Sparse.put (line - (s.desc f n).saddr i.toNat / 64) d b.words }
    | none => { b with left := b.left - 1 }

/-! ## Escrow and the engines (R249) -/

/-- At a commit the fetches of tile `t` stop being speculative. -/
def State.commitFetch (s : State) (t : Nat) : State :=
  (s.field (tileField t)).dyn.foldl (fun s y =>
    match y.2.spec with
    | some (u, _) =>
      if u.toNat = t then
        s.modDesc (tileField t) y.1 fun x => { x with spec := none, out := x.out.map fun b => { b with spec := false } }
      else s
    | none => s) s

/-- The transfers that serve blocks of descriptor `n` of engine `f` serve burned blocks from now on. -/
def Channel.burnBlocks (c : Channel) (f n : Nat) : Channel :=
  { c with transfers := c.transfers.map fun t => match t.block with
    | some (g, d, _) => if g.toNat = f && d.toNat = n then { t with burn := true } else t
    | none => t }

/-- At a discard the speculative fetches of tile `t` are undone. -/
def State.discardFetch (s : State) (t : Nat) : State :=
  let f := tileField t
  (s.field f).dyn.foldl (fun s y =>
    match y.2.spec with
    | some (u, st, farms) =>
      if u.toNat != t then s
      else
        let x := s.desc f y.1
        let target := descTile x.copy
        let s := s.modTile target fun z => { z with pad := { z.pad with ureqs := z.pad.ureqs.filter fun r =>
          !(r.spec && (match r.owner with | .fetch g d _ => g.toNat = f && d.toNat = y.1 | _ => false)) } }
        if st = 1 && x.arms.toNat < farms.toNat then
          s.setDesc f y.1 { x with st := 1, shadow := 0, farms := farms, spec := none, shadowFarmer := none }
        else
          let s := { s with heath := { s.heath with
            channels := s.heath.channels.map fun (c : Nat × Channel) => (c.1, c.2.burnBlocks f y.1) } }
          s.setDesc f y.1 { x with st := 0, shadow := 0, farms := farms, spec := none, out := [], shadowFarmer := none
                                   burned := x.burned ++ (x.out.filter fun b => !b.done).map fun b => b.index }
    | none => s) s

end Sys2Proof.Machine
end

