-- ==== Sys2Proof/Machine/Control.lean ====
section
/-!
DEFINITION. The C slot and loop ends (R99, R123–R133, R144–R146, R157–R159, R241, R334, R335), the samples of waits and
drains (R80, R85), and what a drain puts in force (R86, R234, R235).
-/
namespace Sys2Proof

/-! ## Counts and values (R125) -/

/-- A field combination of the C slot in which P, PIDX, IMM16 and LVL are unused. -/
def CSlot.bare (c : CSlot) : Bool := c.lvl = 0 && !c.p && c.pidx = 0 && c.imm = 0

/-- Either PIDX or IMM16 is in use, and the other is 0 (R123). -/
def CSlot.valueForm (c : CSlot) : Bool := if c.p then c.imm = 0 else c.pidx = 0

/-- The iteration or idle count of LOOP and IDLE. -/
def CSlot.count (c : CSlot) (x : Machine.Tile) : Except Machine.Failure (BitVec 25) :=
  if c.p then
    let v := x.param c.pidx
    if 1 ≤ v.toNat && v.toNat ≤ 16777216 then .ok (v.setWidth 25) else .error (Machine.paramRange 4 c.pidx)
  else if c.imm = 0 then .error (Machine.illegal 4) else .ok (c.imm.setWidth 25)

/-- A signed value: an immediate of 16 bits, or a parameter. -/
def CSlot.value (c : CSlot) (x : Machine.Tile) : BitVec 32 := if c.p then x.param c.pidx else c.imm.signExtend 32

end Sys2Proof

namespace Sys2Proof.Machine

def Tile.anyLoop (x : Tile) : Bool := x.bundle.any fun b => b.active != 0

def Tile.setCop (x : Tile) (op : Nat) : Tile := x.modBundle fun b => { b with cop := op }

/-! ## Loops, jumps, idling and the end (R126, R127, R130, R131) -/

def loopIssue (c : CSlot) (_ : IssueEnv) (x : Tile) : Except Failure Tile := do
  let start := x.iaddr.toNat + 1 + c.arg.toNat
  check (c.lvl.toNat < 6 && c.arg.toNat < 16 && c.valueForm && (c.p || c.imm != 0) && start ≤ 1535) (illegal 4)
  let k := c.lvl.toNat
  check ((List.range 6).all fun j => j < k || !(x.loop j).active) (inconsistent 4)
  let n ← c.count x
  .ok ((x.setLoop k { active := true, index := 0, start := BitVec.ofNat 11 start, count := n }).setCop 1)

def jumpIssue (c : CSlot) (_ : IssueEnv) (x : Tile) : Except Failure Tile := do
  check (c.bare && c.arg.toNat ≤ 1535) (illegal 4)
  check (!x.anyLoop) (inconsistent 4)
  .ok ({ x with seq := { x.seq with pc := c.arg.setWidth 11 } }.setCop 2)

def idleIssue (c : CSlot) (e : IssueEnv) (x : Tile) : Except Failure Tile := do
  check (c.lvl = 0 && c.arg = 0 && c.valueForm && (c.p || c.imm != 0)) (illegal 4)
  let n ← c.count x
  .ok ({ x with seq := { x.seq with idling := true, resumeAt := some (e.now + n.setWidth 48 + 1) } }.setCop 3)

def endIssue (c : CSlot) (_ : IssueEnv) (x : Tile) : Except Failure Tile := do
  check (c.bare && c.arg = 0) (illegal 4)
  .ok ({ x with seq := { x.seq with ended := true, run := false } }.setCop 4)

/-- The loop end over the levels of a list, innermost first (R131); the levels from `k` on close when all finish. -/
def Tile.closeLoops (x : Tile) (k : Nat) : List Nat → Tile
  | [] => (List.range 6).foldl (fun y j => if k ≤ j then y.setLoop j { y.loop j with active := false } else y) x
  | j :: js =>
    let l := x.loop j
    if j < k || !l.active then x.closeLoops k js
    else if l.index.toNat + 1 < l.count.toNat then
      let x := x.setLoop j { l with index := l.index + 1 }
      { x with seq := { x.seq with pc := l.start } }
    else (x.setLoop j { l with index := 0 }).closeLoops k js

/-- A header with LE = 1 (R102, R127, R130, R146, R159). -/
def loopEndIssue (level : BitVec 3) (rsv : BitVec 4) (_ : IssueEnv) (x : Tile) : Except Failure Tile := do
  check (rsv = 0 && level.toNat < 6) (illegal 4)
  check (x.bundle.any fun b => b.active.getLsbD level.toNat && !([2, 4, 0x21, 0x22, 0x23] : List Nat).contains b.cop)
    (inconsistent 4)
  .ok ((x.closeLoops level.toNat [5, 4, 3, 2, 1, 0]).modBundle fun b => { b with closed := true })

/-- A bundle whose slots are all NOP, with its header (R99, R102, R103). -/
def nopIssue (hdr : BitVec 8) (e : IssueEnv) (x : Tile) : Except Failure Tile := do
  let level := hdr.extractLsb' 1 3
  check (hdr.extractLsb' 4 4 = 0 && (hdr.getLsbD 0 || level = 0)) (illegal 4)
  if hdr.getLsbD 0 then loopEndIssue level 0 e x else .ok (x.modBundle fun b => { b with closed := true })

/-- A C-slot operation that chooses the next PC or the nest of its bundle, for the bundle's further checks. -/
def cUses (op : Nat) (b : Bundle) : Bundle := { b with cop := op }

/-- The pop of a verdict word, for the bundle's further checks. -/
def forkUses (op : Nat) (c : CSlot) (b : Bundle) : Bundle :=
  { b with cop := op, pops := (c.arg.extractLsb' 4 6).toNat :: b.pops }

/-- R130. -/
def execLoop (t : TileNo) (c : CSlot) (s : State) : Answer := .next (s.issue t 4 (loopIssue c) (cUses 1))
/-- R127. -/
def execJump (t : TileNo) (c : CSlot) (s : State) : Answer := .next (s.issue t 4 (jumpIssue c) (cUses 2))
/-- R126. -/
def execIdle (t : TileNo) (c : CSlot) (s : State) : Answer := .next (s.issue t 4 (idleIssue c) (cUses 3))
/-- R127. -/
def execEndProgram (t : TileNo) (c : CSlot) (s : State) : Answer := .next (s.issue t 4 (endIssue c) (cUses 4))
/-- R131. -/
def execLoopEnd (t : TileNo) (level : BitVec 3) (rsv : BitVec 4) (s : State) : Answer :=
  .next (s.issue t 5 (loopEndIssue level rsv))
/-- R103: nothing but the header of a bundle that no slot has opened. -/
def execNop (t : TileNo) (hdr : BitVec 8) (s : State) : Answer :=
  .next (if ((s.tile t.toNat).bundleIn s.fab.scc).isSome then s else s.issue t 6 (nopIssue hdr))

def slotNumber : Slot → Nat
  | .m => 0 | .v => 1 | .l => 2 | .s => 3 | .c => 4

/-- R141, R144. -/
def execReservedOpcodeIssue (t : TileNo) (slot : Slot) (s : State) : Answer :=
  .next (s.issue t (slotNumber slot) fun _ _ => .error (illegal (slotNumber slot)))

/-- IDLE_EXPIRY: at the end of cycle issue + n the tile is ready to issue again (R126). -/
def execIdleExpiry (t : TileNo) (s : State) : Answer :=
  let x := s.tile t.toNat
  .next (if s.running && x.seq.idling && x.seq.resumeAt = some (s.fab.scc + 1) then
      s.modTile t.toNat fun y => { y with seq := { y.seq with idling := false } }
    else s)

/-! ## Posted operations and escrow (R128, R157, R249, R337) -/

/-- Entries of the operation escrow queue that are taken: a PPUT takes its entry at its issue, and the operations of a
committed group keep theirs until their release (R338, R339, R344). -/
def Tile.heldCount (x : Tile) : Nat :=
  x.esc.held.length + x.esc.releasing.length + (x.petty.reqs.filter fun r => r.spec && r.kind = .pput).length

/-- A posted operation: in an open group it waits in the member's operation escrow queue, of 64 entries (R337,
R344). -/
def Tile.post (x : Tile) (now : Scc) (slot : Nat) (p : Posted) (go : Tile → Tile) : Except Failure Tile :=
  if x.speculative now then
    if 64 ≤ x.heldCount then .error (escrowMisuse slot 9 x.esc.group 0)
    else .ok { x with esc := { x.esc with held := x.esc.held ++ [(now, p)] } }
  else .ok (go x)

def Tile.outTill (x : Tile) (now : Scc) (p : Posted) : Tile :=
  { x with petty := { x.petty with tillOut := x.petty.tillOut ++ [(now, p)] } }
def Tile.outSignal (x : Tile) (now : Scc) (p : Posted) : Tile :=
  { x with petty := { x.petty with sigOut := x.petty.sigOut ++ [(now, p)] } }
def Tile.outFarm (x : Tile) (now : Scc) (p : Posted) : Tile :=
  { x with petty := { x.petty with farmOut := x.petty.farmOut ++ [(now, p)] } }

def tillIssue (sub : Bool) (c : CSlot) (e : IssueEnv) (x : Tile) : Except Failure Tile := do
  check (c.lvl = 0 && c.valueForm && !c.arg.getLsbD 15) (illegal 4)
  let p : Posted := .till (c.arg.setWidth 15) (c.value x) sub
  x.post e.now 4 p fun y => y.outTill e.now p

/-- A channel that an operation of the C slot names is routed over an absent link (R4, R167). -/
def linkPresent (absent : Option Nat) : Except Failure Unit :=
  match absent with
  | some k => .error (absentUnit 4 4 k)
  | none => .ok ()

def tsigIssue (absent : Option Nat) (c : CSlot) (e : IssueEnv) (x : Tile) : Except Failure Tile := do
  check (c.lvl = 0 && c.valueForm && !c.arg.getLsbD 14 && e.field.ckKind (c.arg.toNat % 16384) = 2) (illegal 4)
  linkPresent absent
  let p : Posted := .signal (c.arg.setWidth 14) (c.value x) (c.arg.getLsbD 15) e.now
  x.post e.now 4 p fun y => y.outSignal e.now p

/-- The members of group `g` in the row of tile `t` (R346, R347). -/
def Field.members (f : Field) (t : Nat) (g : BitVec 4) : BitVec 8 := Sparse.get 0 f.escDef (16 * tileRow t + g.toNat)

/-- The FARM leaves an open group at once (R249). -/
def farmLeaves (e : IssueEnv) (x : Tile) (d : Line) : Bool :=
  let u := descTile d
  descKind d = 1 && (descRtill d).isNone && (descAtill d).isNone
    && u / 8 = e.tile / 8 && (e.field.members e.tile x.esc.group).getLsbD (tileCol u)

/-- The channel that a descriptor names accepts its kind (R303). -/
def descChanOk (f : Field) (d : Line) : Bool :=
  descKind d = 0 || descChan d = localChan || (f.ckKind (descChan d) = 1 && descKind d != 3)

def farmIssue (absent : Nat → Option Nat) (c : CSlot) (e : IssueEnv) (x : Tile) : Except Failure Tile := do
  check (c.bare && c.arg.toNat < 256 && x.seq.farmMap.getLsbD c.arg.toNat) (illegal 4)
  let d := Sparse.get 0 e.field.desc c.arg.toNat
  if !descChanOk e.field d then
    .ok { x with pad := { x.pad with fails := x.pad.fails ++
      [{ cyc := e.now + 3, iaddr := x.iaddr, slot := 4, reason := 7, subcode := 1, detail := 4 }] } }
  else do
    linkPresent (if descKind d = 0 then none else absent (descChan d))
    if x.speculative e.now && farmLeaves e x d then .ok (x.outFarm e.now (.farm (c.arg.setWidth 8) true))
    else
      let p : Posted := .farm (c.arg.setWidth 8) false
      x.post e.now 4 p fun y => y.outFarm e.now p

/-- R128. -/
def execTadd (t : TileNo) (c : CSlot) (s : State) : Answer := .next (s.issue t 4 (tillIssue false c))
/-- R128. -/
def execTsub (t : TileNo) (c : CSlot) (s : State) : Answer := .next (s.issue t 4 (tillIssue true c))
/-- R157. -/
def execTsig (t : TileNo) (c : CSlot) (s : State) : Answer :=
  .next (s.issue t 4 (tsigIssue (s.absentLink (c.arg.toNat % 16384)) c))
/-- R241, R249. -/
def execFarm (t : TileNo) (c : CSlot) (s : State) : Answer := .next (s.issue t 4 (farmIssue s.absentLink c))

/-! ## Address generators (R133) and the generation (R159) -/

/-- The word takes its value at the end of the cycle, so no slot of the same bundle sees it (R107, R133). -/
def agIssue (add : Bool) (c : CSlot) (_ : IssueEnv) (x : Tile) : Except Failure Tile := do
  check (c.lvl = 0 && c.valueForm && c.arg.toNat < 112) (illegal 4)
  let k := 8 * (c.arg.toNat % 16) + c.arg.toNat / 16
  let v := if add then Sparse.get 0 x.seq.ag k + c.value x else c.value x
  .ok (x.modBundle fun b => { b with agw := some (k, v) })

/-- The working copy at the end of the cycle of an AGSET or AGADD. -/
def Tile.settleAg (x : Tile) : Tile :=
  match x.bundle with
  | some b =>
    match b.agw with
    | some (k, v) => { x with
        seq := { x.seq with ag := Sparse.set 0 x.seq.ag k v }, bundle := some { b with agw := none } }
    | none => x
  | none => x

def genIssue (c : CSlot) (_ : IssueEnv) (x : Tile) : Except Failure Tile := do
  check (c.bare && c.arg = 0 && x.seq.genEn) (illegal 4)
  check (x.bundle.any fun b => b.mvop = 0 && !b.lop && b.sop = 0) (inconsistent 4)
  .ok ({ x with seq := { x.seq with gen := x.seq.gen + 1 } }.setCop 0x23)

/-- R133. -/
def execAgset (t : TileNo) (c : CSlot) (s : State) : Answer := .next (s.issue t 4 (agIssue false c))
/-- R133. -/
def execAgadd (t : TileNo) (c : CSlot) (s : State) : Answer := .next (s.issue t 4 (agIssue true c))
/-- R159. -/
def execGen (t : TileNo) (c : CSlot) (s : State) : Answer := .next (s.issue t 4 (genIssue c) (cUses 0x23))

/-! ## Escrow forks (R145, R146, R334, R335, R345) -/

/-- The tile stands in one of the four cycles after its ERES (R339, R342). -/
def Tile.afterEres (x : Tile) (now : Scc) : Bool :=
  match x.esc.resolvedAt with
  | some r => sccGe now (r + 1) && !sccGe now (r + 5)
  | none => false

def eopenIssue (c : CSlot) (e : IssueEnv) (x : Tile) : Except Failure Tile := do
  check (c.bare && c.arg.toNat < 16) (illegal 4)
  check (e.grade != 2) (absentUnit 4 6 0)
  let g : BitVec 4 := c.arg.setWidth 4
  check (e.escrow && (e.field.members e.tile g).getLsbD (tileCol e.tile)) (escrowMisuse 4 3 g 0)
  check (x.esc.openedAt.isNone && !x.afterEres e.now) (escrowMisuse 4 4 g 0)
  .ok ({ x with esc := { x.esc with openedAt := some e.now, group := g } }.setCop 0x20)

/-- The verdict word that stands in the named end would make the PC 1,536, which is an illegal encoding (R127). -/
def verdictRunsOff (c : CSlot) (e : IssueEnv) (x : Tile) : Bool :=
  x.iaddr = 1535 && (match x.end64 (c.arg.extractLsb' 4 6) with
    | w :: _ => w.cyc != e.now && w.mark != 2 && w.data.getLsbD 0
    | [] => false)

/-- The verdict of ERES or VBR: the tile after the pop, and bit 0 of the word (R146). -/
def verdict (c : CSlot) (e : IssueEnv) (x : Tile) : Except Failure (Tile × Bool) := do
  let (w, y) ← x.pop64 e.now 4 (c.arg.extractLsb' 4 6)
  let v := w.getLsbD 0
  .ok (if v then y else { y with seq := { y.seq with pc := c.imm.setWidth 11 } }, v)

/-- The fields that ERES and VBR share (R145, R146). -/
def forkForm (c : CSlot) : Bool :=
  c.lvl = 0 && !c.p && c.pidx = 0 && c.imm.toNat ≤ 1535 && c.arg.toNat < 1024 && qeIsSI (c.arg.extractLsb' 4 6)

def eresIssue (c : CSlot) (e : IssueEnv) (x : Tile) : Except Failure Tile := do
  check (forkForm c && !verdictRunsOff c e x) (illegal 4)
  check (e.grade != 2) (absentUnit 4 6 0)
  check (!x.anyLoop && (x.bundle.any fun b => !b.lop && b.sop = 0) && !x.popped (c.arg.extractLsb' 4 6)) (inconsistent 4)
  let g : BitVec 4 := c.arg.setWidth 4
  check (x.speculative e.now && x.esc.group = g) (escrowMisuse 4 6 g 0)
  let (y, v) ← verdict c e x
  .ok ({ y with esc := { y.esc with resolvedAt := some e.now, committed := v } }.setCop 0x21)

def vbrIssue (c : CSlot) (e : IssueEnv) (x : Tile) : Except Failure Tile := do
  check (forkForm c && c.arg.toNat % 16 = 0 && !verdictRunsOff c e x) (illegal 4)
  check (!x.anyLoop) (inconsistent 4)
  let (y, _) ← verdict c e x
  .ok (y.setCop 0x22)

/-- R334. -/
def execEopen (t : TileNo) (c : CSlot) (s : State) : Answer := .next (s.issue t 4 (eopenIssue c) (cUses 0x20))
/-- R335, R339, R341; the group resolves at the end of the cycle. -/
def execEres (t : TileNo) (c : CSlot) (s : State) : Answer := .next (s.issue t 4 (eresIssue c) (forkUses 0x21 c))
/-- R145. -/
def execVbr (t : TileNo) (c : CSlot) (s : State) : Answer := .next (s.issue t 4 (vbrIssue c) (forkUses 0x22 c))

/-! ## Waits (R80, R125, R129, R158) -/

def waitIssue (c : CSlot) (e : IssueEnv) (x : Tile) : Except Failure Tile := do
  let k := c.lvl.toNat
  let q : BitVec 6 := c.arg.setWidth 6
  let depth := qeDepth q
  let ok : Bool :=
    if k = 0 then c.valueForm && c.arg.toNat < 64 && (q = qePQ || qeIsFQ q)
      && (c.p || (1 ≤ c.imm.toNat && c.imm.toNat ≤ depth))
    else if k = 1 then c.valueForm && !c.arg.getLsbD 15
    else if k = 2 then !c.p && c.pidx = 0 && c.imm = 0 && c.arg.toNat < 256
    else if k = 3 then !c.p && c.pidx = 0 && c.imm.toNat ≤ 63 && c.arg = 0
    else if k = 4 then !c.p && c.pidx = 0 && c.imm.toNat ≤ 15 && c.arg = 0
    else false
  check ok (illegal 4)
  let n := c.value x
  check (!(k = 0 && c.p) || (1 ≤ n.toNat && n.toNat ≤ depth)) (paramRange 4 c.pidx)
  .ok { x with waits := x.waits ++ [{ issued := e.now, iaddr := x.iaddr, kind := c.lvl, n := n, arg := c.arg }] }

/-- Petty transfers of the tile that are outstanding; a held PPUT is one of them (R156, R338). -/
def Tile.pettyOut (x : Tile) : Nat :=
  (x.petty.reqs.filter fun r => r.kind != .gpost).length + x.petty.transfers.length

def Posted.isPost : Posted → Bool
  | .gpost _ _ _ _ => true
  | _ => false

/-- Gleaner posts of the tile that are outstanding, the held ones included (R152, R338). -/
def Tile.postOut (x : Tile) : Nat :=
  (x.petty.reqs.filter fun r => r.kind = .gpost).length + x.petty.posts.length + x.petty.latePosts.length
    + (x.esc.held.filter fun h => h.2.isPost).length + (x.esc.releasing.filter fun h => h.2.isPost).length

/-- The condition of a wait holds (R129, R158). -/
def State.waitMet (s : State) (t : Nat) (w : Wait) : Bool :=
  let x := s.tile t
  if w.kind = 0 then w.n.toNat ≤ (x.end64 (w.arg.setWidth 6)).length
  else if w.kind = 1 then w.n.toInt ≤ (s.tillRead (BitVec.ofNat 15 w.arg.toNat)).toInt
  else if w.kind = 2 then s.tagsHome (tileField t) (w.arg.toNat % 256)
  else if w.kind = 3 then x.pettyOut ≤ w.n.toNat
  else x.postOut ≤ w.n.toNat

/-- R80, R158. -/
def execWait (t : TileNo) (c : CSlot) (s : State) : Answer := .next (s.issue t 4 (waitIssue c))

/-- WAIT_SAMPLE: in cycle w + 8 the wait's condition holds, or the tile requests a hold (R80). -/
def execWaitSample (t : TileNo) (s : State) : Answer :=
  let n := t.toNat
  .next (
    if !s.running then s
    else
      match (s.tile n).waits.find? fun w => w.issued + 8 = s.fab.scc with
      | none => s
      | some w =>
        let met := s.waitMet n w
        let s := s.modTile n fun x => { x with waits := x.waits.filter fun v => v != w }
        if met then s
        else
          let s := s.modTile n fun x => x.count 0x07 1
          let h : HeldWait := { tile := t, wait := w, metAt := none }
          { s with fab := { s.fab with hold := { s.fab.hold with waits := s.fab.hold.waits ++ [h] } } }.requestHold .wait
            s.fab.scc)

/-! ## Drains (R84–R87) -/

def drainIssue (c : CSlot) (e : IssueEnv) (x : Tile) : Except Failure Tile := do
  check (c.bare && c.arg.toNat < 32) (illegal 4)
  let d : TileDrain := { cyc := e.now, iaddr := x.iaddr, set := c.arg.setWidth 4, count := c.arg.getLsbD 4 }
  .ok { x with drains := x.drains ++ [d] }

/-- R84, R86; the checks of the drain fall at the end of the cycle. -/
def execDrain (t : TileNo) (c : CSlot) (s : State) : Answer := .next (s.issue t 4 (drainIssue c))

/-- The DRAIN that the tile issued in cycle `c`. -/
def Tile.drainOf (x : Tile) (c : Scc) : Option TileDrain := x.drains.find? fun d => d.cyc = c

/-- The first unmet part of the drain condition, numbered as R82 numbers it; none when the condition holds (R85). -/
def State.drainUnmet (s : State) : Option Nat :=
  if s.fab.fields.any fun f => f.2.dyn.any fun d => !s.tagsHome f.1 d.1 then some 0
  else if s.fab.tiles.any fun x => x.2.pettyOut != 0 || !x.2.petty.farmOut.isEmpty then
    (if s.fab.tiles.any fun x => !x.2.petty.farmOut.isEmpty then some 0 else some 1)
  else if s.heath.channels.any fun c => !c.2.spill.isEmpty then some 2
  else if s.heath.receivers.any fun r => r.2.parts.any fun p => p.sig.isSome then some 3
  else none

/-- Words in a queue end, by its number (R67, R104). -/
def Tile.wordsIn (x : Tile) (q : Nat) : Nat :=
  if q = 0x11 then x.mx.mw.length
  else (x.end64 (BitVec.ofNat 6 q)).length + (x.vq (BitVec.ofNat 6 q)).length

/-- The first end of a list of queue ends that holds words. Of several such ends of one tile the record names the
lowest-numbered; the spec does not say which (DESIGN CHOICE, log entry 94). -/
def Tile.leftover (x : Tile) (qs : List Nat) : Option Failure :=
  match qs.find? fun q => x.wordsIn q != 0 with
  | some q => some { slot := 4, reason := 3, subcode := 1, detail := BitVec.ofNat 32 (q + 256 * x.wordsIn q) }
  | none => none

/-- One drain of the program changes. -/
def State.modDrain (s : State) (c : Scc) (g : Drain → Drain) : State :=
  { s with fab := { s.fab with drains := s.fab.drains.map fun (d : Drain) => if d.cyc = c then g d else d } }

/-- The check of PQ and FQ_0–FQ_3 once the condition of a drain holds (R85). -/
def State.drainCheck (s : State) (c : Scc) : State :=
  let s := s.modDrain c fun d => { d with checked := true }
  s.fab.tiles.foldl (fun s x =>
    match x.2.drainOf c, x.2.leftover [0x1A, 0x1B, 0x1C, 0x1D, 0x1E] with
    | some d, some f => s.tileHalt x.1 s.fab.scc d.iaddr f
    | _, _ => s) s

/-- The drain whose sample falls in the current cycle. -/
def State.sampleDue (s : State) : Option Drain :=
  s.fab.drains.find? fun d => d.cyc + 8 = s.fab.scc && !d.sampled

/-- DRAIN_SAMPLE: in cycle D + 8 (R85, R87). -/
def execDrainSample (s : State) : Answer :=
  .next (match s.sampleDue with
    | none => s
    | some d =>
      if !s.running then s
      else
        let s := s.modDrain d.cyc fun x => { x with sampled := true }
        let s := if s.drainUnmet.isSome then s.requestHold .drain s.fab.scc else s.drainCheck d.cyc
        if d.count then s.requestHold .steward s.fab.scc else s)

/-- The fields of the device. -/
def State.presentFields (s : State) : List Nat := (List.range 16).filter (fieldIn s.grade)

/-- The set that a drain puts in force at the end of the current cycle, D + 31 (R86). -/
def State.setDue (s : State) : Option (BitVec 4) :=
  (s.fab.drains.find? fun d => d.set.isSome && d.cyc + 31 = s.fab.scc).bind fun d => d.set

/-- SPINE_SET_SWITCH: at the end of D + 31 the named set comes into force (R86). -/
def execSpineSetSwitch (s : State) : Answer :=
  .next (match s.setDue with
    | some k =>
      if s.running then s.presentFields.foldl (fun s f => s.modField f fun y => { y with spineCur := k }) s else s
    | none => s)

/-! ## Fallow banks (R234, R235) -/

/-- Every line, codeword and stamp of a bank is zero. -/
def State.clearBank (s : State) (t b : Nat) : State :=
  let inBank (a : Nat) : Bool := padAddr t 0 ≤ a && a < padAddr t padTop && padBank (a - padAddr t 0) = b
  { s with mem := s.mem.filter fun c => !inBank c.1, ecc := s.ecc.filter fun c => !inBank (c.1 * 16) }.modTile t
    fun x => { x with
      pad := { x.pad with stamps := x.pad.stamps.filter fun c => c.1 % 16 != b }
      marks := x.marks.filter fun c => !(c.1 < 65536 && c.1 % 16 = b) }

/-- FALLOW_BANK_POWER_DOWN: at the end of D + 31 (R234). -/
def execFallowBankPowerDown (t : TileNo) (bank : BitVec 4) (s : State) : Answer :=
  let n := t.toNat
  let b := bank.toNat
  .next (match s.setDue with
    | some k =>
      if s.running && tileIn s.grade n && ((s.field (tileField n)).fallowMask k n).getLsbD b
          && !(s.tile n).pad.fallow.getLsbD b then
        (s.clearBank n b).modTile n fun x => { x with pad := { x.pad with
          fallow := x.pad.fallow ||| ((1 : BitVec 16) <<< b)
          waking := x.pad.waking &&& ~~~((1 : BitVec 16) <<< b)
          wakeAt := Sparse.erase b x.pad.wakeAt } }
      else s
    | none => s)

/-- BANK_WAKE_COMPLETE: at the end of cycle D + 1,343 the bank is filled, so it is ready from cycle D + 1,344 (R235). -/
def execBankWakeComplete (t : TileNo) (bank : BitVec 4) (s : State) : Answer :=
  let n := t.toNat
  let b := bank.toNat
  .next (match Sparse.find? b (s.tile n).pad.wakeAt with
    | some w =>
      if (s.tile n).pad.waking.getLsbD b && sccGe (s.fab.scc + 1) w then
        (s.clearBank n b).modTile n fun x => { x with pad := { x.pad with
          waking := x.pad.waking &&& ~~~((1 : BitVec 16) <<< b), wakeAt := Sparse.erase b x.pad.wakeAt } }
      else s
    | none => s)

/-- A bank of the tile ends its zero fill with the current cycle. -/
def Tile.wakeDue (x : Tile) (now : Scc) : Bool :=
  x.pad.wakeAt.any fun w => x.pad.waking.getLsbD w.1 && sccGe (now + 1) w.2

end Sys2Proof.Machine
end

