-- ==== Sys2Proof/Machine/Petty.lean ====
section
/-!
DEFINITION. The petty path and gleaner posting in the tile (R150–R157, R250–R252, R272, R273, R315, R338): issue, the
request line, local transfers, and their completion.
-/
namespace Sys2Proof.Machine

/-! ## Issue (R150, R152, R153, R156) -/

def reqIssue (kind : ReqKind) (role : BitVec 6 → Bool) (l : LSlot) (e : IssueEnv) (x : Tile) : Except Failure Tile := do
  check (l.rsv = 0 && role l.qe && l.ag2 = 0 && l.off2 = 0 && !l.chk) (illegal 2)
  check (!(kind = .gpost && e.grade = 2)) (absentUnit 2 3 0)
  let ends := if kind = .pput then [l.qe].filter qePops else []
  let a := padAlign false (x.agAddr l.ag l.off)
  padAbsent e a
  check (!ends.any x.popped) (inconsistent 2)
  escrowCheck e x a
  let spec := x.speculative e.now
  check (!(spec && kind = .pput && 64 ≤ x.heldCount)) (escrowMisuse 2 9 x.esc.group 0)
  x.endsReady e.now 2 ends
  check (kind = .gpost || x.pettyOut < 64) (qOver 2 0x1A 64)
  check (kind != .gpost || x.postOut < 16) (qOver 2 l.qe.toNat 16)
  bankCheck e x false false a
  let (d, x) ←
    if kind != .pput then .ok ((0 : Vec), x)
    else if qeIsVQ l.qe then x.popV e.now 2 l.qe
    else do
      let y ← x.readMark 3 (l.qe.toNat - 0x20) 2 (l.qe.toNat - 0x20)
      .ok (y.vreg l.qe, y)
  let x := (x.noteAccess e.now false false a).count 0x06 1
  let r : ReqLine :=
    { kind := kind, addr := BitVec.ofNat 21 a, qe := l.qe, issued := e.now, iaddr := x.iaddr
      number := if kind = .gpost then x.petty.nextPost else x.petty.nextPetty
      line := none, data := d, spec := spec }
  .ok { x with petty := { x.petty with
    reqs := x.petty.reqs ++ [r]
    nextPetty := if kind = .gpost then x.petty.nextPetty else x.petty.nextPetty + 1
    nextPost := if kind = .gpost then x.petty.nextPost + 1 else x.petty.nextPost } }

/-- R153: the destination is PQ. -/
def execPget (t : TileNo) (l : LSlot) (s : State) : Answer := .next (s.issue t 2 (reqIssue .pget (fun q => q = qePQ) l))
/-- R153: the source is a VQ or a vector register. -/
def execPput (t : TileNo) (l : LSlot) (s : State) : Answer :=
  .next (s.issue t 2 (reqIssue .pput (fun q => qeIsVQ q || qeIsReg q) l) (lUses l true))
/-- R150: the results go to an FQ end or nowhere. -/
def execGpost (t : TileNo) (l : LSlot) (s : State) : Answer :=
  .next (s.issue t 2 (reqIssue .gpost (fun q => qeIsFQ q || q = qeNone) l))

/-- The samples of request lines at the start of cycle issue + 1 (R227). -/
def State.sampleReqs (s : State) (t : Nat) : State :=
  (s.tile t).petty.reqs.foldl (fun s r =>
    if r.issued + 1 != s.fab.scc then s
    else
      let x := s.tile t
      let n := x.readLine (r.addr.toNat / 64)
      let a := padAddr t (64 * n)
      let c := s.eccCorrectable a 64
      let s := if c = 0 then s else s.modTile t fun y => y.count 0x08 c
      let rest := (s.tile t).petty.reqs.filter fun q => q != r
      if s.eccOf a 64 = 2 then
        let f : LateFail := { cyc := r.issued + 3, iaddr := r.iaddr, slot := 2, reason := 0x0E, subcode := 0,
                              detail := BitVec.ofNat 32 a }
        s.modTile t fun y => { y with petty := { y.petty with reqs := rest }, pad := { y.pad with fails := y.pad.fails ++ [f] } }
      else
        let line := s.padLine t n
        s.modTile t fun y => { y with petty := { y.petty with
          reqs := y.petty.reqs.map fun q => if q = r then { r with line := some line } else q } }) s

/-! ## The petty request line (R154) -/

def lineChan (d : Line) : Nat := (d.extractLsb' 0 14).toNat
def lineAddr (d : Line) : Nat := (d.extractLsb' 16 48).toNat
def lineLen (d : Line) : Nat := (d.extractLsb' 64 16).toNat
def lineSig (d : Line) : Bool := d.getLsbD 80
def lineGen (d : Line) : BitVec 2 := d.extractLsb' 81 2

/-- The line keeps to the table of R154 and its channel accepts the transfer (R303). -/
def pettyLineOk (f : Field) (put : Bool) (d : Line) : Bool :=
  let kind := f.ckKind (lineChan d)
  let ring := kind = 3 || kind = 4
  d.extractLsb' 14 2 = 0 && 1 ≤ lineLen d && lineLen d ≤ 256
    && (if ring then lineAddr d = 0 else lineAddr d % 256 + lineLen d ≤ 256)
    && (put || !lineSig d) && d.extractLsb' 83 13 = 0 && !d.getLsbD 111 && d.extractLsb' 112 16 = 0
    && (lineSig d || d.extractLsb' 96 64 = 0) && d.extractLsb' 160 352 = 0
    && (if put then kind = 1 || (ring && !lineSig d) else kind = 1)

/-! ## The gleaner request line (R272, R273) -/

def postEntry (d : Line) : Nat := (d.extractLsb' 0 10).toNat
def postStack (d : Line) : Nat := (d.extractLsb' 16 8).toNat
def postStatus (d : Line) : Bool := d.getLsbD 24
def postWr (d : Line) : Bool := d.getLsbD 25
def postItems (d : Line) : Nat := (d.extractLsb' 32 32).toNat
def postOutw (d : Line) : Nat := (d.extractLsb' 64 8).toNat
def postElems (d : Line) : Nat := (d.extractLsb' 72 8).toNat
def postOfmt (d : Line) : Nat := (d.extractLsb' 80 8).toNat
def postSegop (d : Line) : Nat := (d.extractLsb' 88 8).toNat
def postSegn (d : Line) : Nat := (d.extractLsb' 96 32).toNat
def postParam (d : Line) (k : Nat) : BitVec 64 := d.extractLsb' (128 + 64 * k) 64

/-- The width in bytes of an element of OFMT (R272). -/
def ofmtBytes (f : Nat) : Nat := if f = 6 then 4 else if f = 5 then 2 else 1

def postLineOk (qe : BitVec 6) (d : Line) : Bool :=
  d.extractLsb' 10 6 = 0 && postStack d < 12 && d.extractLsb' 26 6 = 0
    && 1 ≤ postItems d && postItems d ≤ 1048576 && postOutw d ≤ 64 && 1 ≤ postElems d && postElems d ≤ 128
    && (postOfmt d = 2 || postOfmt d = 3 || postOfmt d = 5 || postOfmt d = 6) && postSegop d ≤ 3
    && (if postSegop d = 0 then postSegn d = 1 else 2 ≤ postSegn d && postSegn d ≤ 65536)
    && postItems d % postSegn d = 0
    && (postSegop d = 0 || postOutw d = (postElems d * ofmtBytes (postOfmt d) + 63) / 64)
    && (qe != qeNone || (postOutw d = 0 && !postStatus d))

/-! ## Starting -/

def State.modPetty (s : State) (t : Nat) (n : BitVec 32) (g : Petty → Petty) : State :=
  s.modTile t fun x => { x with petty := { x.petty with
    transfers := x.petty.transfers.map fun p => if p.number = n then g p else p } }

def State.pettyOf (s : State) (t : Nat) (n : BitVec 32) : Option Petty :=
  (s.tile t).petty.transfers.find? fun p => p.number = n

/-- The data of a PPUT (R153). -/
def Petty.bytes (p : Petty) : List Byte := bytesOf p.data.toNat p.len.toNat

/-- A transfer on the local channel (R303): a PGET of a slice waits for its lines, a PPUT of a slice for its banks. -/
def State.startLocal (s : State) (t : Nat) (p : Petty) : State :=
  let owner : UOwner := .petty (BitVec.ofNat 10 t) p.number
  let n := p.len.toNat
  if p.put then
    let (s, e, w) := s.asyncWrite p.addr.toNat p.bytes 2 (some p.gen) false owner
    let place (c : BitVec 8) : Nat := if c = 2 then p.addr.toNat / 64 else p.addr.toNat
    s.modPetty t p.number fun q => { q with phase := 1, err := e.map fun c => (c.toNat, place c), left := w }
  else
    match place s.grade true p.addr.toNat, place s.grade true (p.addr.toNat + n - 1) with
    | .dram _ _, .dram _ _ => s.modPetty t p.number fun q => { q with phase := 1 }
    | .pad u o, .pad _ _ =>
      let ls := linesAt o n
      if (s.issueEnv u).escrow && escrowBase < o + n then
        s.modPetty t p.number fun q => { q with phase := 1, err := some (1, p.addr.toNat) }
      else
        match ls.find? (s.lineRefused u) with
        | some l => s.modPetty t p.number fun q => { q with phase := 1, err := some (2, l) }
        | none =>
          (ls.foldl (fun s l => s.enqueueAccess u 2 l none none false owner) s).modPetty t p.number fun q =>
            { q with phase := 1, left := ls.length }
    | _, _ => s.modPetty t p.number fun q => { q with phase := 1, err := some (1, p.addr.toNat) }

/-- A transfer over a window channel (R309, R361). -/
def State.startWindow (s : State) (t : Nat) (p : Petty) : State :=
  let c := p.chan.toNat
  let e := (s.chan c).entry
  let n := p.len.toNat
  let hole := s.modPetty t p.number fun q => { q with phase := 1, err := some (1, p.addr.toNat) }
  if p.addr.toNat < chanBase e || chanBase e + chanSize e < p.addr.toNat + n then hole
  else
    match s.physOf (chanDev e) with
    | none => hole
    | some d =>
      let pk := { Packet.blank with vc := chanVc e, dst := d, addr := p.addr }
      let tr : Transfer := { tid := 0, tile := some (BitVec.ofNat 10 t, p.number), block := none, coins := 0,
                             addr := p.addr, left := n }
      let s := s.modPetty t p.number fun q => { q with phase := 1, left := n }
      if p.put then
        let (sig, till, v) : Bool × BitVec 15 × BitVec 32 :=
          match p.sig with | some (a, b) => (true, a, b) | none => (false, 0, 0)
        s.startTransfer c tr [(.write, { pk with
          data := p.bytes, sig := sig, till := till, value := v, gen := some p.gen })]
      else s.startTransfer c tr [(.readReq, { pk with value := BitVec.ofNat 32 n })]

/-- A petty transfer leaves its tile. -/
def State.startPetty (s : State) (t : Nat) (n : BitVec 32) : State :=
  match s.pettyOf t n with
  | none => s
  | some p =>
    if p.phase != 0 then s
    else if p.chan.toNat = localChan then s.startLocal t p
    else
      match s.absentLink p.chan.toNat with
      | some k => s.modPetty t n fun q => { q with phase := 1, err := some (4, k) }
      | none =>
        let k := chanKind (s.chan p.chan.toNat).entry
        if k = 3 || k = 4 then
          let m : Message := { tile := some (BitVec.ofNat 10 t, n), ticket := 0, data := p.bytes, gen := some p.gen }
          let copies := if k = 4 then chanMcount (s.chan p.chan.toNat).entry else 1
          (s.modPetty t n fun q => { q with phase := 1, left := copies }).modChan p.chan.toNat fun ch =>
            { ch with queue := ch.queue ++ [m] }
        else s.startWindow t p

/-- A post enters the intake of its stack (R150, R271). -/
def State.startPost (s : State) (t : Nat) (q : LatePost) : State :=
  let k := q.stack.toNat
  let n := (s.stack k).nextPost
  let p : Post := { number := n, tile := BitVec.ofNat 10 t, qe := q.qe, spec := q.spec, line := q.line }
  (s.modStack k fun x => { x with nextPost := n + 1, intake := x.intake ++ [p] }).modTile t fun x =>
    { x with petty := { x.petty with posts := x.petty.posts ++
      [{ number := q.number, stack := q.stack, post := n, qe := q.qe, spec := q.spec }] } }

/-- The tile still holds a post to stack `k` that it issued before post `n` (R151). -/
def Tile.earlierHeld (x : Tile) (k : BitVec 4) (n : BitVec 32) : Bool :=
  (x.esc.held ++ x.esc.releasing).any fun h =>
    match h.2 with
    | .gpost m j _ _ => j = k && (m - n).msb
    | _ => false

/-- A post starts, unless the tile still holds an earlier post to the same stack: then it waits for that one (R151). One
that leaves an open group at once does not wait (R337). -/
def State.queuePost (s : State) (t : Nat) (q : LatePost) : State :=
  if !q.spec && (s.tile t).earlierHeld q.stack q.number then
    s.modTile t fun x => { x with petty := { x.petty with latePosts := x.petty.latePosts ++ [q] } }
  else s.startPost t q

/-- The posts that wait for no earlier one start, in issue order. -/
def State.startLate (s : State) (t : Nat) : State :=
  (s.tile t).petty.latePosts.foldl (fun s q => s.queuePost t q)
    (s.modTile t fun x => { x with petty := { x.petty with latePosts := [] } })

/-- An operation joins the operation escrow queue at its place in issue order; the L slot stands before the C slot
of its bundle. -/
def holdAt (c : Scc) (p : Posted) : List (Scc × Posted) → List (Scc × Posted)
  | [] => [(c, p)]
  | h :: hs => if sccGe h.1 c then (c, p) :: h :: hs else h :: holdAt c p hs

/-- The request was speculative and its group has been discarded since (R337, R341). -/
def Tile.discarded (x : Tile) (r : ReqLine) : Bool := r.spec && x.esc.openedAt.isNone && !x.esc.committed

/-- The petty transfer of a request line is held or starts; the reply of a discarded one is burned on arrival (R154,
R155, R337). -/
def State.pettyRead (s : State) (t : Nat) (r : ReqLine) (d : Line) : State :=
  let put : Bool := r.kind = .pput
  let f := s.field (tileField t)
  let fail (e : Failure) : State := s.tileHalt t s.fab.scc r.iaddr e
  let kind := f.ckKind (lineChan d)
  let n := (lineLen d + 63) / 64
  if !pettyLineOk f put d then fail (illegal 2)
  else
    if (kind = 3 || kind = 4) && f.ckCoins (lineChan d) < n then
      fail { slot := 2, reason := 0x0D, subcode := 0, detail := BitVec.ofNat 32 n }
    else
      let held := put && r.spec
      let p : Petty :=
        { number := r.number, iaddr := r.iaddr, put := put, chan := d.extractLsb' 0 14, addr := d.extractLsb' 16 48
          len := BitVec.ofNat 9 (lineLen d)
          sig := if lineSig d then some (d.extractLsb' 96 15, d.extractLsb' 128 32) else none
          gen := lineGen d, data := r.data, phase := 0, burn := (s.tile t).discarded r
          spec := r.spec && (s.tile t).esc.openedAt.isSome
          left := 0, lines := [], words := [], err := none, cyc := r.issued }
      let s := s.modTile t fun x => { x with
        petty := { x.petty with transfers := x.petty.transfers ++ [p] }
        esc := if held then { x.esc with held := holdAt r.issued (.pput r.number) x.esc.held } else x.esc }
      if held then s else s.startPetty t r.number

/-- The gleaner post of a request line is held or starts; one of a discarded group is cancelled or dropped (R150, R152,
R287). -/
def State.postRead (s : State) (t : Nat) (r : ReqLine) (d : Line) : State :=
  let k := postStack d
  if !postLineOk r.qe d then s.tileHalt t s.fab.scc r.iaddr (illegal 2)
  else if !stackIn s.grade k then s.tileHalt t s.fab.scc r.iaddr (absentUnit 2 2 k)
  else if (s.tile t).discarded r then s
  else if r.spec && postWr d then
    if 64 ≤ (s.tile t).heldCount then
      s.tileHalt t s.fab.scc r.iaddr (escrowMisuse 2 9 (s.tile t).esc.group 0)
    else
      s.modTile t fun x => { x with esc := { x.esc with
        held := holdAt r.issued (.gpost r.number (BitVec.ofNat 4 k) d r.qe) x.esc.held } }
  else s.queuePost t { number := r.number, stack := BitVec.ofNat 4 k, line := d, qe := r.qe
                       spec := r.spec && (s.tile t).esc.openedAt.isSome }

/-- REQUEST_LINE_READ: in cycle issue + 3 the tile reads and checks the request line (R154, R273). -/
def execRequestLineRead (t : TileNo) (s : State) : Answer :=
  let n := t.toNat
  .next (
    if !s.running then s
    else
      match (s.tile n).petty.reqs.find? fun r => r.issued + 3 = s.fab.scc with
      | none => s
      | some r =>
        let s := s.modTile n fun x => { x with petty := { x.petty with reqs := x.petty.reqs.filter fun q => q != r } }
        match r.line with
        | none => s
        | some d => if r.kind = .gpost then s.postRead n r d else s.pettyRead n r d)

/-! ## Completion (R155, R156, R237) -/

/-- The transfer stops being outstanding. -/
def State.pettyDone (s : State) (t : Nat) (n : BitVec 32) (burned : Bool) : State :=
  (s.modTile t fun x => { x with petty := { x.petty with
    transfers := x.petty.transfers.filter fun p => p.number != n } }).count
    (.fetch (BitVec.ofNat 4 (tileField t))) (if burned then 0x44 else 0x43) 0 1

/-- The first PGET of the tile whose reply may enter PQ; a burned one is passed over (R155). -/
def Tile.firstGet (x : Tile) : Option Petty :=
  match x.petty.transfers.find? fun p => !p.put && !p.burn with
  | some p => if x.petty.reqs.any fun r => r.kind = .pget && (r.number - p.number).msb then none else some p
  | none => none

/-- Replies enter PQ in issue order as far as it has room (R70, R155). -/
def State.fillPq (s : State) (t : Nat) : Nat → State
  | 0 => s
  | fuel + 1 =>
    match (s.tile t).firstGet with
    | some p =>
      if p.phase != 2 then s
      else
        let room := 32 - ((s.tile t).end64 qePQ).length
        let go := p.words.take room
        let s := s.modTile t fun x => x.setEnd64 qePQ (x.end64 qePQ ++ go.map fun w => { data := w, cyc := s.asyncCyc })
        if p.words.length ≤ room then (s.pettyDone t p.number false).fillPq t fuel
        else s.modPetty t p.number fun q => { q with words := p.words.drop room }
    | none => s

/-- The failure that an error of a transfer raises at its tile: a hole (R154), which names an absent unit by its class (R32),
a fallow bank (R237), an uncorrectable codeword (R224), or an absent link (R167). The units that the device at the far end of
a channel lacks are taken to be those that this device's grade lacks (DEDUCED, log entry 123). -/
def State.pettyFailure (s : State) (e : Nat × Nat) : Failure :=
  if e.1 = 1 then
    match place s.grade true e.2 with
    | .absentTile f => absentUnit 2 1 f
    | .absentStack k => absentUnit 2 2 k
    | _ => { slot := 2, reason := 7, subcode := 0, detail := BitVec.ofNat 32 e.2 }
  else if e.1 = 2 then { slot := 2, reason := 0x0C, subcode := 0, detail := BitVec.ofNat 32 (e.2 % 16 + 16) }
  else if e.1 = 3 then uncorrectable 2 0 e.2
  else absentUnit 2 4 e.2

/-- The bytes that a PGET's granted lines hold. -/
def Petty.lineBytes (p : Petty) : List Byte :=
  ((p.lines.flatMap fun l => bytesOf l.2.toNat 64).drop (p.addr.toNat % 64)).take p.len.toNat

/-- The data of a PGET on the local channel, or the state after the halt that they raise. -/
def State.localGet (s : State) (p : Petty) : State × Option (List Byte) :=
  match place s.grade true p.addr.toNat with
  | .dram k b =>
    match s.dramRead k b p.len.toNat with
    | (s, some bs) => (s, some bs)
    | (s, none) => (s.dramHalt k p.addr.toNat, none)
  | _ => (s, some p.lineBytes)

/-- The reply of a PGET is at the tile: it waits for its turn in PQ, or is burned after a discard. -/
def State.getReplied (s : State) (t : Nat) (n : BitVec 32) (bs : List Byte) : State :=
  (s.modPetty t n fun q => { q with phase := 2, words := linesOf bs }).fillPq t 65

/-- PGET_REPLY. The reply of a transfer whose group was discarded is burned, and one that met an error raises no halt
(DESIGN CHOICE, log entry 124). -/
def execPgetReply (t : TileNo) (n : BitVec 32) (s : State) : Answer :=
  let u := t.toNat
  .next (match s.pettyOf u n with
    | none => s
    | some p =>
      if p.put || p.phase = 0 then s
      else if p.phase = 2 then s.fillPq u 65
      else if p.burn && (p.left = 0 || p.err.isSome) then s.pettyDone u n true
      else
        match p.err with
        | some e => (s.pettyDone u n false).tileHalt u s.fab.scc p.iaddr (s.pettyFailure e)
        | none =>
          if p.left != 0 then s
          else
            match (if p.chan.toNat = localChan then s.localGet p else (s, some p.lineBytes)) with
            | (s, some bs) => s.getReplied u n bs
            | (s, none) => s.pettyDone u n false)

/-- PPUT_ACK: the destination on this device acknowledges the write and its signal. A write refused at a fallow bank
completes (R237); one to a hole or over an absent link halts the tile (R154, R167). -/
def execPputAck (t : TileNo) (n : BitVec 32) (s : State) : Answer :=
  let u := t.toNat
  .next (match s.pettyOf u n with
    | none => s
    | some p =>
      if !p.put || p.phase = 0 then s
      else
        match p.err with
        | some e =>
          let s := s.pettyDone u n false
          if e.1 = 2 then s else s.tileHalt u s.fab.scc p.iaddr (s.pettyFailure e)
        | none => if p.left = 0 && p.sig.isNone then s.pettyDone u n false else s)

end Sys2Proof.Machine
end

