-- ==== Sys2Proof/Machine/Stream.lean ====
section
/-!
DEFINITION. The stream port and the spines (R11–R22, R39, R73–R75, R120–R122): takes, taps, drives and moves, the
arrival of words at the ends of their routes, and the steps of words along rows, spines and bridges.
-/
namespace Sys2Proof.Machine

/-! ## Words at a tile -/

def Tile.wordAt (x : Tile) (west : Bool) (track : Nat) : Option Word :=
  Sparse.get none (if west then x.west else x.east) track

def Tile.setWord (x : Tile) (west : Bool) (track : Nat) (w : Option Word) : Tile :=
  if west then { x with west := Sparse.set none x.west track w } else { x with east := Sparse.set none x.east track w }

/-- The tile ends routes on the track (R122, R139). -/
def Tile.marked (x : Tile) (west : Bool) (track : Nat) : Bool :=
  if west then x.seq.trackEndW.getLsbD track else x.seq.trackEnd.getLsbD track

/-- The detail word of STAMP (R96). -/
def stampDetail (expected received : BitVec 3) (track : Nat) (west : Bool) : BitVec 32 :=
  BitVec.ofNat 32 (expected.toNat + received.toNat * 8 + track * 64 + west.toNat * 4096)

def stampFail (sub : BitVec 4) (expected received : BitVec 3) (track : Nat) (west : Bool) : Failure :=
  { slot := 3, reason := 1, subcode := sub, detail := stampDetail expected received track west }

/-- The detail word of a ROUTE_CLASH in a row (R96). -/
def rowClash (t track : Nat) (west : Bool) : Failure :=
  { slot := 3, reason := 5, subcode := 0, detail := BitVec.ofNat 32 (track + west.toNat * 64 + tileRow t * 512) }

/-- The key of a track in a bundle's record. -/
def trackKey (west : Bool) (track : BitVec 6) : Nat := track.toNat + west.toNat * 64

/-! ## The S slot -/

/-- A take or a tap (R74, R75, R121, R122). -/
def takeIssue (tap : Bool) (v : SSub) (e : IssueEnv) (x : Tile) : Except Failure Tile := do
  check (v.rsv = 0 && v.track.toNat < 48 && v.lat != 0) (illegal 3)
  let key := trackKey v.west v.track
  check (!x.bundle.any fun b => b.taken.contains key) (inconsistent 3)
  let q : BitVec 6 := v.fin.setWidth 6
  let x ← (x.modBundle fun b => { b with taken := key :: b.taken }).claimPush 3 q
  let tr := v.track.toNat
  match x.wordAt v.west tr with
  | none => .ok (x.softFail e.now (stampFail 1 0 0 tr v.west))
  | some w =>
    let expected := ((e.now - v.lat.setWidth 48).setWidth 3 : BitVec 3)
    let x := x.put64 e.now 3 q w.data w.mark
    let x := if w.stamp = expected then x else x.softFail e.now (stampFail 0 expected w.stamp tr v.west)
    .ok (if tap && !x.marked v.west tr then { x with taps := (key, q) :: x.taps } else x.setWord v.west tr none)

/-- A drive (R13, R73, R86, R121): the word stands on the track at the end of the cycle, unless it meets another. -/
def driveIssue (set : BitVec 4) (v : SSub) (e : IssueEnv) (x : Tile) : Except Failure Tile := do
  check (v.rsv = 0 && v.track.toNat < 48 && v.lat = 0) (illegal 3)
  let key := trackKey v.west v.track
  check (!(x.bundle.any fun b => b.driven.contains key) && !x.popped (8 + v.fin.setWidth 6)) (inconsistent 3)
  let tr := v.track.toNat
  check (!e.window) { slot := 3, reason := 7, subcode := 3, detail := BitVec.ofNat 32 (tr + v.west.toNat * 64) }
  let x := x.modBundle fun b => { b with driven := key :: b.driven }
  let (d, x) ← x.pop64 e.now 3 (8 + v.fin.setWidth 6)
  .ok { x with drives := x.drives ++ [(key,
    { data := d, stamp := e.now.setWidth 3, set := set, spec := if x.speculative e.now then 1 else 0 })] }

/-- A move (R121). -/
def moveIssue (v : SMove) (e : IssueEnv) (x : Tile) : Except Failure Tile := do
  check (v.rsv = 0 && qeSrc64 v.src && qeDst64 v.dst) (illegal 3)
  let x ← x.claimPush 3 v.dst
  let (d, x) ← x.pop64 e.now 3 v.src
  .ok (x.put64 e.now 3 v.dst d)

/-- What a take or tap, a drive and a move name. -/
def subTakes (v : SSub) (b : Bundle) : Bundle :=
  { b with taken := trackKey v.west v.track :: b.taken, pushes := v.fin.toNat :: b.pushes }
def subDrives (v : SSub) (b : Bundle) : Bundle :=
  { b with driven := trackKey v.west v.track :: b.driven, pops := (8 + v.fin.toNat) :: b.pops }
def moveUses (v : SMove) (b : Bundle) : Bundle :=
  { b with pops := v.src.toNat :: b.pops, pushes := v.dst.toNat :: b.pushes }

/-- The spine configuration set in force in the current cycle, in the tile's field (R86). -/
def State.setInForce (s : State) (t : Nat) : BitVec 4 := (s.field (tileField t)).spineCur

/-- R121. -/
def execTake (t : TileNo) (x : SSub) (s : State) : Answer := .next (s.issue t 3 (takeIssue false x) (subTakes x))
/-- R121. -/
def execTap (t : TileNo) (x : SSub) (s : State) : Answer := .next (s.issue t 3 (takeIssue true x) (subTakes x))
/-- R121. -/
def execDrive (t : TileNo) (x : SSub) (s : State) : Answer :=
  .next (s.issue t 3 (driveIssue (s.setInForce t.toNat) x) (subDrives x))
/-- R121. -/
def execMove (t : TileNo) (x : SMove) (s : State) : Answer := .next (s.issue t 3 (moveIssue x) (moveUses x))

/-! ## Spine entries (R18) -/

/-- The output that an input of a field spine names in set `k`, if its entry is valid. -/
def Field.spineEntry (f : Field) (k : BitVec 4) (i : Nat) : Option Nat :=
  let v : BitVec 16 := Sparse.get 0 f.fset (1024 * k.toNat + i)
  if v.getLsbD 15 && v.toNat % 1024 < 640 then some (v.toNat % 1024) else none

def Die.spineEntry (d : Die) (k : BitVec 4) (i : Nat) : Option Nat :=
  let v : BitVec 16 := Sparse.get 0 d.dset (512 * k.toNat + i)
  if v.getLsbD 15 && v.toNat % 512 < 384 then some (v.toNat % 512) else none

/-- The field-spine input at which a word leaves its row (R14, R18). -/
def rowInput (t : Nat) (west : Bool) (track : Nat) : Nat := 96 * tileRow t + (if west then 0 else 48) + track

/-- The tile at which a row's track leaves the row. -/
def leavesRow (t : Nat) (west : Bool) : Bool := if west then tileCol t = 0 else tileCol t = 7

/-- The next stage of a transit, with the cycles to it: from an input to the output that its entry names, none at an
input without a valid entry; from an output to the next input (R20, R39). A bridge output lies one cycle before the
crossing into the die-link island: at the end of F for a word from a field port, and one cycle before the end of J for a
pass-through; G and H follow, and then the G of the next die, past which the word stands at its bridge input. Paths to which
R20 gives no latency take that of their kind: a row end back into itself 6, a field back to itself through the die spine 10, a
bridge back over the same bridge 12 for its J (DESIGN CHOICE, log entry 93). -/
def State.follow (s : State) (w : Word) : Stage → Option (Nat × Stage)
  | .fieldIn f i =>
    match (s.field f).spineEntry w.set i with
    | some o => if o < 576 then some (if i < 576 then 6 else 2, .fieldOut f o)
                else if i < 576 then some (2, .fieldOut f o) else none
    | none => none
  | .dieIn d i =>
    match (s.die d).spineEntry w.set i with
    | some o => if o < 256 then some (if i < 256 then 2 else 1, .dieOut d o)
                else some (if i < 256 then 1 else 10, .dieOut d o)
    | none => none
  | .fieldOut f o => if o < 576 then none else some (2, .dieIn (f / 4) (64 * (f % 4) + (o - 576)))
  | .dieOut d o =>
    if o < 256 then some (2, .fieldIn (d * 4 + o / 64) (576 + o % 64))
    else if o < 320 then some (6, .dieIn ((d + 1) % 4) (320 + o % 64))
    else some (6, .dieIn ((d + 3) % 4) (256 + o % 64))

/-! ## The end of a cycle: words step on -/

/-- The edge of the group that the tile belongs to, in the direction (R333). -/
def State.groupEdge (s : State) (t : Nat) (west : Bool) : Bool :=
  let m : BitVec 8 := Sparse.get 0 (s.field (tileField t)).escDef (16 * tileRow t + (s.tile t).esc.group.toNat)
  let c := tileCol t
  m.getLsbD c && (if west then (List.range c).all fun k => !m.getLsbD k
                  else (List.range 8).all fun k => k ≤ c || !m.getLsbD k)

/-- A speculative word at the edge of its open group is captured (R337, R344); the words that an earlier group of the
tile still has to release hold their places. -/
def State.captureWord (s : State) (t : Nat) (west : Bool) (track : Nat) (w : Word) : State :=
  let x := s.tile t
  let n := if west then x.esc.capWest.length + x.esc.relWest.length else x.esc.capEast.length + x.esc.relEast.length
  if 64 ≤ n then s.tileHalt t s.fab.scc x.iaddr (escrowMisuse 3 0x0A x.esc.group 0)
  else
    let c := (BitVec.ofNat 6 track, w.data)
    s.setTile t { x with esc := if west then { x.esc with capWest := x.esc.capWest ++ [c] }
                                else { x.esc with capEast := x.esc.capEast ++ [c] } }

/-- One word leaves its tile at the end of the cycle: along the row, into the spine, or into escrow. -/
def State.stepWord (s : State) (t : Nat) (west : Bool) (track : Nat) (w : Word) : State :=
  let w := { w with noted := false }
  if w.spec != 0 && s.groupEdge t west then
    if w.spec = 1 then s.captureWord t west track w else s
  else if leavesRow t west then
    match s.follow w (.fieldIn (tileField t) (rowInput t west track)) with
    | none => s
    | some (n, st) =>
      { s with fab := { s.fab with transits := s.fab.transits ++
        [{ word := w, fromTile := BitVec.ofNat 10 t, west := west, track := BitVec.ofNat 6 track,
           at_ := s.fab.scc + BitVec.ofNat 48 n, stage := st }] } }
  else
    s.modTile (if west then t - 1 else t + 1) fun y => y.setWord west track (some w)

/-- The words of a tile's map, with their tile and direction. -/
def wordsOf (t : Nat) (west : Bool) (m : SMap (Option Word)) : List (Nat × Bool × Nat × Word) :=
  m.filterMap fun e => e.2.map fun w => (t, west, e.1, w)

/-- Every word leaves its tile (R12). -/
def State.stepWords (s : State) : State :=
  let ws := s.fab.tiles.flatMap fun x => wordsOf x.1 false x.2.east ++ wordsOf x.1 true x.2.west
  let movers := s.fab.tiles.filter fun x => !x.2.east.isEmpty || !x.2.west.isEmpty
  let s := movers.foldl (fun s x => s.setTile x.1 { s.tile x.1 with east := [], west := [] }) s
  ws.foldl (fun s w => s.stepWord w.1 w.2.1 w.2.2.1 w.2.2.2) s

/-! ## The spines in a cycle -/

def Stage.isOut : Stage → Bool
  | .fieldOut _ _ => true
  | .dieOut _ _ => true
  | _ => false

/-- Where ROUTE_CLASH names the meeting of two words at an output (R94, R96): the kind and index of the source, and
the detail word. A track of a die-spine port or of a bridge has no direction in its row, and its direction bit is 0 (DESIGN
CHOICE, log entry 117). -/
def outputClash : Stage → Nat × Nat × BitVec 32
  | .fieldOut f o =>
    let k := o % 96
    let (n, dir) := if o < 576 then (k % 48, k / 48) else (o - 576, 0)
    (1, f, BitVec.ofNat 32 (n % 64 + dir * 64 + 1 * 128 + o * 512))
  | .dieOut d o => (2, d, BitVec.ofNat 32 (o % 64 + (if o < 256 then 2 else 3) * 128 + o * 512))
  | _ => (1, 0, 0)

/-- A transit at an input with a valid entry sets out for its output; `now` is the current cycle. -/
def State.lookTransit (s : State) (now : Scc) (x : Transit) : Transit :=
  if x.at_ = now && !x.stage.isOut then
    match s.follow x.word x.stage with
    | some (n, st) => { x with at_ := now + BitVec.ofNat 48 n, stage := st }
    | none => x
  else x

/-- A word that has its output to itself goes on: into its row, or to the next input. One whose route leads to a field that
the grade lacks reaches an absent unit (R4, R27, R167): the row-end tile at which it left its row reports it, as it reports a
stray word (R96; DEDUCED, log entry 53). -/
def State.passOutput (s : State) (now : Scc) (x : Transit) : State :=
  match x.stage with
  | .fieldOut f o =>
    if o < 576 then
      let k := o % 96
      let west : Bool := 48 ≤ k
      s.modTile (linear f (o / 96) (if west then 7 else 0)) fun y => y.setWord west (k % 48) (some x.word)
    else
      let s := s.count (.field (BitVec.ofNat 4 f)) 0x20 0 1
      { s with fab := { s.fab with transits := s.fab.transits ++
        [{ x with at_ := now + 2, stage := .dieIn (f / 4) (64 * (f % 4) + (o - 576)) }] } }
  | .dieOut d o =>
    let t := x.fromTile.toNat
    if o < 256 && !fieldIn s.grade (4 * d + o / 64) then
      s.tileHalt t now (s.tile t).iaddr (absentUnit 3 1 (4 * d + o / 64))
    else
      match s.follow x.word x.stage with
      | some (n, st) =>
        { s with fab := { s.fab with transits := s.fab.transits ++
          [{ x with at_ := now + BitVec.ofNat 48 n, stage := st }] } }
      | none => s
  | _ => s

/-- The transits of the cycle that begins: inputs are followed, outputs claimed; two words at one output in one cycle
are a ROUTE_CLASH and neither is delivered (R13, R18). -/
def State.stepTransits (s : State) : State :=
  let now := s.fab.scc
  let ts := s.fab.transits.map (s.lookTransit now)
  let outs := ts.filter fun x => x.at_ = now && x.stage.isOut
  let rest := ts.filter fun x => !(x.at_ = now && x.stage.isOut)
  let s := { s with fab := { s.fab with transits := rest } }
  let met (x : Transit) : Bool := (outs.filter fun y => y.stage = x.stage).length ≥ 2
  let s := (outs.filter fun x => !met x).foldl (fun s x => s.passOutput now x) s
  ((outs.filter met).map fun x => x.stage).dedup.foldl (fun s st =>
    let c := outputClash st
    s.unitHalt c.1 c.2.1 5 0 c.2.2) s

/-! ## Arrivals (R122) -/

/-- A word that stands at a row end and whose track has no configured connection (R122); a speculative word at its
group's edge goes no further than the tile, so it meets no spine port (R337). -/
def State.unconnected (s : State) (t : Nat) (west : Bool) (track : Nat) (w : Word) : Bool :=
  leavesRow t west && ((s.field (tileField t)).spineEntry w.set (rowInput t west track)).isNone
    && !(w.spec != 0 && s.groupEdge t west)

/-- The word ends its route at the tile: it must be taken there. -/
def State.endsHere (s : State) (t : Nat) (x : Tile) (west : Bool) (track : Nat) (w : Word) : Bool :=
  x.marked west track || s.unconnected t west track w

/-- A transit of the row end that stands in this cycle at an input without a valid entry. -/
def State.strayOf (s : State) (t : Nat) (west : Bool) (track : BitVec 6) : Option Transit :=
  s.fab.transits.find? fun x =>
    x.fromTile.toNat = t && x.west = west && x.track = track && x.at_ = s.fab.scc && !x.stage.isOut
      && (s.follow x.word x.stage).isNone

/-- The arrival of a word at the end of its route is noted, and judged at the end of the cycle (R75, R122). A word that
meets a spine port without a connection is reported by the row-end tile at which it left its row (R96), and goes no
further. -/
def State.arrive (s : State) (t : Nat) (west : Bool) (track : BitVec 6) : State :=
  let tr := track.toNat
  let s := s.modTile t fun y =>
    match y.wordAt west tr with
    | some w => y.setWord west tr (some { w with noted := true })
    | none => y
  match s.strayOf t west track with
  | some y =>
    { s with fab := { s.fab with transits := s.fab.transits.filter fun z => z != y } }.tileHalt t s.fab.scc
      (s.tile t).iaddr (stampFail 2 0 y.word.stamp tr west)
  | none => s

/-- STREAM_WORD_ARRIVAL. -/
def execStreamWordArrival (t : TileNo) (west : Bool) (track : BitVec 6) (s : State) : Answer :=
  .next (if s.running && tileIn s.grade t.toNat then s.arrive t.toNat west track else s)

/-- Whether an arrival at the tile is still to be commanded in this cycle. -/
def State.arrivalDue (s : State) (t : Nat) (x : Tile) : Bool :=
  (wordsOf t false x.east ++ wordsOf t true x.west).any fun w =>
    !w.2.2.2.noted && s.endsHere t x w.2.1 w.2.2.1 w.2.2.2

/-- The words that ended their routes at the tile in this cycle and were not taken halt it with STAMP, untaken, and go no
further (R75, R122). `y` is the tile as its bundle's slots left it. -/
def State.judgeArrivals (s : State) (t : Nat) (y : Tile) : State :=
  (wordsOf t false y.east ++ wordsOf t true y.west).foldl (fun s w =>
    if w.2.2.2.noted && s.endsHere t y w.2.1 w.2.2.1 w.2.2.2 then
      (s.setTile t ((s.tile t).setWord w.2.1 w.2.2.1 none)).tileHalt t s.fab.scc y.iaddr
        (stampFail 2 0 w.2.2.2.stamp w.2.2.1 w.2.1)
    else s) s

/-- The words that the tile drives stand on their tracks at the end of the cycle; one that meets a word which passes or
is tapped, or another driven word, is a clash, and neither is delivered (R13). -/
def Tile.settleDrives (x : Tile) (t : Nat) : Tile × List Failure :=
  ((x.drives.map Prod.fst).dedup).foldl
    (fun acc key =>
      let y := acc.1
      let west : Bool := 64 ≤ key
      let tr := key % 64
      let mine := x.drives.filter fun d => d.1 = key
      match mine, y.wordAt west tr with
      | [d], none => (y.setWord west tr (some d.2), acc.2)
      | _, _ =>
        let lost := (x.taps.filter fun p => p.1 = key).map Prod.snd
        ({ (y.setWord west tr none) with arrived := y.arrived.filter fun r => !(r.slot = 3 && lost.contains r.dst) },
          acc.2 ++ [rowClash t tr west]))
    ({ x with drives := [], taps := [] }, [])

/-- The words that the tile has just driven onto tracks which leave its row toward a spine port without a connection go no
further: each is untaken (R18, R122). -/
def State.strayDrives (s : State) (t : Nat) (keys : List Nat) (x : Tile) : Tile × List Failure :=
  keys.foldl (fun acc key =>
    let west : Bool := 64 ≤ key
    let tr := key % 64
    match acc.1.wordAt west tr with
    | some w =>
      if s.unconnected t west tr w then (acc.1.setWord west tr none, acc.2 ++ [stampFail 2 0 w.stamp tr west]) else acc
    | none => acc) (x, [])

end Sys2Proof.Machine
end

