-- ==== Sys2Proof/Machine/Escrow.lean ====
section
/-!
DEFINITION. Escrow groups (R333–R345, R249, R287): opening, commit and discard at the end of a cycle, the swap, and what a
commit releases.
-/
namespace Sys2Proof.Machine

/-! ## Members -/

/-- The tiles of group `g` in the row of tile `t`. -/
def State.groupTiles (s : State) (t : Nat) (g : BitVec 4) : List Nat :=
  let m := (s.field (tileField t)).members t g
  ((List.range 8).filter m.getLsbD).map fun c => t / 8 * 8 + c

/-- The key by which a speculative word of an FQ end names its post (R287). -/
def postKey (k : Nat) (n : BitVec 32) : Nat := 1 + k + 16 * n.toNat

/-- The mark of the words that stand at a tile in one direction. -/
def remark (from_ to_ : BitVec 2) (m : SMap (Option Word)) : SMap (Option Word) :=
  m.map fun e => (e.1, e.2.map fun w => if w.spec = from_ then { w with spec := to_ } else w)

/-- The cycles in which captured words are released: one word per track per cycle, from `c` on (R340). -/
def releaseCycles (c : Scc) : List (BitVec 6 × Line) → List (Scc × BitVec 6 × Line) → List (Scc × BitVec 6 × Line)
  | [], done => done
  | w :: ws, done =>
    let n := (done.filter fun d => d.2.1 = w.1).length
    releaseCycles c ws (done ++ [(c + BitVec.ofNat 48 n, w)])

/-! ## Commit and discard (R337–R341) -/

/-- The operation is a FARM that left an open group at once (R249). -/
def Posted.specFarm : Posted → Bool
  | .farm _ spec => spec
  | _ => false

/-- The FARM stops being speculative. -/
def Posted.settled : Posted → Posted
  | .farm d _ => .farm d false
  | p => p

/-- The request is a held GPOST of a writing script, whose line has been sampled and not yet read (R337, R338). -/
def ReqLine.heldPost (r : ReqLine) : Bool :=
  r.kind = .gpost && (match r.line with | some d => postLineOk r.qe d && postWr d | none => false)

/-- The tile's own part of a commit in cycle `now`. -/
def Tile.commit (x : Tile) (now : Scc) : Tile :=
  let es := x.esc
  { x with
    esc := { es with
      openedAt := none, bundles := 0, capEast := [], capWest := []
      relEast := es.relEast ++ releaseCycles (now + 5) es.capEast []
      relWest := es.relWest ++ releaseCycles (now + 5) es.capWest [] }
    east := remark 1 0 x.east
    west := remark 1 0 x.west
    ends := x.ends.map fun q => (q.1, q.2.map fun e => { e with spec := 0 })
    petty := { x.petty with
      farmOut := x.petty.farmOut.map fun o => (o.1, o.2.settled)
      transfers := x.petty.transfers.map fun p => { p with spec := false }
      posts := x.petty.posts.map fun p => { p with spec := false } } }

/-- The tile's own part of a discard. -/
def Tile.discard (x : Tile) : Tile :=
  let es := x.esc
  let heldPut (n : BitVec 32) : Bool := es.held.any fun h => match h.2 with | .pput m => m = n | _ => false
  let ends := (x.ends.map fun q => (q.1, q.2.filter fun e => e.spec = 0)).filter fun q => !q.2.isEmpty
  let transfers := (x.petty.transfers.filter fun p => !heldPut p.number).map fun p =>
    if p.spec && !p.put then { p with burn := true, spec := false } else p
  let y : Tile := { x with
    esc := { es with
      openedAt := none, bundles := 0, capEast := [], capWest := [], held := [], redirects := [], reserved := [] }
    pad := { x.pad with writes := x.pad.writes.filter fun w => !w.spec }
    east := remark 1 2 x.east
    west := remark 1 2 x.west
    ends := ends
    petty := { x.petty with
      reqs := x.petty.reqs.filter fun r => !(r.spec && (r.kind = .pput || r.heldPost))
      farmOut := x.petty.farmOut.filter fun o => !o.2.specFarm
      transfers := transfers
      posts := x.petty.posts.filter fun p => !p.spec } }
  y.count 0x03 es.bundles

/-- What a post of the tile becomes on its stack when its group resolves (R287). -/
def State.resolvePosts (s : State) (t : Nat) (commit : Bool) : State :=
  (s.tile t).petty.posts.foldl (fun s p =>
    if !p.spec then s
    else
      let g (q : Post) : Post :=
        if q.number = p.post then (if commit then { q with spec := false } else { q with cancelled := true }) else q
      s.modStack p.stack.toNat fun k => { k with
        intake := if commit then k.intake.map g else k.intake.filter fun q => q.number != p.post
        active := k.active.map g }) s

/-- The replies of PGETs that have come and wait for PQ are burned by a discard (R155). -/
def State.burnWaiting (s : State) (t : Nat) : State :=
  (s.tile t).petty.transfers.foldl (fun s p => if p.burn && p.phase = 2 then s.pettyDone t p.number true else s) s

/-- A member's ERES of this cycle takes effect. -/
def State.resolveMember (s : State) (t : Nat) : State :=
  let commit := (s.tile t).esc.committed
  let s := s.resolvePosts t commit
  if commit then (s.commitFetch t).setTile t ((s.tile t).commit s.fab.scc)
  else
    let s := s.setTile t (s.tile t).discard
    (s.discardFetch t).burnWaiting t

/-! ## Agreement of the members at the end of a cycle (R334, R345) -/

/-- The tile as the slots of its bundle left it, whether or not the bundle has failed a check. -/
def State.asIssued (s : State) (t : Nat) : Tile := (Sparse.find? t s.fab.trials).getD (s.tile t)

/-- The EOPEN of the bundle, or with `eres` its ERES, has passed its own checks. -/
def Tile.passedFork (x : Tile) (now : Scc) (eres : Bool) : Bool :=
  (x.bundleIn now).isSome
    && (if eres then x.esc.openedAt.isSome && x.esc.resolvedAt = some now else x.esc.openedAt = some now)

/-- The tile has issued an EOPEN, or with `eres` an ERES, in this cycle, for group `g` as far as its checks let it be told. -/
def State.actsFor (s : State) (eres : Bool) (g : BitVec 4) (t : Nat) : Bool :=
  let x := s.asIssued t
  (x.bundleIn s.fab.scc).any (fun b => b.cop = if eres then 0x21 else 0x20)
    && (x.esc.group = g || (!eres && !x.passedFork s.fab.scc false))

/-- The tiles whose EOPEN of this cycle has passed its checks, and those whose ERES has. -/
def State.openers (s : State) : List Nat :=
  (s.fab.tiles.filter fun x => x.2.esc.openedAt = some s.fab.scc).map Prod.fst
def State.resolvers (s : State) : List Nat :=
  (s.fab.tiles.filter fun x => x.2.esc.openedAt.isSome && x.2.esc.resolvedAt = some s.fab.scc).map Prod.fst

/-- The tile is the first member of its group. -/
def State.leadsGroup (s : State) (t : Nat) : Bool := (s.groupTiles t (s.tile t).esc.group).head? = some t

/-- The tiles that issue in this cycle, one for each group, whose EOPEN or ERES has passed its own checks. -/
def State.forks (s : State) (eres : Bool) : List Nat :=
  (s.fab.tiles.filter fun x => (s.asIssued x.1).passedFork s.fab.scc eres).foldl (fun ts x =>
    let key (t : Nat) : Nat × BitVec 4 := (t / 8, (s.asIssued t).esc.group)
    if ts.any fun t => key t = key x.1 then ts else ts ++ [x.1]) []

/-- The member that a disagreement names (R345): the lowest-numbered of the members whose issue is that of fewer members, and
of all of them where the two sides are equal (DESIGN CHOICE, log entry 118). -/
def blamed (members issuers : List Nat) : Option Nat :=
  let idle := members.filter fun t => !issuers.contains t
  if issuers.length < idle.length then issuers.head?
  else if idle.length < issuers.length then idle.head?
  else members.head?

/-- A bundle of the cycle is undone without a request of its own tile: the request names another member. -/
def State.undoIssue (s : State) (t : Nat) : State :=
  match Sparse.find? t s.fab.saves with
  | some saved => s.setTile t { saved with
      seq := { saved.seq with stopped := true }, req := (s.tile t).req
      bundle := (s.tile t).bundle.map fun b => { b with closed := true, agw := none } }
  | none => s

/-- The group of tile `t` does not agree on its EOPEN or ERES: no member's bundle takes effect, and the halt names one
member. -/
def State.disagree (s : State) (eres : Bool) (t : Nat) : State :=
  let g := (s.asIssued t).esc.group
  let ms := s.groupTiles t g
  let issuers := ms.filter (s.actsFor eres g)
  let f := escrowMisuse 4 (if eres then 7 else 5) g 0
  if issuers.length = ms.length then s
  else
    match blamed ms issuers with
    | none => s
    | some u =>
      let s := (issuers.filter fun v => v != u && (Sparse.find? v s.fab.trials).isNone).foldl State.undoIssue s
      if issuers.contains u then s.failIssue u (s.asIssued u) f
      else s.tileHalt u s.fab.scc ((((s.tile u).bundleIn s.fab.scc).map fun b => b.iaddr).getD (s.tile u).seq.pc) f

/-- EOPENs and EREs of the cycle that not every member issued (R345). -/
def State.checkGroups (s : State) : State :=
  let s := (s.forks false).foldl (fun s t => s.disagree false t) s
  (s.forks true).foldl (fun s t => s.disagree true t) s

/-- The groups whose members agree open or resolve at the end of the cycle (R334, R339, R341). -/
def State.resolveGroups (s : State) : State :=
  let opens := s.openers
  let ends := s.resolvers
  let field (t : Nat) : TallyUnit := .field (BitVec.ofNat 4 (tileField t))
  let s := (opens.filter s.leadsGroup).foldl (fun s t => s.count (field t) 0x23 0 1) s
  ends.foldl (fun s t =>
    let first := s.leadsGroup t
    let code := if (s.tile t).esc.committed then 0x24 else 0x25
    let s := s.resolveMember t
    if first then s.count (field t) code 0 1 else s) s

/-- At the end of cycle E + 4 the member's held operations take their release cycles (R339). -/
def Tile.planReleases (x : Tile) (now : Scc) : Tile :=
  if x.esc.committed && x.esc.resolvedAt = some (now - 4) && !x.esc.held.isEmpty then
    { x with esc := { x.esc with
      held := []
      releasing := x.esc.releasing ++ x.esc.held.zipIdx.map fun h => (now + 1 + BitVec.ofNat 48 h.2, h.1.2) } }
  else x

/-! ## The swap and the releases (R339, R340) -/

/-- Every escrow line of a slice that a speculative write has reached becomes its home line, with its codewords and its
stamp; fetch writes that have not landed go to home lines (R249). -/
def State.swapTile (s : State) (t : Nat) : State :=
  let s := (s.tile t).esc.redirects.foldl (fun s r => s.copyPadLine t r.2 r.1) s
  s.modTile t fun x => { x with
    esc := { x.esc with redirects := [], reserved := [] }
    pad := { x.pad with ureqs := x.pad.ureqs.map fun r => { r with spec := false } } }

/-- The swap has something to do in the tile's slice: an escrow line stands for a home line, or a speculative write still waits
for its bank. -/
def Tile.swapWaits (x : Tile) : Bool :=
  !x.esc.redirects.isEmpty || !x.esc.reserved.isEmpty || x.pad.ureqs.any fun r => r.spec

/-- ESCROW_SWAP: at the end of E + 4, in every slice of the group. -/
def execEscrowSwap (f : BitVec 4) (row : BitVec 3) (g : BitVec 4) (s : State) : Answer :=
  .next (
    if !s.running || !fieldIn s.grade f.toNat || 6 ≤ row.toNat then s
    else
      (s.groupTiles (linear f.toNat row.toNat 0) g).foldl (fun s t =>
        let x := s.tile t
        if x.esc.group = g && x.esc.committed && x.esc.resolvedAt = some (s.fab.scc - 4) then s.swapTile t else s) s)

/-- A held operation sets out for its agent; its release cycle takes the place of its issue cycle (R339). -/
def State.releaseOp (s : State) (t : Nat) (p : Posted) : State :=
  let now := s.fab.scc
  match p with
  | .till _ _ _ => s.modTile t fun x => x.outTill now p
  | .signal c v f _ => s.modTile t fun x => x.outSignal now (.signal c v f now)
  | .farm _ _ => s.modTile t fun x => x.outFarm now p
  | .pput n => (s.modPetty t n fun q => { q with cyc := now }).startPetty t n
  | .gpost n k line qe => (s.startPost t { number := n, stack := k, line := line, qe := qe, spec := false }).startLate t

/-- HELD_OPERATION_RELEASE: the k-th held operation in cycle E + 5 + k. -/
def execHeldOperationRelease (t : TileNo) (s : State) : Answer :=
  let n := t.toNat
  .next (
    if !s.running then s
    else
      match (s.tile n).esc.releasing.find? fun r => r.1 = s.fab.scc with
      | none => s
      | some r =>
        (s.modTile n fun x => { x with esc := { x.esc with releasing := x.esc.releasing.erase r } }).releaseOp n r.2)

/-- CAPTURED_WORD_RELEASE: the word that a track owes this cycle stands at the edge tile as if driven there (R340); like
a drive it meets other words at the end of the cycle (R13). -/
def execCapturedWordRelease (t : TileNo) (west : Bool) (track : BitVec 6) (s : State) : Answer :=
  let n := t.toNat
  let x := s.tile n
  .next (
    if !s.running then s
    else
      match (if west then x.esc.relWest else x.esc.relEast).find? fun r => r.1 = s.fab.scc && r.2.1 = track with
      | none => s
      | some r =>
        let w : Word := { data := r.2.2, stamp := s.fab.scc.setWidth 3, set := s.setInForce n }
        s.modTile n fun x => { x with
          esc := if west then { x.esc with relWest := x.esc.relWest.erase r }
                 else { x.esc with relEast := x.esc.relEast.erase r }
          drives := x.drives ++ [(trackKey west track, w)] })

end Sys2Proof.Machine
end

