-- ==== Sys2Proof/Machine/Gleaner.lean ====
section
/-!
DEFINITION. The gleaner arrays (R271–R288): posts, items, the script instructions, their accesses, and the delivery of
results.
-/
namespace Sys2Proof.Machine

/-! ## Posts and threads -/

def State.postOf (s : State) (k : Nat) (n : BitVec 32) : Option Post := (s.stack k).active.find? fun p => p.number = n

def State.modPost (s : State) (k : Nat) (n : BitVec 32) (g : Post → Post) : State :=
  s.modStack k fun x => { x with active := x.active.map fun p => if p.number = n then g p else p }

/-- The items that a post keeps running at most (R271). -/
def Post.window (p : Post) : Nat := min 128 (2048 / max (postOutw p.line) 1)

/-- The result words of a post, its status word included (R274). -/
def Post.total (p : Post) : Nat :=
  postItems p.line / postSegn p.line * postOutw p.line + (if postStatus p.line then 1 else 0)

/-- POST_ACTIVATE (R271): the head of the intake, when fewer than 32 posts are active. -/
def execPostActivate (k : BitVec 4) (s : State) : Answer :=
  let x := s.stack k.toNat
  .next (match x.intake with
    | p :: rest =>
      if x.active.length < 32 then
        s.setStack k.toNat { x with intake := rest, active := x.active ++ [{ p with active := true }] }
      else s
    | [] => s)

/-- The state of a thread at the start of item `i` (R276). -/
def Thread.start (line : Line) (i : Nat) : Thread :=
  { x := (List.range 7).foldl (fun m r =>
      Sparse.set 0 m r (if r = 0 then BitVec.ofNat 64 i else postParam line (r - 1))) []
    pc := postEntry line }

/-- ITEM_START (R271, R276). -/
def execItemStart (k : BitVec 4) (post : BitVec 32) (s : State) : Answer :=
  .next (match s.postOf k.toNat post with
    | none => s
    | some p =>
      if p.faulted || p.cancelled || postItems p.line ≤ p.nextItem || p.released + p.window ≤ p.nextItem then s
      else s.modPost k.toNat post fun q => { q with
        nextItem := q.nextItem + 1, threads := Sparse.put q.nextItem (Thread.start p.line q.nextItem) q.threads })

/-! ## Results (R274, R284) -/

/-- A line with `n` low bytes of `v` at byte `o`. -/
def putBytes (old : Line) (o n v : Nat) : Line :=
  (List.range n).foldl (fun l i =>
    let sh := 8 * (o + i)
    (l &&& ~~~((0xFF : Line) <<< sh)) ||| ((BitVec.ofNat 512 (v / 256 ^ i % 256)) <<< sh)) old

/-- The words of a list of elements of `w` bytes. -/
def wordsOfElems (w : Nat) (xs : List Nat) : List Line :=
  let v := xs.foldr (fun x acc => x % 256 ^ w + 256 ^ w * acc) 0
  (List.range ((xs.length * w + 63) / 64)).map fun k => BitVec.ofNat 512 (v / 2 ^ (512 * k))

/-- An unsigned integer as FP32, to nearest even (R278). -/
def fp32OfNat (n : Nat) : Nat := (binary32.roundInt 0 (n : Int) 0 false).1

/-- A binary32 division by a positive finite value, to nearest even (R278). -/
def div32 (a b : Nat) : Nat :=
  match binary32.decode a, binary32.decode b with
  | .nan _, _ => binary32.qnan
  | .inf s, _ => binary32.infBits s
  | .fin s m e, .fin _ n f =>
    if m = 0 || n = 0 then binary32.zero s
    else
      let q := m * 2 ^ 64 / n
      let sticky := if m * 2 ^ 64 % n = 0 then 0 else 1
      (binary32.round 0 s (2 * q + sticky) (e - f - 65)).1
  | .fin s _ _, _ => binary32.zero s

/-- The vector of a segment after one more contribution (R284). -/
def segJoin (op elems : Nat) (acc : Option Vec) (v : Vec) : Option Vec :=
  match acc with
  | none => some v
  | some a => some (vecOf32 fun i =>
      if elems ≤ i then 0
      else if op = 3 then (binary32.max (lane32 a i) (lane32 v i)).1
      else (binary32.add 0 (lane32 a i) (lane32 v i)).1)

/-- The words of a segment that is complete: zeros when nothing contributed. -/
def segWords (line : Line) (acc : Option Vec) (count : Nat) : List Line :=
  let f := postOfmt line
  let lanes : List Nat := (List.range (postElems line)).map fun i =>
    match acc with
    | none => 0
    | some a =>
      let v := lane32 a i
      let v := if postSegop line = 2 then div32 v (fp32OfNat count) else v
      cvtnLane (BitVec.ofNat 4 f) 0 v
  match acc with
  | none => List.replicate (postOutw line) 0
  | some _ => wordsOfElems (ofmtBytes f) lanes

/-- One item's results leave in item order for the memory port. -/
def Post.release (p : Post) (t : Thread) : Post :=
  let line := p.line
  let p := { p with
    released := p.released + 1, completed := p.completed + 1, misses := p.misses + t.misses
    emitters := p.emitters + (if t.emitted then 1 else 0), used := p.used + t.used }
  if postSegop line = 0 then
    { p with words := p.words ++ (List.range (postOutw line)).map fun k => Sparse.get 0 t.out k }
  else
    let p := match t.bag with
      | some v => { p with segVec := segJoin (postSegop line) (postElems line) p.segVec v, segCount := p.segCount + 1 }
      | none => p
    if p.released % postSegn line = 0 then
      { p with words := p.words ++ segWords line p.segVec p.segCount, segVec := none, segCount := 0 }
    else p

/-- The status word (R274). -/
def Post.status (p : Post) : Line :=
  BitVec.ofNat 512 (p.completed % 2 ^ 32 + p.misses % 2 ^ 32 * 2 ^ 32 + p.emitters % 2 ^ 32 * 2 ^ 64
    + p.used % 2 ^ 32 * 2 ^ 96)

/-- Every item that has ended and whose earlier items are released is released. -/
def Post.settle (p : Post) : Nat → Post
  | 0 => p
  | fuel + 1 =>
    match Sparse.find? p.released p.results with
    | some t => ({ p with results := Sparse.erase p.released p.results }.release t).settle fuel
    | none =>
      if p.released = postItems p.line && postStatus p.line && !p.statusQueued then
        { p with words := p.words ++ [p.status], statusQueued := true }
      else p

/-- An item whose script has ended and whose accesses are complete gives up its thread. -/
def State.endItem (s : State) (k : Nat) (n : BitVec 32) (i : Nat) : State :=
  match s.postOf k n with
  | none => s
  | some p =>
    match Sparse.find? i p.threads with
    | none => s
    | some t =>
      if t.ended && t.accesses.isEmpty && !t.dead then
        (s.modPost k n fun q => ({ q with threads := Sparse.erase i q.threads
                                          results := Sparse.put i t q.results }.settle 130)).count
          (.stack (BitVec.ofNat 4 k)) 0x55 0 1
      else s

/-! ## Script instructions (R277–R280) -/

/-- A script fault: cause and stack offset. -/
abbrev ScriptFault := Nat × Nat

/-- A fault stops the post and is recorded (R280, R295). -/
def State.scriptFault (s : State) (k : Nat) (p : Post) (pc : Nat) (f : ScriptFault) : State :=
  (s.modPost k p.number fun q => { q with faulted := true }).modStack k fun x =>
    if x.fault then x
    else { x with fault := true, gleanErr :=
      BitVec.ofNat 60 (pc % 1024 + f.1 * 2 ^ 10 + p.tile.toNat * 2 ^ 14 + f.2 % 2 ^ 36 * 2 ^ 24) }

/-- An outstanding access holds register `r`. -/
def Access.holdsX (a : Access) (r : Nat) : Bool :=
  match a.kind with
  | .ld8 d => d.toNat = r
  | .probe d _ _ _ => d.toNat = r
  | _ => false

/-- An outstanding access holds row slot `w`. -/
def Access.holdsW (a : Access) (w : Bool) : Bool := match a.kind with | .ldrow v _ => v = w | _ => false

def Thread.xreg (t : Thread) (r : BitVec 4) : BitVec 64 := Sparse.get 0 t.x r.toNat
def Thread.setX (t : Thread) (r : BitVec 4) (v : BitVec 64) : Thread := { t with x := Sparse.set 0 t.x r.toNat v }
def Thread.slot (t : Thread) (w : Bool) : Vec := if w then t.w1 else t.w0
def Thread.setSlot (t : Thread) (w : Bool) (v : Vec) : Thread := if w then { t with w1 := v } else { t with w0 := v }

/-- What an instruction depends on beside its fields: the registers and slots that it reads or overwrites, and whether
it makes an access (R279). -/
structure Needs where
  xs : List (BitVec 4) := []
  ws : List Bool := []
  access : Bool := false

/-- The thread can issue the instruction now. -/
def Thread.ready (t : Thread) (n : Needs) : Bool :=
  !t.ended && !t.dead && (n.xs.all fun r => t.accesses.all fun a => !a.holdsX r.toNat)
    && (n.ws.all fun w => t.accesses.all fun a => !a.holdsW w) && (!n.access || t.accesses.length < 2)

/-- One instruction of an item: `body` gives the thread after it, or a fault. The PC moves on before it. -/
def State.script (s : State) (k : BitVec 4) (post : BitVec 32) (item : BitVec 20) (o : ScriptOp) (n : Needs)
    (body : Post → Thread → Except ScriptFault Thread) : State :=
  match s.postOf k.toNat post with
  | none => s
  | some p =>
    if p.faulted || p.cancelled then s
    else
      match Sparse.find? item.toNat p.threads with
      | none => s
      | some t =>
        if !t.ready n then s
        else
          let r : Except ScriptFault Thread :=
            if 1023 < t.pc then .error (7, 0)
            else if 65536 ≤ t.count then .error (5, 0)
            else if o.rsv != 0 then .error (1, 0)
            else body p { t with pc := t.pc + 1, count := t.count + 1 }
          match r with
          | .ok t' =>
            (s.modPost k.toNat post fun q => { q with threads := Sparse.put item.toNat t' q.threads }).endItem k.toNat
              post item.toNat
          | .error f => s.scriptFault k.toNat p t.pc f

/-- sext(IMM). -/
def sext32 (v : BitVec 32) : BitVec 64 := v.signExtend 64

/-- R278: an instruction that writes X_D from the registers. -/
def scriptReg (o : ScriptOp) (f : Thread → BitVec 64) (_ : Post) (t : Thread) : Except ScriptFault Thread :=
  .ok (t.setX o.d (f t))

/-- R278. -/
def execScriptNop (k : BitVec 4) (post : BitVec 32) (item : BitVec 20) (o : ScriptOp) (s : State) : Answer :=
  .next (s.script k post item o {} fun _ t => .ok t)
/-- R278. -/
def execScriptLi (k : BitVec 4) (post : BitVec 32) (item : BitVec 20) (o : ScriptOp) (s : State) : Answer :=
  .next (s.script k post item o { xs := [o.d] } (scriptReg o fun _ => sext32 o.imm))
/-- R278. -/
def execScriptLih (k : BitVec 4) (post : BitVec 32) (item : BitVec 20) (o : ScriptOp) (s : State) : Answer :=
  .next (s.script k post item o { xs := [o.d] }
    (scriptReg o fun t => o.imm ++ (t.xreg o.d).extractLsb' 0 32))
/-- R278. -/
def execScriptAdd (k : BitVec 4) (post : BitVec 32) (item : BitVec 20) (o : ScriptOp) (s : State) : Answer :=
  .next (s.script k post item o { xs := [o.d, o.a, o.b] }
    (scriptReg o fun t => t.xreg o.a + t.xreg o.b + sext32 o.imm))
/-- R278. -/
def execScriptSub (k : BitVec 4) (post : BitVec 32) (item : BitVec 20) (o : ScriptOp) (s : State) : Answer :=
  .next (s.script k post item o { xs := [o.d, o.a, o.b] } (scriptReg o fun t => t.xreg o.a - t.xreg o.b))
/-- R278. -/
def execScriptMuli (k : BitVec 4) (post : BitVec 32) (item : BitVec 20) (o : ScriptOp) (s : State) : Answer :=
  .next (s.script k post item o { xs := [o.d, o.a] } (scriptReg o fun t => t.xreg o.a * o.imm.setWidth 64))
/-- R278. -/
def execScriptAnd (k : BitVec 4) (post : BitVec 32) (item : BitVec 20) (o : ScriptOp) (s : State) : Answer :=
  .next (s.script k post item o { xs := [o.d, o.a, o.b] } (scriptReg o fun t => t.xreg o.a &&& t.xreg o.b))
/-- R278. -/
def execScriptShl (k : BitVec 4) (post : BitVec 32) (item : BitVec 20) (o : ScriptOp) (s : State) : Answer :=
  .next (s.script k post item o { xs := [o.d, o.a] } (scriptReg o fun t => t.xreg o.a <<< (o.imm.toNat % 64)))
/-- R278. -/
def execScriptShr (k : BitVec 4) (post : BitVec 32) (item : BitVec 20) (o : ScriptOp) (s : State) : Answer :=
  .next (s.script k post item o { xs := [o.d, o.a] } (scriptReg o fun t => t.xreg o.a >>> (o.imm.toNat % 64)))
/-- R278, R280. -/
def execScriptModu (k : BitVec 4) (post : BitVec 32) (item : BitVec 20) (o : ScriptOp) (s : State) : Answer :=
  .next (s.script k post item o { xs := [o.d, o.a, o.b] } fun _ t =>
    if t.xreg o.b = 0 then .error (6, 0) else .ok (t.setX o.d (t.xreg o.a % t.xreg o.b)))

/-- EKH64 (R281). -/
def ekh64 (key salt : BitVec 64) : BitVec 64 :=
  let x := key ^^^ 0x5C3EA0F127D9B46B
  let x := x ^^^ (x >>> 31)
  let x := x * 0xC2B54D193A8F6E07
  let x := x ^^^ salt
  let x := x ^^^ (x >>> 29)
  let x := x * 0x8E61F3A5D4729B1B
  x ^^^ (x >>> 32)

/-- R281. -/
def execScriptHash (k : BitVec 4) (post : BitVec 32) (item : BitVec 20) (o : ScriptOp) (s : State) : Answer :=
  .next (s.script k post item o { xs := [o.d, o.a, o.b] } (scriptReg o fun t => ekh64 (t.xreg o.a) (t.xreg o.b)))

/-! ## Accesses (R278–R280, R282, R285) -/

/-- The stack offset of an access of `n` bytes, aligned to `al`, or the fault that it is (R280). The regions that
only the steward reaches are holes (R465, R513). -/
def accessAt (k : Nat) (a : BitVec 64) (n al : Nat) : Except ScriptFault Nat :=
  let o := a.toNat
  if 2 ^ 36 < o + n || o % al != 0 || (k = 0 && inReserved (o + n - 1)) then .error (2, o % 2 ^ 36) else .ok o

def Thread.access (t : Thread) (kind : AccessKind) (addr len : Nat) : Thread :=
  { t with accesses := t.accesses ++ [{ kind := kind, addr := addr, len := len }] }

/-- The element size of a row format, or none for raw rows. -/
def rowBytes (f : BitVec 4) : Option Nat := if f = 15 then none else some (ofmtBytes f.toNat)

/-- ELEMS elements of ROWFMT fit in the row (R280, cause 8). -/
def Thread.rowElems (t : Thread) (p : Post) : Except ScriptFault Nat :=
  match rowBytes t.rowfmt with
  | some w => if postElems p.line * w ≤ t.rowlen.toNat then .ok w else .error (8, 0)
  | none => .error (8, 0)

/-- R278. -/
def execScriptLd8 (k : BitVec 4) (post : BitVec 32) (item : BitVec 20) (o : ScriptOp) (s : State) : Answer :=
  .next (s.script k post item o { xs := [o.d, o.a], access := true } fun _ t => do
    let a ← accessAt k.toNat (t.xreg o.a + sext32 o.imm) 8 8
    .ok (t.access (.ld8 o.d) a 8))
/-- R278. -/
def execScriptLdrow (k : BitVec 4) (post : BitVec 32) (item : BitVec 20) (o : ScriptOp) (s : State) : Answer :=
  .next (s.script k post item o { xs := [o.a], ws := [o.w], access := true } fun _ t => do
    let a ← accessAt k.toNat (t.xreg o.a + sext32 o.imm) t.rowlen.toNat 64
    .ok (t.access (.ldrow o.w t.rowlen) a t.rowlen.toNat))
/-- R282. -/
def execScriptProbe (k : BitVec 4) (post : BitVec 32) (item : BitVec 20) (o : ScriptOp) (s : State) : Answer :=
  .next (s.script k post item o { xs := [o.d, o.a, o.b, o.b + 1], access := true } fun _ t => do
    if o.b = 15 then .error (1, 0)
    else
      let dir := t.xreg o.b
      let base := dir.toNat % 2 ^ 36 / 64 * 64
      let a ← accessAt k.toNat (BitVec.ofNat 64 base) (64 * 2 ^ (dir.toNat % 32)) 64
      .ok (t.access (.probe o.d (t.xreg o.a) dir (t.xreg (o.b + 1))) a (64 * 2 ^ (dir.toNat % 32))))
/-- R278, R280. -/
def execScriptSt8 (k : BitVec 4) (post : BitVec 32) (item : BitVec 20) (o : ScriptOp) (s : State) : Answer :=
  .next (s.script k post item o { xs := [o.a, o.b], access := true } fun p t => do
    if !postWr p.line then .error (3, 0)
    else
      let a ← accessAt k.toNat (t.xreg o.a + sext32 o.imm) 8 8
      .ok (t.access (.st8 (t.xreg o.b)) a 8))
/-- R285. -/
def execScriptRadd (k : BitVec 4) (post : BitVec 32) (item : BitVec 20) (o : ScriptOp) (s : State) : Answer :=
  .next (s.script k post item o { xs := [o.a], ws := [o.w], access := true } fun p t => do
    if !postWr p.line then .error (3, 0)
    else
      let _ ← t.rowElems p
      let a ← accessAt k.toNat (t.xreg o.a + sext32 o.imm) t.rowlen.toNat 64
      .ok (t.access (.radd (t.slot o.w) t.rowfmt (postElems p.line)) a t.rowlen.toNat))

/-! ## Rows and the bag (R278, R283) -/

/-- R278. -/
def execScriptXw (k : BitVec 4) (post : BitVec 32) (item : BitVec 20) (o : ScriptOp) (s : State) : Answer :=
  .next (s.script k post item o { xs := [o.d, o.b], ws := [o.w] }
    (scriptReg o fun t => (t.slot o.w).extractLsb' (64 * (((t.xreg o.b).toNat + o.imm.toNat) % 64)) 64))

/-- The sample of R283 after the draws of `j` in a list. -/
def sampleStep (salt : BitVec 64) (set : List Nat) (j : Nat) : List Nat :=
  let p := (ekh64 (BitVec.ofNat 64 j) salt).toNat % (j + 1)
  if set.contains p then j :: set else p :: set

/-- `n` put at its place in an increasing list. -/
def putUp (n : Nat) : List Nat → List Nat
  | [] => [n]
  | m :: ms => if n ≤ m then n :: m :: ms else m :: putUp n ms

/-- The positions that NSAMP chooses, in increasing order. -/
def samplePositions (n k : Nat) (salt : BitVec 64) : List Nat :=
  let set := if n ≤ k then List.range n
    else (List.range k).foldl (fun set i => sampleStep salt set (n - k + i)) []
  set.foldr putUp []

/-- R283; IMM outside 1–64 is a reserved value. -/
def execScriptNsamp (k : BitVec 4) (post : BitVec 32) (item : BitVec 20) (o : ScriptOp) (s : State) : Answer :=
  .next (s.script k post item o { xs := [o.a, o.b], ws := [o.w] } fun _ t =>
    let n := o.imm.toNat
    if n = 0 || 64 < n then .error (1, 0)
    else
      let ps := samplePositions (t.xreg o.a).toNat n (t.xreg o.b)
      .ok (t.setSlot o.w (vecOf64 fun j => ps.getD j (2 ^ 64 - 1))))

/-- R278; a value outside its range is a reserved value. -/
def execScriptSetrow (k : BitVec 4) (post : BitVec 32) (item : BitVec 20) (o : ScriptOp) (s : State) : Answer :=
  .next (s.script k post item o {} fun _ t =>
    let len := o.imm.toNat % 65536
    let fmt : BitVec 4 := o.imm.extractLsb' 16 4
    if o.imm.extractLsb' 20 12 != 0 || len % 64 != 0 || len < 64 || 512 < len
        || !(fmt = 2 || fmt = 3 || fmt = 5 || fmt = 6 || fmt = 15) then .error (1, 0)
    else .ok { t with rowlen := BitVec.ofNat 16 len, rowfmt := fmt })

/-- R278. -/
def execScriptBclr (k : BitVec 4) (post : BitVec 32) (item : BitVec 20) (o : ScriptOp) (s : State) : Answer :=
  .next (s.script k post item o {} fun _ t =>
    if o.imm = 0 then .ok { t with ba := 0 }
    else if o.imm = 1 then .ok { t with ba := vecOf32 fun _ => binary32.infBits true }
    else .error (1, 0))

/-- Element `e` of `w` bytes of a row, widened (R183). -/
def rowElem (v : Vec) (w : Nat) (fmt : BitVec 4) (e : Nat) : Nat :=
  cvtwLane fmt ((v.extractLsb' (8 * w * e) (8 * w)).toNat)

/-- BADD and BMAX: the bag joined with the widened row by `f`. -/
def bagJoin (o : ScriptOp) (f : Nat → Nat → Nat) (p : Post) (t : Thread) : Except ScriptFault Thread := do
  let w ← t.rowElems p
  .ok { t with ba := vecOf32 fun e =>
    if e < postElems p.line then f (lane32 t.ba e) (rowElem (t.slot o.w) w t.rowfmt e) else lane32 t.ba e }

/-- R278. -/
def execScriptBadd (k : BitVec 4) (post : BitVec 32) (item : BitVec 20) (o : ScriptOp) (s : State) : Answer :=
  .next (s.script k post item o { ws := [o.w] } (bagJoin o fun a b => (binary32.add 0 a b).1))
/-- R278. -/
def execScriptBmax (k : BitVec 4) (post : BitVec 32) (item : BitVec 20) (o : ScriptOp) (s : State) : Answer :=
  .next (s.script k post item o { ws := [o.w] } (bagJoin o fun a b => (binary32.max a b).1))
/-- R278. -/
def execScriptBdiv (k : BitVec 4) (post : BitVec 32) (item : BitVec 20) (o : ScriptOp) (s : State) : Answer :=
  .next (s.script k post item o { xs := [o.a] } fun _ t =>
    let n := (t.xreg o.a).toNat
    if n = 0 then .ok t else .ok { t with ba := vecOf32 fun e => div32 (lane32 t.ba e) (fp32OfNat n) })

/-! ## Results of an item (R278, R280, R284) -/

/-- `n` bytes of `v` written from result byte `o` on. -/
def Thread.emit (t : Thread) (o n v : Nat) : Thread :=
  let ws := (List.range ((o + n + 63) / 64 - o / 64)).map (o / 64 + ·)
  { t with
    emitted := true
    out := ws.foldl (fun m w =>
      let lo := max o (64 * w)
      let hi := min (o + n) (64 * w + 64)
      Sparse.set 0 m w (putBytes (Sparse.get 0 m w) (lo - 64 * w) (hi - lo) (v / 256 ^ (lo - o)))) t.out }

/-- R278, R284. -/
def execScriptEmitb (k : BitVec 4) (post : BitVec 32) (item : BitVec 20) (o : ScriptOp) (s : State) : Answer :=
  .next (s.script k post item o {} fun p t =>
    let w0 := o.imm.toNat % 256
    let f := postOfmt p.line
    let n := postElems p.line * ofmtBytes f
    if postOutw p.line < w0 + (n + 63) / 64 || (postSegop p.line != 0 && w0 != 0) then .error (4, 0)
    else if postSegop p.line != 0 then .ok { t with emitted := true, bag := some t.ba }
    else
      let v := ((List.range (postElems p.line)).map fun e => cvtnLane (BitVec.ofNat 4 f) 0 (lane32 t.ba e)).foldr
        (fun x acc => x % 256 ^ ofmtBytes f + 256 ^ ofmtBytes f * acc) 0
      .ok (t.emit (64 * w0) n v))
/-- R278. -/
def execScriptEmitw (k : BitVec 4) (post : BitVec 32) (item : BitVec 20) (o : ScriptOp) (s : State) : Answer :=
  .next (s.script k post item o { ws := [o.w] } fun p t =>
    let w0 := o.imm.toNat % 256
    let n := t.rowlen.toNat
    if postSegop p.line != 0 || postOutw p.line < w0 + n / 64 then .error (4, 0)
    else .ok (t.emit (64 * w0) n (t.slot o.w).toNat))
/-- R278. -/
def execScriptEmitx (k : BitVec 4) (post : BitVec 32) (item : BitVec 20) (o : ScriptOp) (s : State) : Answer :=
  .next (s.script k post item o { xs := [o.a] } fun p t =>
    let b := 8 * (o.imm.toNat % 512)
    if postSegop p.line != 0 || postOutw p.line ≤ b / 64 then .error (4, 0)
    else .ok (t.emit b 8 (t.xreg o.a).toNat))

/-! ## Branches and the end (R278) -/

/-- A branch to IMM[9:0] when `b` holds. -/
def scriptBranch (o : ScriptOp) (b : Thread → Bool) (_ : Post) (t : Thread) : Except ScriptFault Thread :=
  .ok (if b t then { t with pc := o.imm.toNat % 1024 } else t)

/-- R278. -/
def execScriptBeq (k : BitVec 4) (post : BitVec 32) (item : BitVec 20) (o : ScriptOp) (s : State) : Answer :=
  .next (s.script k post item o { xs := [o.a, o.b] } (scriptBranch o fun t => t.xreg o.a = t.xreg o.b))
/-- R278. -/
def execScriptBne (k : BitVec 4) (post : BitVec 32) (item : BitVec 20) (o : ScriptOp) (s : State) : Answer :=
  .next (s.script k post item o { xs := [o.a, o.b] } (scriptBranch o fun t => t.xreg o.a != t.xreg o.b))
/-- R278. -/
def execScriptBltu (k : BitVec 4) (post : BitVec 32) (item : BitVec 20) (o : ScriptOp) (s : State) : Answer :=
  .next (s.script k post item o { xs := [o.a, o.b] } (scriptBranch o fun t => (t.xreg o.a).toNat < (t.xreg o.b).toNat))
/-- R278. -/
def execScriptJmp (k : BitVec 4) (post : BitVec 32) (item : BitVec 20) (o : ScriptOp) (s : State) : Answer :=
  .next (s.script k post item o {} (scriptBranch o fun _ => true))
/-- R278: the item is complete once its accesses are. -/
def execScriptEnd (k : BitVec 4) (post : BitVec 32) (item : BitVec 20) (o : ScriptOp) (s : State) : Answer :=
  .next (s.script k post item o {} fun _ t => .ok { t with ended := true })

/-! ## Accesses complete (R279, R285) -/

def Access.writes (a : Access) : Bool := match a.kind with | .st8 _ => true | .radd _ _ _ => true | _ => false

def Access.overlaps (a b : Access) : Bool := a.addr < b.addr + b.len && b.addr < a.addr + a.len

/-- The thread has a RADD outstanding that overlaps `a`. -/
def Thread.raddOver (t : Thread) (a : Access) : Bool :=
  t.accesses.any fun c => (match c.kind with | .radd _ _ _ => true | _ => false) && c.overlaps a

/-- The item of the thread can still issue instructions: its script has not ended, and no access of it met an uncorrectable
codeword (R264). -/
def Thread.runs (t : Thread) : Bool := !t.ended && !t.dead

/-- The post can still issue RADDs: nothing has stopped it, and an item of it runs or can still start. -/
def Post.live (q : Post) : Bool :=
  postWr q.line && !q.cancelled && !q.faulted
    && ((q.nextItem < postItems q.line && (q.threads.all fun t => !t.2.dead || q.nextItem < t.1 + q.window))
      || q.threads.any fun t => t.2.runs)

/-- RADD `a` must wait behind the earlier posts that may still write and the earlier items of its post, and, where those have
been stopped, behind the overlapping RADDs that they have issued (R285, R280, R288). -/
def State.raddWaits (s : State) (k : Nat) (p : Post) (item : Nat) (a : Access) : Bool :=
  (p.threads.any fun t => t.1 < item && ((p.live && t.2.runs) || t.2.raddOver a))
    || (s.stack k).active.any fun q => (q.number - p.number).msb && (q.live || q.threads.any fun t => t.2.raddOver a)

/-- The row that PROBE finds, with the buckets that it read: the walk from step `j` (R282). -/
def probeWalk (bucket : Nat → Option (List Byte)) (key : BitVec 64) (h logb plim : Nat) :
    Nat → Nat → Option (Option Nat × Nat)
  | 0, j => some (none, j)
  | fuel + 1, j =>
    if plim ≤ j then some (none, j)
    else
      match bucket ((h + j) % 2 ^ logb) with
      | none => none
      | some bs =>
        let entry (e : Nat) : List Byte := (bs.drop (16 * e)).take 16
        let flags (e : Nat) : Nat := ((entry e).getD 13 0).toNat
        let stops (e : Nat) : Bool := flags e % 4 = 0 || (flags e % 2 = 1 && natOf ((entry e).take 8) = key.toNat)
        match (List.range 4).find? stops with
        | some e => some (if flags e % 4 = 0 then none else some (natOf (((entry e).drop 8).take 5)), j + 1)
        | none => probeWalk bucket key h logb plim fuel (j + 1)

/-- The bytes of a stack range, as its codewords give them. -/
def State.peek (s : State) (k o n : Nat) : Option (List Byte) :=
  let b := k * 0x1000000000 + o
  if s.eccOf b n = 2 then none else some (Mem.readBytes s.mem b n)

/-- One access completes: the state of the stack and of the thread, or none where an uncorrectable codeword halts the
fabric (R264). A RADD reads and writes at once, so one that a reset finds outstanding has not read yet: `reset` completes its
read and writes nothing (R288; DESIGN CHOICE, log entry 107). -/
def State.finishAccess (s : State) (k : Nat) (t : Thread) (a : Access) (reset : Bool) : State × Option Thread :=
  let b := k * 0x1000000000 + a.addr
  match a.kind with
  | .ld8 d =>
    match s.dramRead k b 8 with
    | (s, some bs) => (s, some ({ t with used := t.used + 1 }.setX d (BitVec.ofNat 64 (natOf bs))))
    | (s, none) => (s.dramHalt k b, none)
  | .ldrow w len =>
    match s.dramRead k b len.toNat with
    | (s, some bs) => (s, some ({ t with used := t.used + 1 }.setSlot w (BitVec.ofNat 4096 (natOf bs))))
    | (s, none) => (s.dramHalt k b, none)
  | .probe d key dir salt =>
    let logb := dir.toNat % 32
    let plim := dir.toNat / 2 ^ 36 % 16
    let h := (ekh64 key salt).toNat
    match probeWalk (fun i => s.peek k (a.addr + 64 * i) 64) key h logb plim 16 0 with
    | none =>
      match (List.range plim).find? fun j => (s.peek k (a.addr + 64 * ((h + j) % 2 ^ logb)) 64).isNone with
      | some j =>
        let bucket (j : Nat) : Nat := b + 64 * ((h + j) % 2 ^ logb)
        let s := (List.range (j + 1)).foldl (fun s j => (s.dramRead k (bucket j) 64).1) s
        (s.dramHalt k (bucket j), none)
      | none => (s, none)
    | some (row, n) =>
      let s := (List.range n).foldl (fun s j => (s.dramRead k (b + 64 * ((h + j) % 2 ^ logb)) 64).1) s
      let miss : Bool := row.isNone
      let s := if miss then s.count (.stack (BitVec.ofNat 4 k)) 0x56 0 1 else s
      (s, some ({ t with used := t.used + n, misses := t.misses + (if miss then 1 else 0) }.setX d
        (match row with | some r => BitVec.ofNat 64 r | none => BitVec.allOnes 64)))
  | .st8 v => (s.dramWrite k b (bytesOf v.toNat 8), some { t with used := t.used + 1 })
  | .radd row fmt elems =>
    match s.dramRead k b a.len with
    | (s, none) => (s.dramHalt k b, none)
    | (s, some bs) =>
      if reset then (s, some { t with used := t.used + 1 })
      else
      let w := ofmtBytes fmt.toNat
      let old : Vec := BitVec.ofNat 4096 (natOf bs)
      let new := (List.range elems).flatMap fun e =>
        bytesOf (cvtnLane fmt 0 (binary32.add 0 (rowElem old w fmt e) (rowElem row w fmt e)).1) w
      (s.dramWrite k b new, some { t with used := t.used + 2 })

/-- SCRIPT_ACCESS_COMPLETE: the older or the second outstanding access of a thread. One that meets an uncorrectable codeword
retires, and its item never completes (R264); the array keeps running (R288). -/
def execScriptAccessComplete (k : BitVec 4) (post : BitVec 32) (item : BitVec 20) (second : Bool) (s : State) : Answer :=
  .next (match s.postOf k.toNat post with
    | none => s
    | some p =>
      match Sparse.find? item.toNat p.threads with
      | none => s
      | some t =>
        match t.accesses[if second then 1 else 0]? with
        | none => s
        | some a =>
          let blocked : Bool := second && t.accesses.any fun c => c != a && c.overlaps a && (c.writes || a.writes)
          let waits : Bool := match a.kind with | .radd _ _ _ => s.raddWaits k.toNat p item.toNat a | _ => false
          if blocked || waits then s
          else
            match s.finishAccess k.toNat t a p.cancelled with
            | (s, none) =>
              let t' := { t with accesses := t.accesses.eraseIdx (if second then 1 else 0), dead := true }
              s.modPost k.toNat post fun q => { q with threads := Sparse.put item.toNat t' q.threads }
            | (s, some t') =>
              let t' := { t' with accesses := t'.accesses.eraseIdx (if second then 1 else 0) }
              (s.modPost k.toNat post fun q => { q with threads := Sparse.put item.toNat t' q.threads }).endItem k.toNat
                post item.toNat)

/-! ## Delivery and completion (R151, R152, R274, R286, R287) -/

/-- The numbers in the tile's issue order of the posts into end `qe` that are outstanding, held, or yet to start. -/
def Tile.postsInto (x : Tile) (qe : BitVec 6) : List (BitVec 32) :=
  (x.petty.posts.filterMap fun q => if q.qe = qe then some q.number else none)
    ++ (x.petty.latePosts.filterMap fun q => if q.qe = qe then some q.number else none)
    ++ (x.petty.reqs.filterMap fun r => if r.kind = .gpost && r.qe = qe then some r.number else none)
    ++ ((x.esc.held ++ x.esc.releasing).filterMap fun h => match h.2 with
      | .gpost m _ _ e => if e = qe then some m else none
      | _ => none)

/-- No post of the tile into the same end that it issued earlier is outstanding, held or yet to start (R151). -/
def State.postFirst (s : State) (k : Nat) (p : Post) : Bool :=
  let x := s.tile p.tile.toNat
  match x.petty.posts.find? fun q => q.stack.toNat = k && q.post = p.number with
  | some q => !(x.postsInto p.qe).any fun n => (n - q.number).msb
  | none => false

/-- Words of a post enter its FQ end. -/
def State.pushFq (s : State) (k : Nat) (p : Post) (ws : List Line) : State :=
  let t := p.tile.toNat
  let spec := if p.spec then postKey k p.number else 0
  s.modTile t fun x => x.setEnd64 p.qe (x.end64 p.qe ++ ws.map fun w => { data := w, cyc := s.asyncCyc, spec := spec })

/-- POST_RESULT_DELIVERY: every word but the post's last, as room allows. -/
def execPostResultDelivery (k : BitVec 4) (post : BitVec 32) (s : State) : Answer :=
  .next (match s.postOf k.toNat post with
    | none => s
    | some p =>
      if p.cancelled then s.modPost k.toNat post fun q => { q with words := [] }
      else if p.faulted || !s.postFirst k.toNat p then s
      else
        let room := 64 - ((s.tile p.tile.toNat).end64 p.qe).length
        let n := min (min room p.words.length) (p.total - 1 - p.delivered)
        (s.pushFq k.toNat p (p.words.take n)).modPost k.toNat post fun q => { q with
          words := q.words.drop n, delivered := q.delivered + n })

/-- The post leaves its stack and stops being outstanding. -/
def State.postDone (s : State) (k : Nat) (p : Post) : State :=
  (s.modStack k fun x => { x with active := x.active.filter fun q => q.number != p.number }).modTile p.tile.toNat fun x =>
    { x with petty := { x.petty with
      posts := x.petty.posts.filter fun q => !(q.stack.toNat = k && q.post = p.number) } }

/-- POST_COMPLETE: the last word, or the end of a post that returns none; a cancelled post ends when its accesses
have. -/
def execPostComplete (k : BitVec 4) (post : BitVec 32) (s : State) : Answer :=
  .next (match s.postOf k.toNat post with
    | none => s
    | some p =>
      if p.cancelled then
        if p.threads.all fun t => t.2.accesses.isEmpty then s.postDone k.toNat p else s
      else if p.faulted || p.released < postItems p.line || p.delivered + p.words.length != p.total || 1 < p.words.length
      then s
      else if p.words.isEmpty then (s.postDone k.toNat p).count (.stack k) 0x57 0 1
      else if s.postFirst k.toNat p && ((s.tile p.tile.toNat).end64 p.qe).length < 64 then
        ((s.pushFq k.toNat p p.words).postDone k.toNat p).count (.stack k) 0x57 0 1
      else s)

end Sys2Proof.Machine
end

