-- ==== Sys2Proof/Machine/Bundle.lean ====
section
/-!
DEFINITION. The stored programs as words: the 256-bit bundle of a tile cut into the commands of its slots (R98, R101–R103,
R108, R109, R112, R113, R116, R117, R120, R123, R124, R141, R144), and the 64-bit word of a gleaner script (R277, R278, R280).
-/
namespace Sys2Proof.Machine

/-! ## The slots of a bundle -/

/-- The M slot (R108, R109). -/
def decodeM (t : TileNo) (w : BitVec 40) : Option Instr :=
  let m : MSlot := { fmt := w.extractLsb' 5 4, bank := w.extractLsb' 9 2, acc := w.getLsbD 11, plane := w.getLsbD 12
                     ag := w.extractLsb' 13 4, off := w.extractLsb' 17 12, rsv := w.extractLsb' 29 11 }
  match (w.setWidth 5).toNat with
  | 1 => some (.mma t m)
  | 2 => some (.ldw t m)
  | _ => none

/-- The operation of a V opcode (R113, R147, R149). -/
def vCommand (op : Nat) : Option (TileNo → VSlot → Instr) :=
  match op with
  | 0x01 => some .mov | 0x02 => some .fadd | 0x03 => some .fsub | 0x04 => some .fmul | 0x05 => some .fma
  | 0x06 => some .fmax | 0x07 => some .fmin | 0x08 => some .fabs | 0x09 => some .fneg | 0x0A => some .fcmpgt
  | 0x0B => some .fcmpeq | 0x0C => some .sel
  | 0x10 => some .exp | 0x11 => some .log | 0x12 => some .tanh | 0x13 => some .sigm | 0x14 => some .rsqrt
  | 0x18 => some .iadd | 0x19 => some .isub | 0x1A => some .imul | 0x1B => some .and_ | 0x1C => some .or_
  | 0x1D => some .xor | 0x1E => some .shl | 0x1F => some .shr | 0x20 => some .sar
  | 0x28 => some .rot | 0x30 => some .cvtn | 0x31 => some .cvtw | 0x38 => some .rng
  | 0x40 => some .dadd | 0x41 => some .dsub | 0x42 => some .dmul | 0x43 => some .dfma | 0x44 => some .f2d
  | 0x45 => some .d2f
  | 0x48 => some .xclr | 0x49 => some .xadd | 0x4A => some .xsum | 0x4B => some .xrd | 0x4C => some .xout
  | 0x4D => some .xin
  | _ => none

/-- The fields of a V slot (R112, R147). -/
def vFields (w : BitVec 64) : VSlot :=
  { dst := w.extractLsb' 8 6, srcA := w.extractLsb' 14 6, srcB := w.extractLsb' 20 6, srcC := w.extractLsb' 26 6
    rnd := w.extractLsb' 32 2, bp := w.getLsbD 34, fmt := w.extractLsb' 35 4, part := w.extractLsb' 39 3
    sh := w.extractLsb' 42 7, xa := w.extractLsb' 49 2, xb := w.extractLsb' 51 2, slice := w.extractLsb' 53 4
    rsv := w.extractLsb' 57 7 }

def decodeV (t : TileNo) (w : BitVec 64) : Option Instr := (vCommand (w.setWidth 8).toNat).map fun f => f t (vFields w)

/-- The L slot (R116, R117, R150, R153, R160). -/
def decodeL (t : TileNo) (w : BitVec 48) : Option Instr :=
  let l : LSlot := { ag := w.extractLsb' 5 4, off := w.extractLsb' 9 12, qe := w.extractLsb' 21 6, ag2 := w.extractLsb' 27 4
                     off2 := w.extractLsb' 31 12, chk := w.getLsbD 43, rsv := w.extractLsb' 44 4 }
  match (w.setWidth 5).toNat with
  | 0x01 => some (.ld t l) | 0x02 => some (.st t l) | 0x03 => some (.ldv t l) | 0x04 => some (.stv t l)
  | 0x05 => some (.ocw t l) | 0x08 => some (.pget t l) | 0x09 => some (.pput t l) | 0x0A => some (.gpost t l)
  | _ => none

/-- One sub-operation of the S slot (R120). -/
def decodeS (t : TileNo) (w : BitVec 24) : Option Instr :=
  let x : SSub := { west := w.getLsbD 3, track := w.extractLsb' 4 6, fin := w.extractLsb' 10 3, lat := w.extractLsb' 13 8
                    rsv := w.extractLsb' 21 3 }
  match (w.setWidth 3).toNat with
  | 1 => some (.take t x)
  | 2 => some (.tap t x)
  | 3 => some (.drive t x)
  | 4 => some (.move t { src := w.extractLsb' 4 6, dst := w.extractLsb' 10 6
                         rsv := w.extractLsb' 16 8 ++ w.extractLsb' 3 1 })
  | _ => none

/-- The operation of a C opcode (R124, R145, R157, R159). -/
def cCommand (op : Nat) : Option (TileNo → CSlot → Instr) :=
  match op with
  | 0x01 => some .loop | 0x02 => some .jump | 0x03 => some .idle | 0x04 => some .endProgram
  | 0x08 => some .tadd | 0x09 => some .tsub | 0x0A => some .tsig
  | 0x10 => some .wait | 0x11 => some .drain | 0x12 => some .farm
  | 0x18 => some .agset | 0x19 => some .agadd
  | 0x20 => some .eopen | 0x21 => some .eres | 0x22 => some .vbr | 0x23 => some .gen
  | _ => none

/-- The fields of a C slot (R123). -/
def cFields (w : BitVec 48) : CSlot :=
  { lvl := w.extractLsb' 6 3, p := w.getLsbD 9, pidx := w.extractLsb' 10 6, imm := w.extractLsb' 16 16
    arg := w.extractLsb' 32 16 }

def decodeC (t : TileNo) (w : BitVec 48) : Option Instr := (cCommand (w.setWidth 6).toNat).map fun f => f t (cFields w)

/-- The commands of a slot: none where it is all zero, and the halt of a reserved opcode or of a NOP that is not all zero
(R103, R141). -/
def slotCommand {n : Nat} (t : TileNo) (slot : Slot) (decode : TileNo → BitVec n → Option Instr) (w : BitVec n) : List Instr :=
  if w = 0 then [] else [(decode t w).getD (.reservedOpcodeIssue t slot)]

/-- The commands of a bundle (R101, R102): its slots, then its loop end. A bundle of NOPs is one command with its header; a
header that breaks R102 with LE = 0 is an illegal encoding in the C slot (R141). -/
def decodeBundle (t : TileNo) (w : BitVec 256) : List Instr :=
  let hdr : BitVec 8 := w.setWidth 8
  if w.extractLsb' 8 248 = 0 then [.nop t hdr]
  else
    let bad : Bool := !hdr.getLsbD 0 && hdr != 0
    slotCommand t .m decodeM (w.extractLsb' 8 40)
      ++ slotCommand t .v decodeV (w.extractLsb' 48 64)
      ++ slotCommand t .l decodeL (w.extractLsb' 112 48)
      ++ slotCommand t .s decodeS (w.extractLsb' 160 24)
      ++ slotCommand t .s decodeS (w.extractLsb' 184 24)
      ++ (if bad then [.reservedOpcodeIssue t .c] else slotCommand t .c decodeC (w.extractLsb' 208 48))
      ++ (if hdr.getLsbD 0 then [.loopEnd t (hdr.extractLsb' 1 3) (hdr.extractLsb' 4 4)] else [])

/-- The first tile that issues in this cycle and has not yet done so. -/
def State.issuesNext (s : State) : Option Nat :=
  (s.fab.tiles.find? fun x => tileIn s.grade x.1 && x.2.issues s.fab.scc && (x.2.bundleIn s.fab.scc).isNone).map Prod.fst

/-- The commands of the bundle that is issued next: the fabric runs, and a tile whose turn it is has not issued in this
cycle. It issues the bundle of its PC (R98, R99; log entry 15). -/
def State.bundleNext (s : State) : Option (List Instr) :=
  if !s.running then none
  else s.issuesNext.map fun t =>
    let x := s.tile t
    decodeBundle (BitVec.ofNat 10 t) (Sparse.get 0 x.seq.imem x.seq.pc.toNat)

/-! ## Script words (R277, R278, R280) -/

/-- The fields of a script word (R277). -/
def scriptFields (w : BitVec 64) : ScriptOp :=
  { d := w.extractLsb' 8 4, a := w.extractLsb' 12 4, b := w.extractLsb' 16 4, w := w.getLsbD 20, rsv := w.extractLsb' 21 11
    imm := w.extractLsb' 32 32 }

/-- The instruction of a script opcode (R278). -/
def scriptCommand (op : Nat) : Option (BitVec 4 → BitVec 32 → BitVec 20 → ScriptOp → State → Answer) :=
  match op with
  | 0x00 => some execScriptNop | 0x01 => some execScriptLi | 0x02 => some execScriptLih | 0x03 => some execScriptAdd
  | 0x04 => some execScriptSub | 0x05 => some execScriptMuli | 0x06 => some execScriptAnd | 0x07 => some execScriptShl
  | 0x08 => some execScriptShr | 0x09 => some execScriptModu | 0x0A => some execScriptHash
  | 0x10 => some execScriptLd8 | 0x11 => some execScriptLdrow | 0x12 => some execScriptProbe | 0x13 => some execScriptXw
  | 0x14 => some execScriptNsamp | 0x18 => some execScriptSetrow | 0x19 => some execScriptBclr
  | 0x1A => some execScriptBadd | 0x1B => some execScriptBmax | 0x1C => some execScriptBdiv
  | 0x20 => some execScriptEmitb | 0x21 => some execScriptEmitw | 0x22 => some execScriptEmitx
  | 0x28 => some execScriptSt8 | 0x29 => some execScriptRadd
  | 0x30 => some execScriptBeq | 0x31 => some execScriptBne | 0x32 => some execScriptBltu | 0x33 => some execScriptJmp
  | 0x3F => some execScriptEnd
  | _ => none

/-- A thread runs the instruction of its PC, when it may (R279); a reserved opcode is script fault 1 (R280). -/
def State.runThread (s : State) (k : Nat) (p : Post) (item : Nat) (t : Thread) : State :=
  if !t.runs || p.faulted || p.cancelled then s
  else
    let w := Sparse.get 0 (s.stack k).script t.pc
    match scriptCommand (w.setWidth 8).toNat with
    | some f =>
      match f (BitVec.ofNat 4 k) p.number (BitVec.ofNat 20 item) (scriptFields w) s with
      | .next u => u
      | _ => s
    | none => if 1023 < t.pc then s.scriptFault k p t.pc (7, 0) else s.scriptFault k p t.pc (1, 0)

/-- Every thread of every gleaner array runs one instruction (R272; the pace: log entry 109). -/
def State.runScripts (s : State) : State :=
  s.heath.memStacks.foldl (fun s k =>
    k.2.active.foldl (fun s p =>
      p.threads.foldl (fun s t =>
        match s.postOf k.1 p.number with
        | some q => s.runThread k.1 q t.1 t.2
        | none => s) s) s) s

end Sys2Proof.Machine
end

