-- ==== Sys2Proof/Machine/Links.lean ====
section
/-!
DEFINITION. The link layer of the hedge links (R349–R359, R369, R370, R377, R378): flits, retries, link states, resets,
forwarding, heartbeats on a link.
-/
namespace Sys2Proof.Machine

def State.linkTally (s : State) (k : Nat) (event : BitVec 8) : State := s.count (.link (BitVec.ofNat 5 k)) event 0 1

/-- The credits of a virtual channel of link `k` that packets in its receive buffer hold while they wait for their way
on. -/
def State.buffered (s : State) (k : Nat) (vc : BitVec 3) : Nat :=
  ((s.heath.outq.filter fun o => o.input = some (BitVec.ofNat 5 k) && packetVc o.ty o.packet = vc).map fun o => o.back).sum

/-- The credits that the receiver of link `k` grants as it comes up: 128 of each virtual channel, without those that packets of
an earlier training still hold in its buffer (R359). -/
def State.grantedCredits (s : State) (k : Nat) : SMap Nat :=
  (List.range 8).foldl (fun m v => Sparse.set 0 m v (128 - s.buffered k (BitVec.ofNat 3 v))) []

/-- The link comes up: SEQ and credits start from zero at both ends, and the receiver's credits of each virtual channel are
granted (R351, R359). A reset that was asked while it trained is still to come (R357). -/
def State.linkComesUp (s : State) (k : Nat) : State :=
  (s.modLink k fun l => { l with
    st := 3, txseq := 0, rxseq := 0, nakDue := false, retry := [], txq := [], rx := [], credits := []
    owed := s.grantedCredits k, fecLostSince := none, recon := none, heard := some s.clk.clk }).drainOut

/-- The link begins to train (R351). -/
def State.linkTrains (s : State) (k : Nat) (st : BitVec 3) : State :=
  s.modLink k fun l => { l with
    st := st, peerOk := false, txseq := 0, rxseq := 0, nakDue := false, retry := [], txq := [], rx := []
    credits := [], owed := [], resetting := false, recon := none, trainSince := s.clk.clk, myNonce := none
    peerNonce := none, proofSent := false, fecLostSince := none }

/-- The lanes of a link in training are ready: its training goes on from its own start, and so does a reset that was asked. -/
def State.linkReady (s : State) (k : Nat) : State :=
  let l := s.link k
  (s.linkTrains k l.st).modLink k fun x => { x with
    trainSince := l.trainSince, resetting := l.resetting, recon := l.recon }

/-- The domain of hedge link `k` (R35). -/
def linkDomain (k : Nat) : Nat := 68 + k / 10 * 11 + k % 10

/-! ## Retries (R354, R355) -/

/-- SEQ `a` is before `b` in the window of R354. -/
def seqBefore (a b : BitVec 12) : Bool := (a - b).msb

/-- Every buffered flit is resent, in order, with the ACKSEQ of now; the first carries a NAK that is due. -/
def State.resend (s : State) (k : Nat) : State :=
  let l := s.link k
  let s := s.setLink k { l with
    retry := l.retry.map fun f => { f with resends := f.resends + 1 }, oldestSince := s.clk.clk
    nakDue := l.nakDue && l.retry.isEmpty }
  l.retry.foldl (fun s f =>
    let nak := l.nakDue && l.retry.head? = some f
    (s.emit (.flit (BitVec.ofNat 5 k) (flitBits f.body (flitCtl f.seq l.rxseq nak f.cvc f.ccnt)))).count
      (.link (BitVec.ofNat 5 k)) 0x70 f.vc 1) (s.linkTally k 0x71)

/-- The packets that a stream of bytes holds, by TYPE, and the bytes of one that is incomplete; bytes of 0 between packets
are idle (R352, R360). -/
def readStream : Nat → List Byte → List (Nat × Packet) × List Byte
  | 0, bs => ([], bs)
  | _ + 1, [] => ([], [])
  | fuel + 1, b :: bs =>
    if b = 0 then readStream fuel bs
    else
      match readPacket (b :: bs) with
      | none => ([], b :: bs)
      | some (ty, p, rest) =>
        let r := readStream fuel rest
        ((ty, p) :: r.1, r.2)

/-- A flit arrives (R355): it is accepted in SEQ order, and its ACKSEQ, NAK and credits take effect; one that fails its
CRC or FEC, or whose SEQ is not expected, is dropped, and a NAK is due. The answer holds the packets that the flit
completes. -/
def State.takeFlit (s : State) (n : Nat) (x : Flit) : State × List (Nat × Packet) :=
  let l := s.link n
  let s := s.modLink n fun y => { y with
    fecLostSince := if x.fecLock then none else some (l.fecLostSince.getD s.clk.clk) }
  if !x.ok || x.seq != l.rxseq then
    let s := if x.ok then s else s.linkTally n 0x72
    ((s.modLink n fun y => { y with nakDue := true }).drainOut, [])
  else
    let rest := l.retry.filter fun f => !seqBefore f.seq x.ackseq
    let c := Sparse.get 0 l.credits x.cvc.toNat
    let bs := l.rx ++ bytesOf x.body.toNat 248
    let got := readStream (bs.length + 1) bs
    let s := s.modLink n fun y => { y with
      rxseq := y.rxseq + 1, retry := rest, rx := got.2
      oldestSince := if rest.length < l.retry.length then s.clk.clk else y.oldestSince
      credits := Sparse.set 0 y.credits x.cvc.toNat (min 128 (c + x.ccnt.toNat)) }
    ((if x.nak && !rest.isEmpty then s.resend n else s).drainOut, got.1)

/-- RETRY_TIMEOUT: the oldest unacknowledged flit has waited 600 ns. -/
def execRetryTimeout (k : BitVec 5) (s : State) : Answer :=
  let n := k.toNat
  let l := s.link n
  .next (if linkIn s.grade n && l.flows && !l.retry.isEmpty && s.passed l.oldestSince (600 * nsUnits) then s.resend n
    else s)

/-! ## Link states (R351, R356, R357, R378) -/

/-- The packets whose last byte the peer has not acknowledged: those of the retry buffer and those behind it. -/
def Link.packets (l : Link) : List (PacketType × Packet) :=
  l.retry.flatMap (fun f => f.ends) ++ l.txq.map fun x => (x.1, x.2.1)

/-- The first and the number of the IDs of a list that begins with `a`. -/
def idSpan (a : BitVec 32) (ids : List (BitVec 32)) : BitVec 32 × Nat :=
  let first := ids.foldl (fun m x => if (x - m).msb then x else m) a
  (first, min 4096 (ids.foldl (fun n x => max n ((x - first).toNat + 1)) 1))

/-- The packets of a link's retry buffer go to other paths, with the coins that they carry; the receiver discards the
copies that had arrived (R326). A multicast copy waits for its link or goes to the device at its other end. Heartbeats
and the packets of a training end with the link. -/
def State.reroute (s : State) (k : Nat) : State :=
  let keep := (s.link k).packets.filter fun p => p.1 != .heartbeat && p.2.dst != 0xFFF
  let waiting : List OutPacket := keep.map fun p =>
    { ty := p.1, packet := p.2, pinned := if p.1 = .mcast then some (BitVec.ofNat 5 k) else none }
  let s := s.modLink k fun l => { l with retry := [], txq := [] }
  { s with heath := { s.heath with outq := waiting ++ s.heath.outq } }

/-- What a comparison names: the far device, and the channel, with bit 15 set for coin returns of the ring whose sender that
device is. The spec gives the two kinds of question one form (DESIGN CHOICE, log entry 36). -/
abbrev Compared : Type := BitVec 12 × BitVec 16

/-- The comparisons that a packet of this device needs, each with the ID to ask for: a transfer at its receiver, a multicast copy
at the device of each of its members, a return at the ring's sender (R326). -/
def State.comparesOf (s : State) (ty : PacketType) (p : Packet) : List (Compared × BitVec 32) :=
  let chan : BitVec 16 := p.chan.setWidth 16
  if p.src != s.heath.id then []
  else if ty = .write || ty = .readReq || ty = .ring || ty = .signal then [((p.dst, chan), p.tid)]
  else if ty = .ret then [((p.dst, chan ||| 0x8000), p.tid)]
  else if ty = .mcast then
    let e := (s.chan p.chan.toNat).entry
    (((maskMembers p.mask).filterMap fun m =>
      s.physOf (chanDev (s.chan ((s.members e).getD m localChan)).entry)).dedup).map fun d => ((d, chan), p.tid)
  else []

/-- The stewards of the far ends of this device's transfers and returns in the packets of a list are asked what has completed
(R326): the state, and the asks that can reach their stewards. -/
def State.askAbout (s : State) (ps : List (PacketType × Packet)) : State × List Compared :=
  let mine := ps.flatMap fun p => s.comparesOf p.1 p.2
  let flows := (mine.map Prod.fst).dedup
  (flows.foldl (fun s c =>
    let ids := (mine.filter fun p => p.1 = c).map Prod.snd
    let span := idSpan (ids.headD 0) ids
    s.sendControl c.1 none 10 (bytesOf c.2.toNat 2 ++ bytesOf span.1.toNat 4 ++ bytesOf span.2 4)) s,
    flows.filter fun c => (s.firstPath c.1).isSome)

/-- A link goes down: it retrains, its packets go to other paths, and their stewards compare (R326, R356). -/
def State.linkFails (s : State) (k : Nat) (st : BitVec 3) : State :=
  let ps := (s.link k).packets
  let s := s.reroute k
  (((s.linkTrains k st).askAbout ps).1).drainOut

/-- LINK_DOWN (R356). -/
def execLinkDown (k : BitVec 5) (fecLost : Bool) (s : State) : Answer :=
  let n := k.toNat
  let l := s.link n
  let due : Bool := if fecLost then (match l.fecLostSince with | some t => s.passed t usUnits | none => false)
    else l.retry.any fun f => 8 ≤ f.resends
  .next (
    if linkIn s.grade n && l.st = 3 && due then (s.linkTally n 0x75).linkFails n 4 else s)

/-- LRESET: a write of 1 requests a reset; the link takes no new flits (R357). -/
def execLreset (w : Writer) (k : BitVec 5) (s : State) : Answer :=
  .next (if s.reaches w && linkIn s.grade k.toNat && (s.link k.toNat).enable then
      s.modLink k.toNat fun l => { l with resetting := true }
    else s)

/-- The reset of link `k` retrains it, and its domain's value of time is valid no more (R53, R357). -/
def State.linkRestarts (s : State) (k : Nat) : State :=
  let s := s.linkTrains k 2
  let d := linkDomain k
  { s with clk := { s.clk with
    consumers := Sparse.set {} s.clk.consumers d { Sparse.get ({} : Consumer) s.clk.consumers d with valid := false } } }

/-- LINK_RESET (R357): the retry buffer is reconciled, and once every comparison is answered the link retrains. -/
def execLinkReset (k : BitVec 5) (s : State) : Answer :=
  let n := k.toNat
  let l := s.link n
  .next (
    if !(linkIn s.grade n && l.resetting) then s
    else
      match l.recon with
      | none =>
        let (s, asks) := (s.reroute n).askAbout l.packets
        if asks.isEmpty then (s.linkRestarts n).drainOut
        else (s.modLink n fun y => { y with recon := some asks }).drainOut
      | some [] => (s.linkRestarts n).drainOut
      | some _ => s)

/-- A comparison is answered: a reset that waited for it alone goes on (R357). -/
def State.reconciled (s : State) (src : BitVec 12) (chan : BitVec 16) : State :=
  s.heath.links.foldl (fun s l =>
    match l.2.recon with
    | some asks =>
      let rest := asks.erase (src, chan)
      if rest.isEmpty then s.linkRestarts l.1 else s.modLink l.1 fun y => { y with recon := some rest }
    | none => s) s

/-- ENABLE (R378): 0 takes the link down and holds it disabled, 1 lets it train. -/
def execEnable (w : Writer) (k : BitVec 5) (on : Bool) (s : State) : Answer :=
  let n := k.toNat
  .next (
    if !(s.reaches w && linkIn s.grade n) then s
    else if on then
      if (s.link n).enable then s else (s.linkTrains n 2).modLink n fun l => { l with enable := true }
    else
      let s := if (s.link n).st = 3 then s.linkFails n 1 else s.linkTrains n 1
      (s.modLink n fun l => { l with enable := false, st := 1 }).drainOut)

/-- LINK_TRAINING: in a link that trains the lanes and the FEC are ready and the peer is known, so the nonce leaves; or
10 ms have passed without success (R351, R462). -/
def execLinkTraining (k : BitVec 5) (peer : Option (BitVec 12)) (s : State) : Answer :=
  let n := k.toNat
  let l := s.link n
  .next (
    if !linkIn s.grade n || !l.enable || !(l.st = 2 || l.st = 4) || (s.island (linkDomain n)).lost then s
    else
      match peer with
      | some p =>
        let nonce := Config.random s.fresh
        let s := s.draw
        let s := s.linkReady n
        (s.modLink n fun l => { l with peer := p, myNonce := some nonce }).sendControl 0xFFF (some k) 1
          (bytesOf nonce.toNat 32)
      | none =>
        if s.passed l.trainSince (10000 * usUnits) then
          (s.modLink n fun l => { l with st := 5, peerOk := false }).drainOut
        else s)

/-! ## Forwarding (R369, R370) -/

/-- The coins that a packet carries: those of the message that its last packet completes, for each member of a multicast
copy, or those that it returns, as a return or with a refusal (R313, R317, R361). -/
def packetCoins (ty : PacketType) (p : Packet) : Nat :=
  if ty = .ret then p.value.toNat
  else if ty = .refuse then p.value.toNat % 2 ^ 24
  else if (ty = .ring || ty = .mcast) && p.last then
    (if p.value.getLsbD 31 then p.value.toNat % 2 ^ 24 else (p.value.toNat + 63) / 64)
  else 0

/-- A packet has been taken from the receiver's buffer of link `k`: its credits return (R359). -/
def State.took (s : State) (k : Nat) (ty : PacketType) (p : Packet) : State :=
  (s.returnCredits k (packetVc ty p) (packetCredits ty p)).pump k 1024

/-- A refusal with the coins that it returns. `which` says what is refused where the packet's CHAN and TID do not: 1 + m for
member m of a multicast copy. The spec gives a REFUSE no field for it; the model takes ADDR (DESIGN CHOICE, log entry 99). -/
def State.refuse (s : State) (dst : BitVec 12) (chan : BitVec 14) (tid : BitVec 32) (which : Nat) (cause : BitVec 8)
    (coins : Nat) : State :=
  s.send .refuse { Packet.blank with dst := dst, chan := chan, tid := tid, till := cause.setWidth 15
                                     addr := BitVec.ofNat 48 which, value := BitVec.ofNat 32 coins }

/-- Bit 47 of ADDR marks the refusal of a packet that begins no transfer of its source, with its TYPE and DST (DESIGN CHOICE, log
entry 99). -/
def answerMark (ty : PacketType) (p : Packet) : Nat := 2 ^ 47 + typeCode ty * 2 ^ 12 + p.dst.toNat

/-- A packet at the hop limit is refused, with its coins: a multicast copy for each of its members (R370). -/
def State.hopLimit (s : State) (ty : PacketType) (p : Packet) : State :=
  if ty = .mcast then
    (maskMembers p.mask).foldl (fun s m => s.refuse p.src p.chan p.tid (m + 1) 4 (packetCoins ty p)) s
  else if ty = .write || ty = .readReq || ty = .ring || ty = .signal then
    s.refuse p.src p.chan p.tid 0 4 (packetCoins ty p)
  else s.refuse p.src p.chan p.tid (answerMark ty p) 4 (packetCoins ty p)

/-- A packet for another device that arrived on link `n` (R369, R370): it holds its place in the receive buffer until
its output link takes it (R359). -/
def State.forward (s : State) (n : Nat) (ty : PacketType) (p : Packet) : State :=
  if p.hops = 15 then (s.took n ty p).hopLimit ty p
  else
    (s.linkTally n 0x74).queueOut { ty := ty, packet := { p with hops := p.hops + 1 }, pinned := none
                                    input := some (BitVec.ofNat 5 n), back := packetCredits ty p } |>.drainOut

/-- PACKET_FORWARD. -/
def execPacketForward (k : BitVec 5) (ty : PacketType) (p : Packet) (s : State) : Answer :=
  let n := k.toNat
  .next (
    if !s.linkHears n || p.dst = s.heath.id || p.dst = 0xFFF || s.coreLost n
        || 128 < s.buffered n (packetVc ty p) + packetCredits ty p then s
    else s.forward n ty p)

/-! ## Heartbeats on a link (R480) -/

/-- HEARTBEAT: the neighbour lives. -/
def execHeartbeat (k : BitVec 5) (p : Packet) (s : State) : Answer :=
  let n := k.toNat
  .next (if s.linkHears n then (s.modLink n fun l => { l with heard := some s.clk.clk }).took n .heartbeat p else s)

/-- HEARTBEAT_SEND: every 10 µs on each link that is up, while the steward's liveness word is fresh. -/
def execHeartbeatSend (k : BitVec 5) (s : State) : Answer :=
  let n := k.toNat
  let l := s.link n
  .next (
    if s.linkUp n && s.passed l.beatAt (10 * usUnits) && s.clk.clk ≤ s.stew.alive + 100 * usUnits then
      (s.modLink n fun l => { l with beatAt := s.clk.clk, beats := l.beats + 1 }).sendPinned n .heartbeat
        { Packet.blank with tid := l.beats, value := s.capState.setWidth 32 + s.stew.feedId.setWidth 32 * 16 }
    else s)

end Sys2Proof.Machine
end

