-- ==== Sys2Proof/Machine/Packets.lean ====
section
/-!
DEFINITION. Packets that arrive at this device (R309, R310, R316–R318, R323, R324, R361, R365, R372, R373) and the grants of
the banks to unscheduled agents (R230, R237).
-/
namespace Sys2Proof.Machine

/-! ## The receiver's records (R310) -/

/-- The key of a receiver's record: the source, its channel, and the member of a multicast (else 0). -/
def recvKey (src : BitVec 12) (chan : BitVec 14) (member : BitVec 7) : Nat :=
  member.toNat * 2 ^ 26 + src.toNat * 16384 + chan.toNat

def State.recv (s : State) (key : Nat) : Receiver := Sparse.get {} s.heath.receivers key
def State.setRecv (s : State) (key : Nat) (x : Receiver) : State :=
  { s with heath := { s.heath with receivers := Sparse.set {} s.heath.receivers key x } }

/-- The transfer has completed at the receiver: an ID before the oldest incomplete one, or a marked one. -/
def Receiver.has (r : Receiver) (tid : BitVec 32) : Bool :=
  (tid - r.oldest).msb || (tid != r.oldest && r.done.getLsbD ((tid - r.oldest).toNat - 1))

/-- The oldest ID moves past those that are complete. -/
def Receiver.advance (r : Receiver) : Nat → Receiver
  | 0 => r
  | fuel + 1 =>
    if r.done.getLsbD 0 then { r with oldest := r.oldest + 1, done := r.done >>> 1 }.advance fuel else r

/-- The record reaches a transfer: where its ID lies more than 4,096 beyond the oldest, those too far behind are none that a sender
still has outstanding, such as messages of a multicast channel whose copy for this member went another way (R310, R322). -/
def Receiver.reach (r : Receiver) (tid : BitVec 32) : Receiver :=
  let d := (tid - r.oldest).toNat
  if 4096 < d && d < 2 ^ 31 then { r with oldest := tid - 4096, done := r.done >>> (d - 4096) } else r

/-- The transfer completes. -/
def Receiver.complete (r : Receiver) (tid : BitVec 32) : Receiver :=
  let r := { r.reach tid with parts := r.parts.filter fun p => p.tid != tid }
  let d := (tid - r.oldest).toNat
  if d = 0 then
    let next : Bool := r.done.getLsbD 0
    let r := { r with oldest := r.oldest + 1, done := r.done >>> 1 }
    if next then r.advance 4096 else r
  else { r with done := r.done ||| ((1 : BitVec 4096) <<< (d - 1)) }

def Receiver.part (r : Receiver) (tid : BitVec 32) : Option Partial := r.parts.find? fun p => p.tid = tid

/-- Where a transfer stands at its receiver: its source, channel and member, and its ID. -/
structure Flow where
  src : BitVec 12
  chan : BitVec 14
  member : BitVec 7
  tid : BitVec 32
  deriving DecidableEq, Repr

def Flow.key (w : Flow) : Nat := recvKey w.src w.chan w.member

def State.partOf (s : State) (w : Flow) : Option Partial := (s.recv w.key).part w.tid

def State.modPart (s : State) (w : Flow) (g : Partial → Partial) : State :=
  let r := s.recv w.key
  s.setRecv w.key { r with parts := r.parts.map fun p => if p.tid = w.tid then g p else p }

/-- The record of the transfer exists from its first packet on. -/
def State.openPart (s : State) (w : Flow) : State :=
  let r := s.recv w.key
  if (r.part w.tid).isSome then s else s.setRecv w.key { r with parts := r.parts ++ [{ tid := w.tid }] }

/-- The transfer is complete; its sender hears so. The ACK of a multicast copy names its member in ADDR as a refusal does (DESIGN
CHOICE, log entry 99). -/
def State.acknowledge (s : State) (w : Flow) : State :=
  (s.setRecv w.key ((s.recv w.key).complete w.tid)).send .ack
    { Packet.blank with dst := w.src, chan := w.chan, tid := w.tid, addr := w.member.setWidth 48 }

/-- The transfer is complete as refused. -/
def State.refuseFlow (s : State) (w : Flow) (cause : BitVec 8) (coins : Nat) : State :=
  let r := (s.recv w.key).complete w.tid
  (s.setRecv w.key { r with refused := r.refused ++ [w.tid] }).refuse w.src w.chan w.tid w.member.toNat cause coins

/-! ## Reads (R361) -/

/-- The replies to a read: its bytes, cut at the 256 B boundaries of their addresses. -/
def State.reply (s : State) (w : Flow) (a : Nat) (bs : List Byte) : State :=
  let s := s.setRecv w.key ((s.recv w.key).complete w.tid)
  let ps := cutPackets (bs.length + 1) a bs
  ps.zipIdx.foldl (fun s p => s.send .readReply
    { Packet.blank with dst := w.src, chan := w.chan, tid := w.tid, addr := BitVec.ofNat 48 p.1.1, data := p.1.2
                        last := p.2 + 1 = ps.length }) s

/-- The read is dropped: its codewords are uncorrectable (R224, R264). -/
def State.dropRead (s : State) (w : Flow) : State :=
  let r := s.recv w.key
  s.setRecv w.key { r with parts := r.parts.filter fun p => p.tid != w.tid }

/-! ## Completion at the receiver (R316, R318, R323) -/

/-- A ring message or marker has landed whole: its coins are lodged, and it waits for its turn in the arrival order. -/
def State.landed (s : State) (x : RingPlace) : State :=
  let d := x.die.toNat
  let i := x.index.toNat
  let r := s.ringEnd d i
  s.setRingEnd d i { r with lodged := r.lodged + x.coins, landed := r.landed ++ [(x.pos, x.coins, x.skip)] }

/-- A part of the ring message or marker was refused: its coins go back, and no later message applies its increment. -/
def State.ringRefused (s : State) (x : RingPlace) : State :=
  let d := x.die.toNat
  let i := x.index.toNat
  let r := s.ringEnd d i
  s.setRingEnd d i { r with err := true, refused := r.refused ++ [x.pos] }

/-- What a transfer does when all its bytes have come and no access of it waits. A signal that it carries is still to
be applied. -/
def State.finishPart (s : State) (w : Flow) : State :=
  match s.partOf w with
  | none => s
  | some p =>
    match p.total with
    | none => s
    | some n =>
      if p.got < n || p.waits != 0 then s
      else
        match p.refused with
        | some c =>
          match p.ring with
          | some x => (s.ringRefused x).refuseFlow w c x.coins.toNat
          | none => s.refuseFlow w c 0
        | none =>
          match p.read with
          | some (a, len) =>
            s.reply w a.toNat (((p.lines.flatMap fun l => bytesOf l.2.toNat 64).drop (a.toNat % 64)).take len.toNat)
          | none =>
            match p.ring with
            | some x => (s.landed x).acknowledge w
            | none => if p.sig.isSome then s else s.acknowledge w

/-- A packet of a transfer has been taken: its address, its bytes, what its writes gave, and what its final packet
says. -/
def State.notePacket (s : State) (w : Flow) (p : Packet) (cause : Option (BitVec 8)) (waits : Nat) (total : Option Nat)
    (ring : Option RingPlace) : State :=
  (s.modPart w fun q => { q with
    seen := p.addr :: q.seen
    got := q.got + p.data.length
    waits := q.waits + waits
    refused := q.refused.or cause
    total := total.or q.total
    sig := if p.last && p.sig then some (p.till, p.value) else q.sig
    ring := ring.or q.ring }).finishPart w

/-- Takes a packet of a transfer unless the transfer is complete, when it is acknowledged and discarded, or this packet
has already come (R310). A transfer that completed as refused has had its refusal, and no ACK takes the place of it (R327; DEDUCED,
log entry 99). -/
def State.once (s : State) (w : Flow) (p : Packet) (f : State → State) : State :=
  if (s.recv w.key).refused.contains w.tid then s
  else if (s.recv w.key).has w.tid then
    s.send .ack { Packet.blank with dst := w.src, chan := w.chan, tid := w.tid, addr := w.member.setWidth 48 }
  else
    let s := s.openPart w
    if (s.partOf w).any fun q => q.seen.contains p.addr then s else f s

def Flow.owner (w : Flow) : UOwner := .remote w.src w.chan w.member w.tid

/-- A transfer of this device's counting house: its ring writes rank as the counting house's (R229, R230). -/
def State.houseFlow (s : State) (w : Flow) : Bool :=
  w.src = s.heath.id && w.member = 0 && s.house.intakes.any fun x => x.2.extractLsb' 0 14 = w.chan

/-- The rank of a flow's ring writes in the order of service, and whom they serve. -/
def State.ringAgent (s : State) (w : Flow) : Nat × UOwner :=
  if s.houseFlow w then (3, .house w.src w.chan w.tid) else (2, w.owner)

/-! ## WRITE and the reduction windows (R361, R373, R381) -/

/-- The device addresses that name a stack-local byte: its own, and its interleaved alias (R31). -/
def aliases (grade : BitVec 2) (b : Nat) : List Nat :=
  let k := b / 0x1000000000
  let d := k / 3
  let ks := dieStacks grade d
  let o := b % 0x1000000000
  match ks.findIdx? fun j => j = k with
  | some i => [b, 0x040000000000 + d * 0x4000000000 + (o / 4096 * ks.length + i) * 4096 + o % 4096]
  | none => [b]

def rwinBase (e : BitVec 256) : Nat := (e.extractLsb' 0 48).toNat
def rwinLines (e : BitVec 256) : Nat := (e.extractLsb' 64 32).toNat
def rwinOn (e : BitVec 256) : Bool := e.getLsbD 96

/-- The enabled window of its die in which stack-local byte `b` lies. -/
def State.windowOf (s : State) (b : Nat) : Option Nat :=
  ((s.die (b / 0x1000000000 / 3)).rwins.find? fun w =>
    rwinOn w.2 && (aliases s.grade b).any fun a => rwinBase w.2 ≤ a && a < rwinBase w.2 + 64 * rwinLines w.2).map Prod.fst

/-- How a WRITE meets the windows: none of its bytes in one, all of them (its stack and address), or a part. -/
inductive WindowHit where
  | out | partly
  | within (stack addr : Nat)
  deriving DecidableEq, Repr

def State.windowHit (s : State) (a n : Nat) : WindowHit :=
  let hits := (List.range n).map fun i =>
    match place s.grade true (a + i) with | .dram _ b => s.windowOf b | _ => none
  if !hits.any Option.isSome then .out
  else if a % 4 = 0 && n % 4 = 0 && hits.all (fun h => h.isSome && h = hits.headD none) then
    match place s.grade true a, place s.grade true (a + n - 1) with
    | .dram k b, .dram k' b' => if k' = k && b' = b + n - 1 then .within k b else .partly
    | _, _ => .partly
  else .partly

/-- The binary32 sums of the elements of two byte strings, under R179 and RND 0. -/
def addElems (old new : List Byte) : List Byte :=
  (List.range (new.length / 4)).flatMap fun i =>
    bytesOf (binary32.add 0 (natOf ((old.drop (4 * i)).take 4)) (natOf ((new.drop (4 * i)).take 4))).1 4

/-- A WRITE packet. A WRITE of a hedge link wholly inside a window adds its elements; the reader of an uncorrectable
codeword there halts as a fetch does (R264). -/
def State.takeWrite (s : State) (hedge : Bool) (p : Packet) : State :=
  let w : Flow := { src := p.src, chan := p.chan, member := 0, tid := p.tid }
  s.once w p fun s =>
    let total := if p.last then some ((match s.partOf w with | some q => q.got | none => 0) + p.data.length) else none
    let n := p.data.length
    match (if hedge then s.windowHit p.addr.toNat n else WindowHit.out) with
    | .partly => s.notePacket w p (some 1) 0 total none
    | .within k b =>
      match s.dramRead k b n with
      | (s, some old) => (s.dramWrite k b (addElems old p.data)).notePacket w p none 0 total none
      | (s, none) => (s.dramHalt k p.addr.toNat).dropRead w
    | .out =>
      let (s, cause, waits) := s.asyncWrite p.addr.toNat p.data 2 p.gen false w.owner
      s.notePacket w p cause waits total none

/-! ## READ_REQ and READ_REPLY -/

/-- The length that a READ_REQ asks for. -/
def readLen (p : Packet) : Nat := p.value.toNat

/-- A READ_REQ packet: DRAM answers at once, the lines of a slice wait for their banks. -/
def State.takeReadReq (s : State) (p : Packet) : State :=
  let w : Flow := { src := p.src, chan := p.chan, member := 0, tid := p.tid }
  let a := p.addr.toNat
  let n := readLen p
  s.once w p fun s =>
    match place s.grade true a, place s.grade true (a + n - 1) with
    | .dram k b, .dram k' b' =>
      if !(k' = k && b' = b + n - 1) then s.refuseFlow w 1 0
      else
        match s.dramRead k b n with
        | (s, some bs) => s.reply w a bs
        | (s, none) => (s.dramHalt k a).dropRead w
    | .pad t o, .pad t' o' =>
      let ls := linesAt o n
      if !(t' = t && o' = o + n - 1) || ((s.issueEnv t).escrow && escrowBase < o + n) then s.refuseFlow w 1 0
      else if ls.any (s.lineRefused t) then s.refuseFlow w 2 0
      else
        let s := ls.foldl (fun s l => s.enqueueAccess t 2 l none none false w.owner) s
        s.modPart w fun q => { q with
          seen := p.addr :: q.seen, total := some 0, waits := ls.length, read := some (p.addr, BitVec.ofNat 13 n) }
    | _, _ => s.refuseFlow w 1 0

/-- The data of this reply have come before, so it is discarded (R310). -/
def State.replied (s : State) (tr : Transfer) (p : Packet) : Bool :=
  match (if tr.burn then none else tr.block) with
  | some (f, d, i) => (s.desc f.toNat d.toNat).out.any fun b =>
      b.index = i && !b.done && b.words.any fun w => w.1 = (p.addr - tr.addr).toNat / 64
  | none => false

/-- A READ_REPLY packet: its bytes join the petty transfer or the fetch block that asked for them. -/
def State.takeReadReply (s : State) (p : Packet) : State :=
  let c := p.chan.toNat
  match s.transferOf c p.tid with
  | none => s
  | some tr =>
    if s.replied tr p then s else
    let left := tr.left - p.data.length
    let s := s.modChan c fun ch => { ch with
      transfers := ch.transfers.map fun t => if t.tid = p.tid then { t with left := left } else t }
    if tr.burn then (if left = 0 then s.endTransfer c p.tid else s) else
    match tr.tile, tr.block with
    | some (t, n), _ =>
      let zeros : List Byte := List.replicate (p.addr.toNat % 64) 0
      let ls : SMap Line := (linesOf (zeros ++ p.data)).zipIdx.map fun x => (x.2, x.1)
      (s.modPetty t.toNat n fun q => { q with lines := ls, left := 0 }).endTransfer c p.tid
    | none, some (f, d, i) =>
      let k := (p.addr - tr.addr).toNat / 64
      let s := s.modBlock f.toNat d.toNat i fun b =>
        (linesOf p.data).zipIdx.foldl (fun b x =>
          { b with words := Sparse.put (k + x.2) x.1 b.words, left := b.left - 1 }) b
      if left != 0 then s
      else
        let s := s.endTransfer c p.tid
        match (s.desc f.toNat d.toNat).out.find? fun b => b.index = i && !b.done with
        | some b => s.blockData f.toNat d.toNat i (b.words.map Prod.snd)
        | none => s
    | none, none => s

/-! ## RING and MCAST (R312–R318, R361, R372) -/

/-- The length of the message and whether it is a skip marker, from the frame word of its last packet (R313). -/
def frameLen (p : Packet) : Nat := if p.value.getLsbD 31 then 0 else p.value.toNat

/-- A packet of a ring message lands at ring end `(d, i)`: `off` is the byte offset in the ring of its data, `pos` the
first position of its message if it is the final one. -/
def State.landRing (s : State) (w : Flow) (d i : Nat) (off : Nat) (pos : Option Nat) (p : Packet) : State :=
  let e := (s.ringEnd d i).entry
  let (agent, owner) := s.ringAgent w
  let (s, c1, n1) := s.asyncWrite (rendBase e + off) p.data agent p.gen false owner
  match pos with
  | none => s.notePacket w p c1 n1 none none
  | some x =>
    let (s, c2, n2) := s.asyncWrite (rendFbase e + 4 * x) (bytesOf p.value.toNat 4) agent p.gen false owner
    s.notePacket w p (c1.or c2) (n1 + n2) (some (frameLen p)) (some
      { die := BitVec.ofNat 2 d, index := BitVec.ofNat 10 i, pos := BitVec.ofNat 24 x
        coins := BitVec.ofNat 24 (packetCoins .ring p), skip := p.value.getLsbD 31 })

/-- The unit that detects a coin fault on arrival: the hedge link, or the memory port (R94, R318). -/
def portOf (link : Option Nat) : Nat × Nat := match link with | some k => (6, k) | none => (5, 0)

/-- A RING packet. -/
def State.takeRing (s : State) (link : Option Nat) (p : Packet) : State :=
  let w : Flow := { src := p.src, chan := p.chan, member := 0, tid := p.tid }
  match (s.logicalOf p.src).bind fun l => s.ringOf l p.chan with
  | none =>
    let s := s.coinFault (portOf link).1 (portOf link).2 p.chan
    if p.last then s.refuse p.src p.chan p.tid 0 5 (packetCoins .ring p) else s
  | some (d, i, _) =>
    s.once w p fun s =>
      let pos := if p.last then some ((p.addr.toNat + p.data.length - frameLen p) / 64) else none
      s.landRing w d i p.addr.toNat pos p

/-- One member's copy of a MCAST packet at its ring end. -/
def State.takeMember (s : State) (link : Option Nat) (p : Packet) (m : Nat) (pos : BitVec 32) : State :=
  let w : Flow := { src := p.src, chan := p.chan, member := BitVec.ofNat 7 (m + 1), tid := p.tid }
  let mc : BitVec 14 := BitVec.ofNat 14 ((s.members (s.chan p.chan.toNat).entry).getD m 0x3FFF)
  match (s.logicalOf p.src).bind fun l => s.ringOf l mc with
  | none =>
    let s := s.coinFault (portOf link).1 (portOf link).2 p.chan
    if p.last then s.refuse p.src p.chan p.tid (m + 1) 5 (packetCoins .mcast p) else s
  | some (d, i, _) =>
    s.once w p fun s =>
      s.landRing w d i (64 * pos.toNat + p.addr.toNat) (if p.last then some pos.toNat else none) p

/-- The copies of a MCAST packet from link `k` that go on along the tree, cut to the members `p` of the packet that arrived as
`whole`, or the refusals of those at the hop limit (R370, R372). -/
def State.passMcast (s : State) (k : Nat) (tree : Nat) (whole p : Packet) : State :=
  if p.mask = 0 then s.took k .mcast whole
  else if p.hops = 15 then (s.took k .mcast whole).hopLimit .mcast p
  else (s.linkTally k 0x74).splitMcast tree (some (BitVec.ofNat 5 k)) (packetCredits .mcast whole)
    { p with hops := p.hops + 1 }

/-- A MCAST packet (R372): its local members take their copies, and the others go on along the tree. A marked member
that is not on this branch is a coin fault. -/
def State.takeMcast (s : State) (link : Option Nat) (p : Packet) : State :=
  let tree := chanTree (s.chan p.chan.toNat).entry
  let s := match s.treeMembers tree p.mask 0x1F with
    | [] => s
    | _ => s.coinFault (portOf link).1 (portOf link).2 p.chan
  let here := mcastFor p (s.treeMembers tree p.mask 0x1E)
  let on := mcastFor p ((maskMembers p.mask).filter fun m =>
    ((List.range 20).any fun k => (s.treeMembers tree p.mask k).contains m))
  let s := match link with
    | some k => s.passMcast k tree p on
    | none => s
  ((maskMembers here.mask).zip here.coins).foldl (fun s x => s.takeMember link p x.1 x.2) s

/-! ## SIGNAL (R324) -/

/-- The signal of a transfer is applied when every byte of the transfer is written (R323) and every earlier transfer of its channel
is complete: a channel of another device is one source of till operations, whose order is that of its IDs (R298; DEDUCED, log
entry 130). -/
def State.applySignal (s : State) (w : Flow) : State :=
  match s.partOf w with
  | some p =>
    match p.sig, p.total with
    | some (till, v), some n =>
      if n ≤ p.got && p.waits = 0 && p.refused.isNone && w.tid = (s.recv w.key).oldest then
        let (s, ovf) := s.applyTill till v false
        if ovf then s.refuseFlow w 3 0 else s.acknowledge w
      else s
    | _, _ => s
  | none => s

/-- A SIGNAL packet: its signal is applied at once where it is next in order, and otherwise waits for SIGNAL_APPLY. -/
def State.takeSignal (s : State) (p : Packet) : State :=
  let w : Flow := { src := p.src, chan := p.chan, member := 0, tid := p.tid }
  s.once w p fun s =>
    (s.modPart w fun q => { q with seen := [p.addr], total := some 0, sig := some (p.till, p.value) }).applySignal w

/-! ## ACK, REFUSE and RETURN -/

/-- A copy of a petty ring or multicast transfer has been acknowledged or refused. -/
def State.copyDone (s : State) (t : Nat) (n : BitVec 32) : State :=
  match s.pettyOf t n with
  | none => s
  | some p => if p.left ≤ 1 then s.pettyDone t n false else s.modPetty t n fun q => { q with left := q.left - 1 }

/-- One copy of transfer `tr` of channel `c` is complete at its sender. -/
def State.transferDone (s : State) (c : Nat) (tr : Transfer) : State :=
  let s := match tr.tile with
    | some (t, n) => s.copyDone t.toNat n
    | none => s
  if tr.left ≤ 1 then s.endTransfer c tr.tid
  else s.modChan c fun ch => { ch with
    transfers := ch.transfers.map fun t => if t.tid = tr.tid then { t with left := t.left - 1 } else t }

/-- The transfer is a read whose replies have not come. -/
def State.isRead (s : State) (tr : Transfer) : Bool :=
  tr.block.isSome || (match tr.tile with
    | some (t, n) => (s.pettyOf t.toNat n).any (fun p => !p.put)
    | none => false)

/-- The copy of a multicast transfer that an answer names in ADDR is outstanding: the transfer without it; none where it is complete
already. A transfer of any other kind has no members. -/
def State.copyOf (s : State) (c : Nat) (tr : Transfer) (p : Packet) : Option State :=
  if chanKind (s.chan c).entry != 4 then some s
  else
    let m := p.addr.toNat - 1
    if p.addr = 0 || !tr.owed.getLsbD m then none
    else some (s.modChan c fun ch => { ch with transfers := ch.transfers.map fun t =>
      if t.tid = tr.tid then { t with owed := t.owed &&& ~~~((1 : BitVec 64) <<< m) } else t })

/-- A window PPUT counts as one copy whatever its length. -/
def Transfer.whole (ring : Bool) (tr : Transfer) : Transfer := if ring then tr else { tr with left := 1 }

/-- An ACK packet. -/
def State.takeAck (s : State) (p : Packet) : State :=
  let c := p.chan.toNat
  let ring : Bool := chanKind (s.chan c).entry = 3 || chanKind (s.chan c).entry = 4
  match s.transferOf c p.tid with
  | none => s
  | some tr =>
    if s.isRead tr then s
    else
      match ring, tr.tile with
      | false, some (t, n) => (s.pettyDone t.toNat n false).endTransfer c p.tid
      | _, _ =>
        match s.copyOf c tr p with
        | some s => s.transferDone c (tr.whole ring)
        | none => s

/-- Coins come back to HELD of channel `c`. -/
def State.giveCoins (s : State) (c n : Nat) : State :=
  s.modChan c fun ch => { ch with held := ch.held + BitVec.ofNat 24 n }

/-- The channel whose coins a refusal carries: on a multicast channel, that of the member that it names, or of a member
on the device that it comes from. -/
def State.coinChannel (s : State) (c : Nat) (p : Packet) : Nat :=
  let ms := s.members (s.chan c).entry
  if chanKind (s.chan c).entry != 4 then c
  else if p.addr != 0 then ms.getD (p.addr.toNat - 1) c
  else (ms.find? fun m => s.physOf (chanDev (s.chan m).entry) = some p.src).getD c

/-- A hop-limit refusal names the route fault for the steward's abort (R370). -/
def State.routeFails (s : State) (c : Nat) : State :=
  { s with heath := { s.heath with routeFault := s.physOf (chanDev (s.chan c).entry) } }

/-- A return to device `dst` that the hop limit refused: its coins are lodged again at the ring end that returned them (R311,
R370). -/
def State.returnRefused (s : State) (dst : BitVec 12) (p : Packet) : State :=
  let n := p.value.toNat % 2 ^ 24
  match s.openRings.find? fun r => rendChan r.2.2.entry = p.chan && s.physOf (rendDev r.2.2.entry) = some dst with
  | some (d, i, r) =>
    if n = 0 then s
    else s.setRingEnd d i { r with
      lodged := r.lodged + BitVec.ofNat 24 n, retout := r.retout - BitVec.ofNat 32 n
      retpos := BitVec.ofNat 24 ((r.retpos.toNat + rendCoins r.entry - n) % rendCoins r.entry) }
  | none => s

/-- A refusal completes a transfer at its sender. A refusal names no bank: that of a read at a fallow bank names the bank of the
transfer's first line (R237; DESIGN CHOICE, log entry 122). -/
def State.refused (s : State) (c : Nat) (tr : Transfer) (cause : Nat) (ring : Bool) : State :=
  if tr.burn then s.endTransfer c tr.tid else
  match tr.block, tr.tile with
  | some (f, d, i), _ =>
    (if cause = 1 || cause = 2 then s.descError f.toNat d.toNat (some i) tr.addr.toNat cause else s).endTransfer c tr.tid
  | none, some (t, n) =>
    if ring then s.transferDone c tr
    else
      match s.pettyOf t.toNat n with
      | some q =>
        if cause = 1 || (cause = 2 && !q.put) then
          let place := if cause = 2 then q.addr.toNat / 64 else q.addr.toNat
          (s.modPetty t.toNat n fun q => { q with err := some (cause, place) }).endTransfer c tr.tid
        else (s.pettyDone t.toNat n false).endTransfer c tr.tid
      | none => s.endTransfer c tr.tid
  | none, none => s.transferDone c (tr.whole ring)

/-- A packet of this device that begins no transfer met the hop limit (R370): the coins of a return are lodged again; those of a
refusal could not reach their sender, and the device holds them as in flight (DEDUCED, log entry 99). -/
def State.answerRefused (s : State) (p : Packet) : State :=
  let dst : BitVec 12 := p.addr.setWidth 12
  let s := { s with heath := { s.heath with routeFault := some dst } }
  let ty := p.addr.toNat / 2 ^ 12 % 16
  if ty = typeCode .ret then s.returnRefused dst p
  else if ty = typeCode .refuse && p.value.toNat % 2 ^ 24 != 0 then
    { s with heath := { s.heath with stranded := s.heath.stranded ++ [(dst, p.chan, p.value.setWidth 24)] } }
  else s

/-- A REFUSE packet (R237, R248, R299, R309, R318, R361, R370). A ring message refused at the hop limit keeps its transfer
until the refusal of its last packet brings its coins. The steward records the refusal of an overflow. -/
def State.takeRefuse (s : State) (p : Packet) : State :=
  let c := p.chan.toNat
  let cause := p.till.toNat % 256
  let e := (s.chan c).entry
  let ring : Bool := chanKind e = 3 || chanKind e = 4
  let coins := p.value.toNat % 2 ^ 24
  if p.addr.getLsbD 47 then s.answerRefused p else
  match s.transferOf c p.tid with
  | none => if cause = 4 then s.routeFails c else s
  | some tr =>
    let s := if cause = 4 then s.routeFails c else s
    let s := if cause = 3 then { s with heath := { s.heath with
        refusals := s.heath.refusals ++ [(p.chan, p.tid, BitVec.ofNat 8 cause)] } } else s
    if ring && cause = 4 && coins = 0 then s
    else
      match s.copyOf c tr p with
      | none => s
      | some s =>
      let cc := s.coinChannel c p
      let s := if ring then s.giveCoins cc coins else s
      let s := if ring && (cause = 2 || cause = 5) then s.modChan cc fun ch => { ch with err := true } else s
      s.refused c tr cause ring

/-- The returns of channel `c` whose numbers are next reach HELD (R317, R318). -/
def State.applyReturns (s : State) (link : Option Nat) (c : Nat) : Nat → State
  | 0 => s
  | fuel + 1 =>
    let ch := s.chan c
    match ch.retWait.find? fun r => r.1 = ch.retNext with
    | none => s
    | some r =>
      let ch' := { ch with retNext := ch.retNext + 1, retWait := ch.retWait.erase r }
      let n := r.2.toNat
      if chanRcoins ch.entry < ch.held.toNat + n then
        (s.setChan c ch').coinFault (portOf link).1 (portOf link).2 (BitVec.ofNat 14 c)
      else
        (s.setChan c { ch' with held := ch.held + BitVec.ofNat 24 n, retin := ch.retin + r.2 }).applyReturns link c fuel

/-- A RETURN packet (R317, R318): the returns of a ring reach HELD once and in the order of their numbers. -/
def State.takeReturn (s : State) (link : Option Nat) (p : Packet) : State :=
  let c := p.chan.toNat
  let ch := s.chan c
  if chanKind ch.entry != 3 then s.coinFault (portOf link).1 (portOf link).2 p.chan
  else if (p.tid - ch.retNext).msb || ch.retWait.any (fun r => r.1 = p.tid) then s
  else (s.setChan c { ch with retWait := ch.retWait ++ [(p.tid, p.value)] }).applyReturns link c (ch.retWait.length + 1)

/-! ## CONTROL (R363) -/

/-- The bytes of a message whose parts have all come. -/
def Joining.data (x : Joining) : List Byte := x.parts.flatMap Prod.snd

/-- A CONTROL packet joins the parts of its message; a whole message goes to the steward, one of a reserved kind is dropped
and counted. -/
def State.joinControl (s : State) (link : Option Nat) (p : Packet) : State :=
  let mine (x : Joining) : Bool := x.src = p.src && x.tid = p.tid
  let x : Joining := (s.heath.joining.find? mine).getD
    { link := 0, src := p.src, tid := p.tid, ckind := 0, len := 0, parts := [] }
  let x := { x with
    link := BitVec.ofNat 5 (link.getD 0x1F), ckind := p.till.setWidth 8, len := p.value.toNat
    parts := Sparse.put p.addr.toNat p.data x.parts }
  let rest := s.heath.joining.filter fun y => !mine y
  if x.data.length < x.len || !x.parts.any (fun q => q.1 + q.2.length = x.len) then
    { s with heath := { s.heath with joining := rest ++ [x] } }
  else
    let s := { s with heath := { s.heath with joining := rest } }
    if 1 ≤ x.ckind.toNat && x.ckind.toNat ≤ 16 then
      { s with heath := { s.heath with inbox := s.heath.inbox ++ [x] } }
    else match link with
      | some k => s.linkTally k 0x73
      | none => s

/-! ## Arrival (R365) -/

/-- A packet for this device, from a link or from itself. -/
def State.deliver (s : State) (link : Option Nat) (ty : PacketType) (p : Packet) : State :=
  match ty with
  | .write => s.takeWrite link.isSome p
  | .readReq => s.takeReadReq p
  | .readReply => s.takeReadReply p
  | .ring => s.takeRing link p
  | .signal => s.takeSignal p
  | .ack => s.takeAck p
  | .ret => s.takeReturn link p
  | .refuse => s.takeRefuse p
  | .mcast => s.takeMcast link p
  | .heartbeat => s
  | .control => s.joinControl link p

/-- A packet arrives on link `k`: one for this device whose source has a logical number is delivered; without one it
is dropped. -/
def State.receive (s : State) (k : BitVec 5) (ty : PacketType) (p : Packet) : State :=
  let n := k.toNat
  if !s.linkHears n || (ty != .mcast && p.dst != s.heath.id) then s
  else if (s.logicalOf p.src).isNone then (s.took n ty p).linkTally n 0x73
  else if ty = .mcast then s.deliver (some n) ty p
  else (s.took n ty p).deliver (some n) ty p

/-- R361, R373. -/
def execWrite (k : BitVec 5) (p : Packet) (s : State) : Answer := .next (s.receive k .write p)
/-- R361. -/
def execReadReq (k : BitVec 5) (p : Packet) (s : State) : Answer := .next (s.receive k .readReq p)
/-- R361. -/
def execReadReply (k : BitVec 5) (p : Packet) (s : State) : Answer := .next (s.receive k .readReply p)
/-- R312, R316, R361. -/
def execRing (k : BitVec 5) (p : Packet) (s : State) : Answer := .next (s.receive k .ring p)
/-- R324. -/
def execSignal (k : BitVec 5) (p : Packet) (s : State) : Answer := .next (s.receive k .signal p)
/-- R361. -/
def execAck (k : BitVec 5) (p : Packet) (s : State) : Answer := .next (s.receive k .ack p)
/-- R317. -/
def execRet (k : BitVec 5) (p : Packet) (s : State) : Answer := .next (s.receive k .ret p)
/-- R361. -/
def execRefuse (k : BitVec 5) (p : Packet) (s : State) : Answer := .next (s.receive k .refuse p)
/-- R372. -/
def execMcast (k : BitVec 5) (p : Packet) (s : State) : Answer := .next (s.receive k .mcast p)

/-- SIGNAL_APPLY (R298, R323): every byte of the transfer is written, and the signal is next in order. -/
def execSignalApply (x : SignalOf) (s : State) : Answer :=
  .next (match x with
    | .petty t n =>
      match s.pettyOf t.toNat n with
      | some p =>
        match p.sig with
        | some (till, v) =>
          if p.put && p.phase = 1 && p.chan.toNat = localChan && p.left = 0 && p.err.isNone then
            ((s.modPetty t.toNat n fun q => { q with sig := none }).applyTill till v false).1
          else s
        | none => s
      | none => s
    | .received src chan tid =>
      let w : Flow := { src := src, chan := chan, member := 0, tid := tid }
      s.applySignal w)

/-! ## Grants to unscheduled agents (R229, R230, R237, R248) -/

/-- Line accesses of a transfer from a device, which it waits for. -/
def UOwner.flow : UOwner → Option Flow
  | .remote src chan member tid => some { src := src, chan := chan, member := member, tid := tid }
  | .house src chan tid => some { src := src, chan := chan, member := 0, tid := tid }
  | _ => none

/-- The outbox message that starts at a position of a ring end changes. -/
def State.modArrival (s : State) (die : BitVec 2) (index : BitVec 10) (pos : BitVec 24) (g : Arrived → Arrived) : State :=
  { s with house := { s.house with arrivals := s.house.arrivals.map fun a =>
      if a.die = die && a.index = index && a.pos = pos then g a else a } }

/-- The agent hears that its access was refused at a fallow bank. -/
def State.accessRefused (s : State) (t : Nat) (r : URequest) : State :=
  match r.owner, r.owner.flow with
  | .petty u n, _ => s.modPetty u.toNat n fun q => { q with err := some (2, r.line.toNat) }
  | .fetch f d i, _ => s.blockRefused t f.toNat d.toNat i 2
  | .steward, _ => { s with surv := { s.surv with lossAsked := s.surv.lossAsked && r.data.isSome } }
  | .outbox d i p, _ => s.modArrival d i p fun q => { q with waits := q.waits - 1, bad := true }
  | _, some w => (s.modPart w fun q => { q with waits := q.waits - 1, refused := some (q.refused.getD 2) }).finishPart w
  | _, none => s

/-- The agent hears that its write has landed. -/
def State.accessWritten (s : State) (r : URequest) : State :=
  match r.owner, r.owner.flow with
  | .petty u k, _ => s.modPetty u.toNat k fun q => { q with left := q.left - 1 }
  | .fetch f d i, _ => s.fetchGranted f.toNat d.toNat i r.line.toNat none
  | _, some w => (s.modPart w fun q => { q with waits := q.waits - 1 }).finishPart w
  | _, none => s

/-- The agent has its line. -/
def State.lineRead (s : State) (t : Nat) (r : URequest) (v : Line) : State :=
  let n := r.line.toNat
  match r.owner, r.owner.flow with
  | .petty u k, _ => s.modPetty u.toNat k fun q => { q with left := q.left - 1, lines := Sparse.put n v q.lines }
  | .fetch f e i, _ => s.fetchGranted f.toNat e.toNat i n (some v)
  | .scrub, _ => s.scrubbed t n
  | .steward, _ => { s with surv := { s.surv with lossLine := some v } }
  | .outbox d i p, _ => s.modArrival d i p fun q => { q with waits := q.waits - 1, lines := Sparse.put n v q.lines }
  | _, some w => (s.modPart w fun q => { q with waits := q.waits - 1, lines := Sparse.put n v q.lines }).finishPart w
  | _, none => s

/-- The agent meets an uncorrectable codeword in its line (R224, R248). -/
def State.lineBad (s : State) (t : Nat) (r : URequest) : State :=
  let a := padAddr t (64 * r.line.toNat)
  match r.owner, r.owner.flow with
  | .petty u k, _ => s.modPetty u.toNat k fun q => { q with left := q.left - 1, err := some (3, a) }
  | .fetch f d i, _ => s.blockRefused t f.toNat d.toNat i 5
  | .scrub, _ => s.scrubbed t r.line.toNat
  | .steward, _ => { s with surv := { s.surv with lossAsked := false } }
  | .outbox d i p, _ => s.modArrival d i p fun q => { q with waits := q.waits - 1, bad := true }
  | _, some w => (s.unitHalt 5 0 0x0E 0 (BitVec.ofNat 32 a)).dropRead w
  | _, none => s

/-- A granted read of a line: what it corrects is counted, and the agent has its line or meets an uncorrectable
codeword. -/
def State.grantedRead (s : State) (t : Nat) (r : URequest) : State :=
  let n := r.line.toNat
  let a := padAddr t (64 * n)
  let c := s.eccCorrectable a 64
  let s := if r.owner = .scrub then s else s.tileEvent t 0x08 c
  if s.eccOf a 64 = 2 then s.lineBad t r else s.lineRead t r (s.padLine t n)

/-- A write takes effect in its line, and its agent hears so. -/
def State.landAccess (s : State) (t : Nat) (r : URequest) : State := (s.landUnscheduled t r).accessWritten r

/-- The tile without request `r`. -/
def Tile.dropReq (x : Tile) (r : URequest) : Tile :=
  { x with pad := { x.pad with ureqs := x.pad.ureqs.filter fun q => q != r } }

/-- A bank grants request `r`: its port cycles are claimed, a read or a full-line write takes effect, and a partial write
lands at the end of the next cycle (R230). -/
def State.grantAccess (s : State) (t : Nat) (bank : BitVec 4) (r : URequest) : State :=
  let beat := s.fab.beat
  let write := r.data.isSome
  let cs := (claimsOf write r.part).map fun c => (beat + c.1, bank, c.2)
  let s := s.modTile t fun y =>
    let y := y.dropReq r
    { y with pad := { y.pad with
      claims := (y.pad.claims.filter fun c => beat ≤ c.1) ++ cs
      landing := if r.part then y.pad.landing ++ [(beat + 1, r)] else y.pad.landing } }
  let s := s.count (.field (BitVec.ofNat 4 (tileField t))) 0x21 0 1
  if r.part then s else if write then s.landAccess t r else s.grantedRead t r

/-- UNSCHEDULED_ACCESS_GRANT: the oldest request that waits for the port of the bank. -/
def execUnscheduledAccessGrant (t : TileNo) (bank : BitVec 4) (write : Bool) (s : State) : Answer :=
  let n := t.toNat
  let b := bank.toNat
  let x := s.tile n
  .next (match oldest b write x.pad.ureqs with
    | none => s
    | some r =>
      if x.bankRefuses (s.masksOf n) s.fab.scc b then
        let late := r.data.isSome
        (s.modTile n fun y => let y := y.dropReq r
                              { y with pad := { y.pad with late := y.pad.late || late } }).accessRefused n r
      else if x.grants s.running s.fab.scc s.fab.beat b r then s.grantAccess n bank r
      else s)

/-- The partial writes whose second cycle ends with the current one take effect (R230). -/
def State.landPartials (s : State) : State :=
  s.fab.tiles.foldl (fun s x =>
    x.2.pad.landing.foldl (fun s l =>
      if s.fab.beat < l.1 then s
      else (s.modTile x.1 fun y => { y with pad := { y.pad with landing := y.pad.landing.erase l } }).landAccess x.1 l.2) s) s

/-! ## The steward's own writes of a slice (R229) -/

/-- The steward writes bytes of a slice from address `a` on, through the ports of the banks as every unscheduled agent does
(R229, R230). -/
def State.stewardBytes (s : State) (t a : Nat) (bs : List Byte) : State :=
  (linesAt a bs.length).foldl (fun s l => s.enqueueAccess t 0 l (some (linePart a bs l)) none false .steward) s

/-- Writes of the steward still wait for their banks. -/
def State.stewardWaits (s : State) : Bool :=
  s.fab.tiles.any fun x => (x.2.pad.ureqs.any fun r => r.owner = .steward)
    || x.2.pad.landing.any fun l => l.2.owner = .steward

end Sys2Proof.Machine
end

