-- ==== Sys2Proof/Machine/Ledger.lean ====
section
/-!
DEFINITION. What the steward reports (R92–R95, R443), measurements (R459), the ledger with its records, seals and export
(R465–R472), and messages on Lolith Wire sessions (R399, R402, R409).
-/
namespace Sys2Proof.Machine

/-! ## Words that the steward reports -/

/-- The bits of a list of conditions, bit 0 first. -/
def bitsOf (n : Nat) (f : Nat → Bool) : Nat := ((List.range n).map fun i => if f i then 2 ^ i else 0).sum

/-- UNITS of the device, as R165 numbers them. -/
def gradeUnits (grade : BitVec 2) : Nat := if grade = 0 then 0x1F else if grade = 1 then 0x1E else 0x18

def State.cap0 (s : State) : BitVec 64 :=
  let g := s.grade
  BitVec.ofNat 64 (g.toNat + fieldsOf g * 4 + bitsOf 12 (stackIn g) * 2 ^ 8 + bitsOf 20 (linkIn g) * 2 ^ 24
    + gradeUnits g * 2 ^ 48)
def State.cap1 (s : State) : BitVec 64 :=
  BitVec.ofNat 64 (s.clk.step.toNat + s.clk.safeStep.toNat * 8 + s.capState.toNat * 2 ^ 8 + s.heath.id.toNat * 2 ^ 16
    + s.stew.feedId.toNat * 2 ^ 28 + s.stew.boardId.toNat * 2 ^ 32 + s.stew.pos.toNat * 2 ^ 40)
def State.owned (s : State) : Bool := s.vault.gen.getLsbD 0
def State.cap2 (s : State) : BitVec 64 :=
  BitVec.ofNat 64 (s.stew.fwVersion.toNat + s.vault.rollback.toNat * 2 ^ 32 + s.owned.toNat * 2 ^ 39
    + s.stew.failDomain.toNat * 2 ^ 40)
def State.cap3 (s : State) : BitVec 64 :=
  let img := match s.stew.program.digest with | some d => d.toNat % 2 ^ 32 | none => 0
  BitVec.ofNat 64 (img + s.stew.program.logical.toNat * 2 ^ 32)
def State.caps (s : State) : List Byte :=
  [s.cap0, s.cap1, s.cap2, s.cap3].flatMap fun w => bytesOf w.toNat 8

/-- HALT_STATUS (R93). -/
def HaltRecord.status (h : HaltRecord) : BitVec 64 :=
  BitVec.ofNat 64 (h.valid.toNat + h.more.toNat * 2 + h.reason.toNat * 2 ^ 8 + h.subcode.toNat * 2 ^ 16
    + h.count.toNat * 2 ^ 24)

/-- The halt record as READ_HALT and the SMBus return it (R92, R431, R447). -/
def State.haltBytes (s : State) : List Byte :=
  let h := s.fab.haltRec
  bytesOf h.status.toNat 8 ++ bytesOf h.source.toNat 8 ++ bytesOf h.scc.toNat 8 ++ bytesOf h.detail.toNat 8

/-- HOLD_STATUS (R95). -/
def State.holdStatus (s : State) : BitVec 32 :=
  let h := s.fab.hold
  BitVec.ofNat 32 (bitsOf 9 fun i =>
    if i = 0 then h.stopAt.isSome && !h.held
    else if i = 1 then h.held
    else if i = 2 then h.waits.any fun w => w.metAt.isNone
    else if i = 3 then h.drain && h.drainMet.isNone
    else if i = 4 then h.halt else if i = 5 then h.step else if i = 6 then h.thermal else if i = 7 then h.slip
    else h.steward)

/-! ## Digests (R448) -/

def digestBytes (bs : List Byte) : List Byte := bytesOf (Config.digest bs).toNat 32
/-- D24. -/
def digest24 (bs : List Byte) : BitVec 192 := (Config.digest bs).setWidth 192

/-! ## The keys of the vault (R450) and the verification of signatures (R448) -/

def Vault.identitySeed (v : Vault) : BitVec 256 := Config.kmac v.kpuf (ascii "SG4-ID")
def Vault.identityKey (v : Vault) : BitVec 15616 := Config.signKey v.identitySeed
def Vault.identityDigest (v : Vault) : BitVec 256 := Config.digest (bytesOf v.identityKey.toNat 1952)
/-- GEN as one byte. -/
def Vault.genByte (v : Vault) : Byte := v.gen.setWidth 8
def Vault.transportSeed (v : Vault) : BitVec 512 := Config.kmac512 v.kpuf (ascii "SG4-KEM" ++ [v.genByte])
def Vault.transportKey (v : Vault) : BitVec 9472 := Config.kemKey v.transportSeed
def Vault.granaryKey (v : Vault) : BitVec 256 := Config.kmac v.kpuf (ascii "SG4-GRAN" ++ [v.genByte])
def Vault.recordKey (v : Vault) : BitVec 256 := Config.kmac v.kpuf (ascii "SG4-REC")

/-- The identity signature with a context over bytes, 3,309 B. -/
def Vault.sign (v : Vault) (context : String) (bs : List Byte) : List Byte :=
  bytesOf (Config.sign v.identitySeed (ascii context) bs).toNat 3309

/-- The signature verifies under a key, with a context, over bytes; one made for another purpose never does (R448). -/
def verifies (g : Signature) (key : BitVec 15616) (context : String) (bs : List Byte) : Bool :=
  g.key = key && g.context = ascii context && g.bytes = bs

/-- D of Enfizal's root public key, which the ROOT fuses hold (R449). -/
def rootDigest : BitVec 256 := Config.digest (bytesOf Config.rootKey.toNat 1952)

/-- D of a public key (R456). -/
def keyDigest (k : BitVec 15616) : BitVec 256 := Config.digest (bytesOf k.toNat 1952)

/-- Bytes [395723:0] of the enrolment record (R455). -/
def Enrolment.body (e : Enrolment) : List Byte :=
  bytesOf 0x4E455A45 4 ++ [e.gen, 0, 0, 0] ++ bytesOf e.version.toNat 8 ++ bytesOf e.owner.toNat 1952
    ++ ((List.range 15).flatMap fun i =>
      let b := Sparse.get (0, 0) e.bindings (i + 1)
      bytesOf b.1.toNat 32 ++ [b.2, 0, 0, 0])
    ++ ((List.range 8192).flatMap fun i =>
      let c := Sparse.get ({} : Client) e.clients i
      bytesOf c.key.toNat 32 ++ [c.rights] ++ bytesOf 0 7 ++ bytesOf c.mask.toNat 8)

/-- The enrolment record, with its MAC under the record key. -/
def Enrolment.bytes (e : Enrolment) (recordKey : BitVec 256) : List Byte :=
  e.body ++ bytesOf (Config.kmac recordKey e.body).toNat 32

/-- The digest of the enrolment record in use, or zeros (R459). -/
def State.enrolDigest (s : State) : BitVec 256 :=
  match s.vault.enrolment with | some e => Config.digest (e.bytes s.vault.recordKey) | none => 0
/-- D(OWNERKEY), or zeros. -/
def State.ownerDigest (s : State) : BitVec 256 :=
  if s.owned then (match s.vault.enrolment with | some e => keyDigest e.owner | none => 0) else 0

/-! ## Measurements (R459) -/

/-- One measurement: kinds 1–4 extend MR_BOOT, the others MR_RUN, of which the log keeps 896. -/
def State.measure (s : State) (kind : BitVec 8) (d : BitVec 256) : State :=
  let v := s.vault
  let run : Bool := 4 < kind.toNat
  let n := if run then 4 + v.runCount else v.log.length
  let e := bytesOf n 4 ++ [kind] ++ bytesOf 0 3 ++ bytesOf s.now.toNat 8 ++ bytesOf 0 16 ++ bytesOf d.toNat 32
  let mr := if run then v.mrRun else v.mrBoot
  let mr' := Config.digest (bytesOf mr.toNat 32 ++ e)
  let full : Bool := run && 896 ≤ v.runCount
  { s with vault := { v with
      mrBoot := if run then v.mrBoot else mr'
      mrRun := if run then mr' else v.mrRun
      log := if full then v.log else v.log ++ [BitVec.ofNat 512 (natOf e)]
      runCount := if run then v.runCount + 1 else v.runCount
      logOvf := v.logOvf || full } }

/-! ## Sessions (R399, R401, R402, R409) -/

def State.session (s : State) (n : BitVec 32) (control : Bool) : Option Session :=
  s.house.sessions.find? fun x => x.number = n && x.control = control

def State.modSession (s : State) (n : BitVec 32) (g : Session → Session) : State :=
  { s with house := { s.house with sessions := s.house.sessions.map fun x => if x.number = n then g x else x } }

def State.closeSessions (s : State) (p : Session → Bool) : State :=
  { s with house := { s.house with
      sessions := s.house.sessions.filter fun x => !p x
      subscribers := s.house.subscribers.filter fun u => !(s.house.sessions.any fun x => x.number = u.session && p x) } }

def portKey (port : Bool) (sub : BitVec 2) : Nat := port.toNat * 4 + sub.toNat
def State.subPort (s : State) (port : Bool) (sub : BitVec 2) : SubPort := Sparse.get {} s.house.ports (portKey port sub)
def portMtu (cfg : BitVec 64) : Nat := (cfg.extractLsb' 48 14).toNat
def portUdp (cfg : BitVec 64) : Nat := (cfg.extractLsb' 32 16).toNat
def portDscp (cfg : BitVec 64) : BitVec 6 := cfg.extractLsb' 19 6
def portMode (cfg : BitVec 64) : Nat := (cfg.extractLsb' 0 2).toNat

def State.setSub (s : State) (port : Bool) (sub : BitVec 2) (x : SubPort) : State :=
  { s with house := { s.house with ports := Sparse.set {} s.house.ports (portKey port sub) x } }

/-- The 802.1Q priority of a frame: the upper three bits of its DSCP (PRESUMED, log entry 112). -/
def dscpPriority (d : BitVec 6) : BitVec 3 := d.extractLsb' 3 3

/-- The peer has paused a priority, which a sub-port with PFC_EN obeys (R396). -/
def SubPort.obeys (x : SubPort) (p : BitVec 3) (clk : Nat) : Bool :=
  x.cfg.getLsbD 15 && clk < Sparse.get 0 x.paused p.toNat

/-- A frame leaves through a sub-port, behind those of its priority that wait for a pause to end; a sub-port that is down
sends nothing. -/
def State.sendOut (s : State) (port : Bool) (sub : BitVec 2) (dscp : BitVec 6) (o : Output) : State :=
  let x := s.subPort port sub
  let p := dscpPriority dscp
  if !x.up then s
  else if x.obeys p s.clk.clk || x.txq.any fun e => e.1 = p then s.setSub port sub { x with txq := x.txq ++ [(p, o)] }
  else s.emit o

/-- A datagram of the device on a session has taken its PN; the session closes before PN 2^40 (R399). -/
def State.spendPn (s : State) (n : BitVec 32) : State :=
  match s.house.sessions.find? fun x => x.number = n with
  | none => s
  | some x =>
    let s := s.modSession n fun y => { y with txpn := y.txpn + 1 }
    if 2 ^ 40 ≤ x.txpn.toNat + 1 then s.closeSessions fun y => y.number = n else s

/-- The 16 B header of a SEALED datagram, the additional data of its tag (R398). -/
def sealHeader (session : BitVec 32) (pn : BitVec 64) : BitVec 128 :=
  BitVec.ofNat 128 (1 + 4 * 2 ^ 8 + session.toNat * 2 ^ 32 + pn.toNat * 2 ^ 64)

/-- The tag of packet `pn` from the client: its key and its salt of K, the salt followed by PN as the nonce (R463). -/
def Session.tagIn (x : Session) (pn : BitVec 64) : GcmTag :=
  { key := x.keys.extractLsb' 0 256, nonce := pn ++ x.keys.extractLsb' 512 32, aad := sealHeader x.number pn }

/-- The tag of packet `pn` to the client (R463). -/
def Session.tagOut (x : Session) (pn : BitVec 64) : GcmTag :=
  { key := x.keys.extractLsb' 256 256, nonce := pn ++ x.keys.extractLsb' 544 32, aad := sealHeader x.number pn }

/-- A SEALED message on an open session, with its PN. -/
def State.sendMessage1 (s : State) (n : BitVec 32) (mtype status seg : BitVec 8) (reqid lseq ltime : BitVec 64)
    (dscp : BitVec 6) (data : List Byte) : State :=
  match s.house.sessions.find? fun x => x.number = n && x.opened with
  | none => s
  | some x =>
    (s.sendOut x.port x.sub dscp <| .sealed (x.tagOut x.txpn) (.message n x.txpn mtype status seg reqid lseq ltime dscp data)).spendPn n

/-- The tally of a STATUS code (R526). -/
def statusTally (st : BitVec 8) : Option (BitVec 8) :=
  if 1 ≤ st.toNat && st.toNat ≤ 6 then some (0x80 + st) else none

/-- A STATUS message that echoes REQID (R403). -/
def State.sendStatus (s : State) (n : BitVec 32) (dscp : BitVec 6) (reqid : BitVec 64) (st : BitVec 8) : State :=
  let s := match statusTally st with | some e => s.count .house e 0 1 | none => s
  s.sendMessage1 n 4 st 0 reqid 0 0 dscp []

/-- The MTU of the sub-port that carries a session. -/
def State.sessionMtu (s : State) (n : BitVec 32) : Nat :=
  match s.house.sessions.find? fun x => x.number = n with
  | some x => portMtu (s.subPort x.port x.sub).cfg
  | none => 1500

/-- The most data bytes of a frame or of an exported item, which the manual counts with the headers of IPv6 (R425, R472). -/
def State.sessionRoom (s : State) (n : BitVec 32) : Nat := s.sessionMtu n - 112

/-- The most reply bytes of one datagram of the session: its MTU less 40 B of IPv6 or 20 B of IPv4, 8 B of UDP, two headers of
16 B and 32 B and the tag of 16 B (R398, R402, R409). -/
def State.segmentRoom (s : State) (n : BitVec 32) : Nat :=
  s.sessionMtu n - (if (s.house.sessions.find? fun x => x.number = n).any fun x => x.v6 then 112 else 92)

/-- Data in pieces of `n` bytes. -/
def pieces (n : Nat) : Nat → List Byte → List (List Byte)
  | 0, bs => [bs]
  | fuel + 1, bs => if bs.length ≤ n || n = 0 then [bs] else bs.take n :: pieces n fuel (bs.drop n)

/-! ## The receipt region (R412, R413) -/

def receiptSlots : Nat := 524288

/-- REPLYMAX of RECEIPT_CFG (R417). -/
def State.replyMax (s : State) : Nat := (s.house.receiptCfg.extractLsb' 48 14).toNat * 64

/-- The record of a slot of the receipt region that a RECEIPT_CFG gives. -/
def recordAt (cfg : BitVec 62) (slot : Nat) : Nat :=
  (cfg.extractLsb' 0 48).toNat + slot * (32 + (cfg.extractLsb' 48 14).toNat * 64)

/-- The FLOOR of a client, behind the last record. -/
def floorAt (cfg : BitVec 62) (client : Nat) : Nat := recordAt cfg receiptSlots + 8 * client

/-- The record of a stored reply: the header of its message, then its data (the header's form: DESIGN CHOICE, log entry 42).
Without a receipt region nothing is stored. -/
def State.storeReply (s : State) (r : Receipt) (data : List Byte) : State :=
  if s.house.receiptCfg = 0 then s
  else s.writeDram (recordAt s.house.receiptCfg (r.ticket.toNat % receiptSlots))
    ([3, r.status, 0, 0] ++ bytesOf data.length 4 ++ bytesOf r.reqid.toNat 8 ++ bytesOf r.lseq.toNat 8
      ++ bytesOf r.ltime.toNat 8 ++ data)

/-- The data of a stored reply; where an uncorrectable codeword stands among them they are free values (DESIGN CHOICE, log
entry 113). -/
def State.storedReply (s : State) (r : Receipt) : State × List Byte :=
  if r.len = 0 then (s, [])
  else
    match s.readDram (recordAt s.house.receiptCfg (r.ticket.toNat % receiptSlots) + 32) r.len with
    | (s, some bs) => (s, bs)
    | (s, none) => (s.draw, (List.range r.len).map (Config.undefinedByte s.fresh))

/-- FLOOR of a client, 0 where there is no receipt region. -/
def State.floor (s : State) (client : Nat) : State × BitVec 64 :=
  if s.house.receiptCfg = 0 then (s, 0)
  else
    match s.readDram (floorAt s.house.receiptCfg client) 8 with
    | (s, some bs) => (s, BitVec.ofNat 64 (natOf bs))
    | (s, none) => (s.draw, BitVec.ofNat 64 (natOf ((List.range 8).map (Config.undefinedByte s.fresh))))

/-- A message to a session leaves: the session is open, and its sub-port's link is up. -/
def State.sessionSends (s : State) (n : BitVec 32) : Bool :=
  s.house.sessions.any fun x => x.number = n && x.opened && (s.subPort x.port x.sub).up

/-- A REPLY (MTYPE 2) or RECEIPT (3), in segments where one datagram does not hold it (R409). -/
def State.sendReply (s : State) (mtype : BitVec 8) (r : Receipt) (data : List Byte) : State :=
  let ps := pieces (s.segmentRoom r.session) 16 data
  let k := ps.length
  ps.zipIdx.foldl (fun s p =>
    s.sendMessage1 r.session mtype r.status (BitVec.ofNat 8 (if k = 1 then 0 else p.2 + 16 * (k - 1))) r.reqid r.lseq
      r.ltime r.dscp p.1) s

/-! ## Records (R466–R468) -/

def recordRing : Nat := 1572864

/-- D24 of the loaded image's digest input, or zeros (R466). -/
def State.imd (s : State) : BitVec 192 :=
  match s.stew.program.digest with | some d => d.setWidth 192 | none => 0

def State.unsealed (s : State) : Nat := (s.vault.seq - s.vault.sealedNext).toNat

/-- An append must wait for a seal (R471). -/
def State.appendsWait (s : State) : Bool :=
  s.vault.sealWaiting || (4 ≤ s.vault.signing.length && 4096 ≤ s.unsealed)

/-- An export item to a subscriber (R472): its header, then its content. -/
def State.exportItem (s : State) (n : BitVec 32) (item part parts count : Nat) (content : List Byte) : State :=
  let hd : List Byte := [BitVec.ofNat 8 item, BitVec.ofNat 8 part, BitVec.ofNat 8 parts, BitVec.ofNat 8 count]
  let dscp := match s.house.sessions.find? fun x => x.number = n with
    | some x => portDscp (s.subPort x.port x.sub).cfg
    | none => 0
  s.sendMessage1 n 7 0 0 0 0 0 dscp (hd ++ bytesOf s.vault.epoch.toNat 4 ++ content)

/-- The bytes of record `n` of the current epoch, if the ring still holds it. -/
def State.recordOf (s : State) (n : Nat) : Option (BitVec 1024) :=
  match Sparse.find? (n % recordRing) s.vault.records with
  | some r => if (r.extractLsb' 0 64).toNat = n then some r else none
  | none => none

/-- The time as the counting house has it (R52, R53): the value that it rebuilds from beacons, and, while it has no valid one,
the counter itself as TIME_NOW gives it (DESIGN CHOICE, log entry 102). -/
def State.houseTime (s : State) : BitVec 64 :=
  let c : Consumer := Sparse.get {} s.clk.consumers 92
  if c.valid then c.value else s.now

/-- The time counter as the steward reads it (R52, R53, R439), in the same way. -/
def State.stewardTime (s : State) : BitVec 64 :=
  let c : Consumer := Sparse.get {} s.clk.consumers 94
  if c.valid then c.value else s.now

/-- The TIME of the next record: never lower than in an earlier record of the epoch (R466). -/
def State.stamp (s : State) : BitVec 64 :=
  if s.vault.seq != 0 && s.houseTime.toNat < s.vault.lastTime.toNat then s.vault.lastTime else s.houseTime

/-- The control block of the ledger (R465): EPOCH, next SEQ, CHAIN, last sealed SEQ, and a KMAC256 under the record key. The
steward writes it with each record, and `Vault.controlOk` says that it stands. -/
def Vault.controlBlock (v : Vault) : List Byte :=
  let body := bytesOf v.epoch.toNat 4 ++ bytesOf v.seq.toNat 8 ++ bytesOf v.chain.toNat 32 ++ bytesOf (v.sealedNext - 1).toNat 8
  body ++ bytesOf (Config.kmac v.recordKey body).toNat 32

/-- A record is appended now, with the IMD given. -/
def State.appendWith (s : State) (d : RecordDraft) (imd : BitVec 192) : State :=
  let v := s.vault
  let body := bytesOf v.seq.toNat 8 ++ bytesOf s.stamp.toNat 8 ++ bytesOf d.session.toNat 4 ++ bytesOf d.client.toNat 2
    ++ [d.kind, d.status] ++ bytesOf d.rqd.toNat 24 ++ bytesOf imd.toNat 24 ++ bytesOf d.rpd.toNat 24
  let chain := Config.digest (bytesOf v.chain.toNat 32 ++ body)
  let bytes := body ++ bytesOf chain.toNat 32
  let s := { s with
    vault := { v with
      seq := v.seq + 1, chain := chain, lastTime := s.stamp
      oldestAt := if v.seq = v.sealedNext then s.clk.clk else v.oldestAt, controlOk := true
      records := Sparse.put (v.seq.toNat % recordRing) (BitVec.ofNat 1024 (natOf bytes)) v.records }
    clk := { s.clk with monotonic := true } }
  let s := s.count .house 0x8F 0 1
  let due := s.house.subscribers.filter fun u => u.next = v.seq
  let s := { s with house := { s.house with
    subscribers := s.house.subscribers.map fun u => if u.next = v.seq then { u with next := v.seq + 1 } else u } }
  due.foldl (fun s u => s.exportItem u.session 1 0 0 1 bytes) s

/-- A record is appended, or waits for a seal (R471). -/
def State.append (s : State) (d : RecordDraft) : State :=
  if s.appendsWait then { s with vault := { s.vault with waiting := s.vault.waiting ++ [d] } }
  else s.appendWith d s.imd

/-- A record that no request caused. -/
def plainRecord (kind status : BitVec 8) (rqd rpd : BitVec 192) : RecordDraft :=
  { kind := kind, status := status, session := 0, client := 0, rqd := rqd, rpd := rpd }

/-! ## Seals (R470, R471) -/

/-- A seal falls due: signing starts if fewer than four are being signed, and otherwise appends wait. The vault makes none
after the loss of its reference (R59). -/
def State.sealNow (s : State) : State :=
  let v := s.vault
  if v.seq = v.sealedNext || (s.island 95).lost then s
  else if 4 ≤ v.signing.length then { s with vault := { v with sealWaiting := true } }
  else
    let j : SealJob := { first := v.sealedNext, last := v.seq - 1, time := s.now, head := v.chain, prev := v.prevHead,
                         since := s.clk.clk }
    { s with vault := { v with signing := v.signing ++ [j], sealedNext := v.seq, prevHead := v.chain } }

/-- The bytes of a seal. -/
def State.sealBytes (s : State) (j : SealJob) : List Byte :=
  let hd := bytesOf 0x4C535A45 4 ++ bytesOf s.vault.epoch.toNat 4 ++ bytesOf j.first.toNat 8 ++ bytesOf j.last.toNat 8
    ++ bytesOf j.time.toNat 8 ++ bytesOf j.head.toNat 32 ++ bytesOf j.prev.toNat 32
  hd ++ s.vault.sign "SG4-SEAL" hd

/-- A seal to a subscriber, in parts. -/
def State.exportSeal (s : State) (n : BitVec 32) (sl : List Byte) : State :=
  let ps := pieces (s.sessionRoom n - 8) 16 sl
  ps.zipIdx.foldl (fun s p => s.exportItem n 2 p.2 ps.length 0 p.1) s

/-- Appends that waited proceed in order as far as they may. -/
def State.flushAppends (s : State) : List RecordDraft → State
  | [] => { s with vault := { s.vault with waiting := [] } }
  | d :: ds => if s.appendsWait then { s with vault := { s.vault with waiting := d :: ds } }
    else (s.appendWith d s.imd).flushAppends ds

/-- The oldest seal is signed (R471); a twin hears of it (R500). -/
def State.sealDone (s : State) : State :=
  match s.vault.signing with
  | [] => s
  | j :: js =>
    let sl := s.sealBytes j
    let s := { s with vault := { s.vault with
      signing := js, sealRing := Sparse.put (s.vault.sealCount % 16383) sl s.vault.sealRing
      sealCount := s.vault.sealCount + 1, sealedAt := s.clk.clk } }
    let s := s.count .house 0x90 0 1
    let s := s.house.subscribers.foldl (fun s u => if j.last.toNat < u.next.toNat then s.exportSeal u.session sl else s) s
    let s := match s.surv.twin.bind s.physOf with
      | some p => s.sendControl p none 16 (bytesOf s.vault.epoch.toNat 4 ++ bytesOf j.last.toNat 8 ++ bytesOf j.head.toNat 32)
      | none => s
    let s := if s.vault.sealWaiting then
        ({ s with vault := { s.vault with sealWaiting := false } }).sealNow else s
    s.flushAppends s.vault.waiting

/-- SEAL_DUE: 4,096 unsealed records, or the oldest is 10 ms old. -/
def execSealDue (s : State) : Answer :=
  .next (if !s.vault.sealWaiting && 0 < s.unsealed
      && (4096 ≤ s.unsealed || s.passed s.vault.oldestAt (10000 * usUnits)) then s.sealNow else s)

/-- SEAL_COMPLETE: the vault has signed, which it does not do after the loss of its reference (R59). -/
def execSealComplete (s : State) : Answer := .next (if (s.island 95).lost then s else s.sealDone)

/-! ## Epochs (R469) -/

/-- CHAIN_(−1) of an epoch (R468). -/
def Vault.chainStart (v : Vault) : BitVec 256 := Config.digest (ascii "SG4-LEDGER" ++ bytesOf v.identityDigest.toNat 32)

/-- A new epoch starts: its counter in NOR rises, every export ends, and the EPOCH record is appended. -/
def State.startEpoch (s : State) : State :=
  let n := s.vault.epochCounter + 1
  let rnd := (Config.random s.fresh).setWidth 192
  let s := s.draw
  let s := { s with
    vault := { s.vault with
      epochCounter := n, epoch := n, seq := 0, chain := s.vault.chainStart, prevHead := s.vault.chainStart, sealedNext := 0, records := []
      sealRing := [], sealCount := 0, signing := [], sealWaiting := false, waiting := [], controlOk := true }
    house := { s.house with subscribers := [] } }
  let rqd := natOf (bytesOf n.toNat 4 ++ bytesOf s.stew.fwVersion.toNat 4 ++ bytesOf s.vault.gen.toNat 1
    ++ bytesOf s.vault.rollback.toNat 1)
  let rpd : BitVec 192 := match s.vault.enrolment with | some e => digest24 (e.bytes s.vault.recordKey) | none => 0
  s.appendWith (plainRecord 6 (BitVec.ofNat 8 s.clk.valid.toNat) (BitVec.ofNat 192 rqd) rpd) rnd

end Sys2Proof.Machine
end

