-- ==== Sys2Proof/Machine/Matrix.lean ====
section
/-!
DEFINITION. The matrix unit (R108–R111, R184–R191, R197–R207): passes, weight-plane loads, and their completion.
-/
namespace Sys2Proof.Machine

/-! ## The value of a pass -/

/-- K of R187: elements of an activation word. -/
def passK (fmt : BitVec 4) : Nat := 512 / fmtBits fmt

/-- Lanes of a bank (R187). -/
def passN (fmt : BitVec 4) : Nat := if fmt = 7 then 64 else 128

/-- Array cycles of a pass (R198). -/
def passA (fmt : BitVec 4) : Nat := if fmt = 6 || fmt = 7 then 4 else 1

/-- The class that a format gives its bank (R205). -/
def passClass (fmt : BitVec 4) : BitVec 2 := if fmt = 1 || fmt = 4 then 2 else if fmt = 7 then 3 else 1

/-- Element `k` of an activation word or a column (R184). -/
def element (fmt : BitVec 4) (w : Line) (k : Nat) : Nat := (w.extractLsb' (fmtBits fmt * k) (fmtBits fmt)).toNat

/-- Column `n` of a plane (R185). -/
def column (plane : BitVec 65536) (n : Nat) : Line := plane.extractLsb' (512 * n) 512

/-- A weight under its SX8 byte (R171). -/
def scaleBy (x : Nat) (w : Num) : Num :=
  if x = 255 then .nan false
  else if x = 0 then .fin false 0 0
  else match w with
    | .fin s m e => .fin s m (e + x - 127)
    | v => v

/-- A product of a pass (R188, R189). R189 lists no product of two infinities; the model gives it the infinity of the
product's sign, as IEEE arithmetic does (DESIGN CHOICE, log entry 89). -/
def product (a w : Num) : Num :=
  match a, w with
  | .nan _, _ => .nan false
  | _, .nan _ => .nan false
  | .inf s, .inf t => .inf (s != t)
  | .inf s, .fin t m _ => if m = 0 then .nan false else .inf (s != t)
  | .fin s m _, .inf t => if m = 0 then .nan false else .inf (s != t)
  | .fin s m e, .fin t n f => .fin (s != t) (m * n) (e + f)

/-- What the products of a lane add up to: a NaN, a positive and a negative infinity, and the exact finite sum. -/
structure Total where
  nan : Bool := false
  pinf : Bool := false
  ninf : Bool := false
  sum : Int × Int := (0, 0)
  deriving DecidableEq, Repr

def Total.add (t : Total) (x : Num) : Total :=
  match x with
  | .nan _ => { t with nan := true }
  | .inf s => if s then { t with ninf := true } else { t with pinf := true }
  | .fin s m e => if m = 0 then t else { t with sum := dyadicAdd t.sum (signed s m, e) }

/-- The pass value of R188 step 2 and R189. -/
def Total.value (t : Total) : Nat :=
  if t.nan || (t.pinf && t.ninf) then binary32.qnan
  else if t.pinf then binary32.infBits false
  else if t.ninf then binary32.infBits true
  else (binary32.roundInt 0 t.sum.1 t.sum.2 false).1

/-- The pass value of lane `n` in a short floating-point format (R188). -/
def shortPass (fmt : BitVec 4) (act : Line) (plane : BitVec 65536) (scales : BitVec 8192) (n : Nat) : Nat :=
  let col := column plane n
  ((List.range (passK fmt)).foldl (fun t k =>
    let w := shortDecode fmt (element fmt col k)
    let w := if fmt = 0 then scaleBy (scales.extractLsb' (8 * (8 * n + k / 16)) 8).toNat w else w
    t.add (product (shortDecode fmt (element fmt act k)) w)) ({} : Total)).value

/-- The sum of products of lane `n` in an integer format (R190). -/
def intPass (fmt : BitVec 4) (act : Line) (plane : BitVec 65536) (n : Nat) : Int :=
  let col := column plane n
  (List.range (passK fmt)).foldl
    (fun v k => v + intDecode fmt (element fmt act k) * intDecode fmt (element fmt col k)) 0

/-- The sequential sum of lane `n` from `start` in FP32 or FP64 (R191). -/
def seqPass (f : IeeeFmt) (fmt : BitVec 4) (act : Line) (plane : BitVec 65536) (n start : Nat) : Nat :=
  let col := column plane n
  (List.range (passK fmt)).foldl (fun v k => (f.fma 0 (element fmt act k) (element fmt col k) v).1) start

/-- Lane `n` of a bank, whose lanes are `w` bits wide. -/
def bankLane (b : BankVal) (w n : Nat) : Nat := (b.val.extractLsb' (w * n) w).toNat

def lanesOf (w n : Nat) (f : Nat → Nat) : BitVec 6144 :=
  BitVec.ofNat 6144 ((List.range n).foldr (fun i acc => f i % 2 ^ w + 2 ^ w * acc) 0)

/-- The bank's contents after a pass that settles (R188, R190, R191, R205). -/
def Pass.settleInto (p : Pass) (old : BankVal) : BankVal :=
  let cls := passClass p.fmt
  let acc := p.acc && old.cls = cls
  let val :=
    if cls = 2 then
      lanesOf 48 128 fun n =>
        ((intPass p.fmt p.act p.plane n + (if acc then bankLane old 48 n else 0)) % 2 ^ 48).toNat
    else if p.fmt = 7 then
      lanesOf 64 64 fun n => seqPass binary64 7 p.act p.plane n (if acc then bankLane old 64 n else 0)
    else if p.fmt = 6 then
      lanesOf 32 128 fun n => seqPass binary32 6 p.act p.plane n (if acc then bankLane old 32 n else 0)
    else
      lanesOf 32 128 fun n =>
        let v := shortPass p.fmt p.act p.plane p.scales n
        if acc then (binary32.add 0 (bankLane old 32 n) v).1 else v
  { since := p.settle, cls := cls, val := val }

/-! ## The M slot -/

/-- The array is occupied by an earlier pass in cycle `now` (R203). -/
def Tile.arrayBusy (x : Tile) (now : Scc) : Bool :=
  match x.mx.arrayUntil with
  | some (c, _) => (c - now).toNat < 4
  | none => false

def Tile.plane (x : Tile) (p : Bool) : Plane := if p then x.mx.plane1 else x.mx.plane0
def Tile.setPlane (x : Tile) (p : Bool) (v : Plane) : Tile :=
  { x with mx := if p then { x.mx with plane1 := v } else { x.mx with plane0 := v } }

/-- The load of buffer `p` is in progress: in its cycles issue to issue + 31 (R111), also after its end has been
commanded in the last of them. -/
def Tile.loading (x : Tile) (now : Scc) (p : Bool) : Bool :=
  (x.mx.load.any fun l => l.plane = p) || x.mx.lastLoad = some (now, p)

/-- The class that the bank will have when every pass issued so far has settled, and whether a pass in flight writes it whole
before the pass that issues now reads it (R205). -/
def Tile.nextClass (x : Tile) (bank : BitVec 2) : BitVec 2 :=
  match (x.mx.passes.filter fun p => p.bank = bank).getLast? with
  | some p => passClass p.fmt
  | none => match x.bankVals bank.toNat with | v :: _ => v.cls | [] => 0

/-- The check of the buffer and, where the pass adds to the bank, of the bank falls at the issue of the MMA, also where an
earlier pass that has not settled will overwrite the bank; the detail numbers a buffer 0 or 1 and a bank 2 + n. The spec states
neither (DESIGN CHOICE, log entries 88 and 90). An ACC = 1 pass of another class reads no bank (R205). -/
def mmaIssue (m : MSlot) (e : IssueEnv) (x : Tile) : Except Failure Tile := do
  check (m.rsv = 0 && m.ag = 0 && m.off = 0 && m.fmt.toNat < 8) (illegal 0)
  check (!x.arrayBusy e.now && !x.loading e.now m.plane) (inconsistent 0)
  let (w, x) ← x.pop64 e.now 0 qeMA
  let x ← x.readMark 6 m.plane.toNat 0 m.plane.toNat
  let x ← if m.acc && x.nextClass m.bank = passClass m.fmt then x.readMark 6 (2 + m.bank.toNat) 0 (2 + m.bank.toNat) else .ok x
  let p := x.plane m.plane
  let pass : Pass :=
    { bank := m.bank, fmt := m.fmt, acc := m.acc, act := w, plane := p.data, scales := p.scales,
      settle := e.now + BitVec.ofNat 48 (passA m.fmt + 3) }
  .ok ({ x with mx := { x.mx with
      passes := x.mx.passes ++ [pass]
      arrayUntil := some (e.now + BitVec.ofNat 48 (passA m.fmt - 1), m.plane) } }.count 0x04 1)

/-- `n` bytes of the operand cache from byte address `a`, which wraps modulo 64 KiB (R185). -/
def opcacheRead (oc : BitVec 524288) (a n : Nat) : Nat := (oc.rotateRight (8 * a)).toNat % 2 ^ (8 * n)

/-- The plane that an LDW of a format reads at an address (R185, R200). -/
def planeAt (oc : BitVec 524288) (fmt : BitVec 4) (a : Nat) : Plane :=
  { data := BitVec.ofNat 65536 (opcacheRead oc a (if fmt = 7 then 4096 else 8192))
    scales := if fmt = 0 then BitVec.ofNat 8192 (opcacheRead oc (a + 0x2000) 1024) else 0
    fmt := fmt }

/-- The 512 B lines of the operand cache that an LDW reads. -/
def planeLines (fmt : BitVec 4) (a : Nat) : List Nat :=
  let span (b n : Nat) : List Nat := (List.range (8 * n)).map fun i => (b + 64 * i) % 65536 / 512
  span a (if fmt = 7 then 8 else 16) ++ (if fmt = 0 then span (a + 0x2000) 2 else [])

/-- The reads of the operand cache: a correctable error of a line is counted, an uncorrectable one halts (R202). -/
def Tile.readLines (x : Tile) : List Nat → Except Failure Tile
  | [] => .ok x
  | l :: ls =>
    match x.readMark 2 l 0 (512 * l) with
    | .ok y => y.readLines ls
    | .error f => .error f

/-- The lines that the load reads are checked at the LDW's issue, which an uncorrectable one undoes, and not in the cycle of the
load that reads it; the detail is the byte address of the 512 B line in the cache. R202 gives the reason and the subcode only
(DESIGN CHOICE, log entry 119). -/
def ldwIssue (m : MSlot) (e : IssueEnv) (x : Tile) : Except Failure Tile := do
  check (m.rsv = 0 && m.bank = 0 && !m.acc && m.fmt.toNat < 8) (illegal 0)
  check (!x.arrayBusy e.now && !x.loading e.now false && !x.loading e.now true) (inconsistent 0)
  let a := (x.agAddr m.ag m.off).toNat % 65536 / 64 * 64
  let x ← x.readLines (planeLines m.fmt a).dedup
  let x := x.setPlane m.plane { x.plane m.plane with fmt := m.fmt }
  .ok { x with mx := { x.mx with
      load := some { plane := m.plane, data := planeAt x.mx.opcache m.fmt a, last := e.now + 31 } } }

/-! ## Queue end MW (R67, R111)

The operand cache pushes the words of the plane into MW over the 32 cycles of the load, and the matrix unit pops them in
the next cycle. The spec gives the load's bytes and its cycles, not the words of each cycle: the model spreads them
evenly (DESIGN CHOICE, log entry 27). -/

/-- Words of 64 B that a load of the format brings: the plane and, for FMT 0, its scales (R185). -/
def loadWords (fmt : BitVec 4) : Nat := if fmt = 7 then 64 else if fmt = 0 then 144 else 128

/-- Word `i` of a load. -/
def Load.word (l : Load) (i : Nat) : Line :=
  if i < 128 then l.data.data.extractLsb' (512 * i) 512 else l.data.scales.extractLsb' (512 * (i - 128)) 512

/-- MW at the end of cycle `now`: the words that the cache has pushed in this cycle, which the matrix unit pops in the
next one. Nothing is left in the load's last cycle. -/
def Load.mw (l : Load) (now : Scc) : List Line :=
  let k := 31 - (l.last - now).toNat
  let n := loadWords l.data.fmt
  if 31 ≤ k then []
  else ((List.range n).filter fun i => i * 31 / n = k).map l.word

/-- MW as the cycle leaves it. -/
def Tile.fillMw (x : Tile) (now : Scc) : Tile :=
  { x with mx := { x.mx with mw := match x.mx.load with | some l => l.mw now | none => [] } }

/-- R109, R188. -/
def execMma (t : TileNo) (m : MSlot) (s : State) : Answer := .next (s.issue t 0 (mmaIssue m))
/-- R109, R111, R200. -/
def execLdw (t : TileNo) (m : MSlot) (s : State) : Answer := .next (s.issue t 0 (ldwIssue m))

/-! ## Completions -/

/-- The load into `plane` ends in its last cycle (R111, R200). -/
def Tile.finishLoad (x : Tile) (now : Scc) (plane : Bool) : Tile :=
  match x.mx.load with
  | some l =>
    if l.plane = plane && l.last = now then
      let x := x.setPlane plane l.data
      { x with mx := { x.mx with load := none, lastLoad := some (now, plane) } }.clean 6 plane.toNat
    else x
  | none => x

/-- The pass into `bank` that settles in this cycle (R203, R204). -/
def Tile.settle (x : Tile) (now : Scc) (bank : BitVec 2) : Tile :=
  match x.mx.passes.find? fun p => p.bank = bank && p.settle = now with
  | none => x
  | some p =>
    let old := x.bankVals bank.toNat
    let v := p.settleInto (old.headD {})
    let y := { x with mx := { x.mx with
        passes := x.mx.passes.filter fun q => !(q.bank = bank && q.settle = now)
        banks := Sparse.set [] x.mx.banks bank.toNat ((v :: old).take 4) } }
    if p.acc && (old.headD {}).cls = passClass p.fmt && x.mark 6 (2 + bank.toNat) = 2 then y else y.clean 6 (2 + bank.toNat)

/-- R111, R200. -/
def execWeightLoadComplete (t : TileNo) (plane : Bool) (s : State) : Answer :=
  .next (if s.running && tileIn s.grade t.toNat then s.modTile t.toNat fun x => x.finishLoad s.fab.scc plane else s)

/-- R203–R206. -/
def execPassSettle (t : TileNo) (bank : BitVec 2) (s : State) : Answer :=
  .next (if s.running && tileIn s.grade t.toNat then s.modTile t.toNat fun x => x.settle s.fab.scc bank else s)

/-! ## TILE_MX (R220) -/

/-- CLASS_n: the class of the bank after its latest settle. -/
def Tile.bankClass (x : Tile) (b : Nat) : BitVec 2 := match x.bankVals b with | v :: _ => v.cls | [] => 0

/-- Cycles of the load still to run after cycle `now`. While the fabric is held at cycle C the three counts of TILE_MX are
those of C in progress (DESIGN CHOICE, log entry 120). -/
def Tile.ldwLeft (x : Tile) (now : Scc) : Nat :=
  match x.mx.load with | some l => (l.last - now).toNat % 32 | none => 0

/-- Further cycles for which the array is occupied after cycle `now`. -/
def Tile.arrayLeft (x : Tile) (now : Scc) : Nat :=
  match x.mx.arrayUntil with | some (c, _) => if (c - now).toNat < 4 then (c - now).toNat else 0 | none => 0

/-- TILE_MX as a read in cycle `now` returns it (R220). -/
def Tile.tileMx (x : Tile) (grade : BitVec 2) (now : Scc) : BitVec 32 :=
  let fp64 : Bool := grade = 0 && (match x.vec.fp64Until with | some c => (c - now).toNat < 2 | none => false)
  BitVec.ofNat 32
    ((x.bankClass 0).toNat + (x.bankClass 1).toNat * 4 + (x.bankClass 2).toNat * 16 + (x.bankClass 3).toNat * 64
      + x.mx.plane0.fmt.toNat * 2 ^ 8 + x.mx.plane1.fmt.toNat * 2 ^ 12 + x.mx.load.isSome.toNat * 2 ^ 16
      + x.ldwLeft now * 2 ^ 17 + x.arrayLeft now * 2 ^ 22 + fp64.toNat * 2 ^ 24)

end Sys2Proof.Machine
end

