-- ==== Sys2Proof/Machine/Cycle.lean ====
section
/-!
DEFINITION. What time itself brings: the end and the beginning of a schedule cycle (R12, R71, R76, R84, R86, R119, R127, R227,
R334), what is still due in a cycle, and the work of the asynchronous agents that no command of its own drives.
-/
namespace Sys2Proof.Machine

/-! ## The drain of a cycle (R84, R86) -/

/-- The tiles that issued a DRAIN in the current cycle, in order. -/
def State.drainers (s : State) : List (Nat × TileDrain) :=
  s.fab.tiles.filterMap fun x => (x.2.drainOf s.fab.scc).map fun d => (x.1, d)

/-- The tiles whose bundle of the current cycle holds a DRAIN, those included whose bundle has failed another check: its
DRAIN takes no effect, but what it checks joins the tile's one request (R142). -/
def State.triedDrains (s : State) : List (Nat × TileDrain) :=
  s.fab.tiles.filterMap fun x => ((s.asIssued x.1).drainOf s.fab.scc).map fun d => (x.1, d)

/-- The first track that the tile's bundle drove, as its key. -/
def Tile.drove (x : Tile) (now : Scc) : Option Nat := (x.bundleIn now).bind fun b => b.driven.getLast?

/-- The tiles that have issued a bundle in this cycle, with the tile as its slots left it. -/
def State.issued (s : State) : List (Nat × Tile) :=
  (s.fab.tiles.map fun x => (x.1, s.asIssued x.1)).filter fun x => (x.2.bundleIn s.fab.scc).isSome

/-- A drive in the cycle of a DRAIN that names a set stands in its window (R86): at every tile where the DRAIN takes effect,
and at a tile whose own bundle holds it. -/
def State.windowDrives (s : State) : State :=
  let open_ : Bool := s.drainers.any fun d => d.2.set != 0
  let own (x : Tile) : Bool := (x.drainOf s.fab.scc).any fun d => d.set != 0
  s.issued.foldl (fun s x =>
    match x.2.drove s.fab.scc with
    | some key =>
      if open_ || own x.2 then
        s.failIssue x.1 x.2 { slot := 3, reason := 7, subcode := 3, detail := BitVec.ofNat 32 key }
      else s
    | none => s) s

/-- The first of the tiles that name a set, the lowest-numbered one, and the first whose set differs from that (R86). -/
def namedSet (ds : List (Nat × TileDrain)) : Option (BitVec 4) × Option (Nat × TileDrain) :=
  let named := ds.filter fun d => d.2.set != 0
  let set : Option (BitVec 4) := named.head?.map fun d => d.2.set
  (set, named.find? fun d => some d.2.set != set)

/-- The drain of the cycle: the set that its tiles agree on and its window, or the clash of their sets (R86). -/
def State.settleDrain (s : State) : State :=
  let now := s.fab.scc
  let ds := s.drainers
  let (set, clash) := namedSet ds
  let odd := (namedSet s.triedDrains).2
  let base : Drain := { cyc := now, set := if clash.isSome then none else set, clash := clash.isSome
                        count := ds.any fun d => d.2.count, sampled := false, checked := false, counted := false }
  let s := if ds.isEmpty then s else { s with fab := { s.fab with drains := s.fab.drains ++ [base] } }
  match odd with
  | some (t, d) => s.tileHalt t now d.iaddr { slot := 4, reason := 7, subcode := 2, detail := 4 }
  | none => s.windowDrives

/-- The scheduled queue ends are empty and no group is open at a tile that drains (R84). -/
def State.checkDrainers (s : State) : State :=
  s.triedDrains.foldl (fun s d =>
    let x := s.asIssued d.1
    let s := match x.leftover (List.range 0x12 ++ [0x16, 0x17, 0x18, 0x19]) with
      | some f => s.tileHalt d.1 s.fab.scc d.2.iaddr f
      | none => s
    if x.esc.openedAt.isSome && x.esc.resolvedAt != some s.fab.scc then
      s.tileHalt d.1 s.fab.scc d.2.iaddr (escrowMisuse 4 0x0B x.esc.group 0)
    else s) s

/-! ## The end of a cycle -/

/-- A bundle without an operation that sets the PC has run past the last bundle (R127). -/
def Tile.ranOff (x : Tile) (now : Scc) : Bool :=
  ((x.bundleIn now).any fun b => !([2, 4, 0x21, 0x22] : List Nat).contains b.cop) && x.seq.pc = 1536

def State.checkRunOff (s : State) : State :=
  (s.issued.filter fun x => x.2.ranOff s.fab.scc).foldl (fun s x => s.failIssue x.1 x.2 (illegal 4)) s

/-- The bundle of the cycle counts as speculative work of a member (R526, R529). -/
def Tile.countSpec (x : Tile) (now : Scc) : Tile :=
  if (x.bundleIn now).isSome && x.speculative now && !x.seq.stopped then
    { x with esc := { x.esc with bundles := x.esc.bundles + 1 } }.count 0x02 1
  else x

/-- The failures of the cycle's words at a tile, with their bundles. -/
def State.haltAll (s : State) (t : Nat) (fs : List (BitVec 11 × Failure)) : State :=
  fs.foldl (fun s f => s.tileHalt t s.fab.scc f.1 f.2) s

/-- The driven words and what has arrived at a tile settle, and MW takes the words of the cycle: the tile, and the failures
with their bundles. -/
def State.settleWords (s : State) (t : Nat) (x : Tile) : Tile × List (BitVec 11 × Failure) :=
  let now := s.fab.scc
  let (y, fs) := x.settleDrives t
  let (y, hs) := s.strayDrives t (x.drives.map Prod.fst).dedup y
  let (z, gs) := y.enterAll now
  (z.fillMw now, ((fs ++ hs).map fun f => (x.iaddr, f)) ++ gs)

/-- The words of the cycle settle at tile `t`; those of a bundle that has failed a check are judged and take no effect
(R142). -/
def State.settleTile (s : State) (t : Nat) : State :=
  let x := s.tile t
  let (y, fs) := s.settleWords t x
  let s := (s.setTile t y).haltAll t fs
  match Sparse.find? t s.fab.trials with
  | none => s
  | some w =>
    let (w', gs) := s.settleWords t { w with arrived := x.arrived ++ w.arrived.filter fun r => !x.arrived.contains r }
    { s with fab := { s.fab with trials := Sparse.put t w' s.fab.trials } }.haltAll t gs

/-- A tile at the end of a cycle: what its bundle set for the next one. -/
def Tile.finish (x : Tile) (now : Scc) : Tile :=
  (((x.settleAg).countSpec now).planReleases now).finishOcws now

/-- Unscheduled requests that no bank has granted in the cycle are counted, while the fabric is held as well (R526, R529). -/
def State.countPortWaits (s : State) : State :=
  s.fab.tiles.foldl (fun s x =>
    let n := x.2.pad.ureqs.length
    if n = 0 then s else s.count (.field (BitVec.ofNat 4 (tileField x.1))) 0x22 0 n) s

/-- The cycle ends. -/
def State.endCycle (s : State) : State :=
  let now := s.fab.scc
  let ts := s.fab.tiles.map Prod.fst
  let s := s.checkRunOff.settleDrain.checkGroups
  let s := ts.foldl (fun s t => s.judgeArrivals t (s.asIssued t)) s
  let s := (ts.foldl State.settleTile s).checkDrainers.resolveGroups
  let s := (s.fab.tiles.foldl (fun s x => s.setTile x.1 (x.2.finish now)) s).stepWords
  { s with fab := { s.fab with saves := [], trials := [], scc := now + 1 } }

/-! ## The beginning of a cycle -/

/-- The failures of earlier work that the tile detects in this cycle. -/
def State.raiseLate (s : State) (t : Nat) : State :=
  let fs := (s.tile t).failsOf s.fab.scc
  if fs.isEmpty then s else (s.modTile t fun x => x.quietFails s.fab.scc).raiseFails t fs

/-- The banks that the named set does not keep fallow begin to wake in cycle D + 32 (R234, R235). -/
def State.beginWakes (s : State) : State :=
  match (s.fab.drains.find? fun d => d.set.isSome && d.cyc + 32 = s.fab.scc).bind fun d => d.set with
  | none => s
  | some k =>
    s.fab.tiles.foldl (fun s x =>
      let m := (s.field (tileField x.1)).fallowMask k x.1
      let w := x.2.pad.fallow &&& ~~~m
      if w = 0 then s
      else s.modTile x.1 fun y => { y with pad := { y.pad with
        fallow := y.pad.fallow &&& m
        waking := y.pad.waking ||| w
        wakeAt := ((List.range 16).filter w.getLsbD).foldl (fun a b => Sparse.put b (s.fab.scc + 1312) a) y.pad.wakeAt } }) s

/-- Nothing is left to be done for the drain. -/
def Drain.past (d : Drain) (now : Scc) : Bool := sccGe now (d.cyc + 34) && d.checked && (!d.count || d.counted)

/-- Drains that are past leave the records. -/
def State.forgetDrains (s : State) : State :=
  let live := s.fab.drains.filter fun d => !d.past s.fab.scc
  if live.length = s.fab.drains.length then s
  else
    { s with fab := { s.fab with
      drains := live
      tiles := Sparse.mapD {} (fun (x : Tile) => { x with
        drains := x.drains.filter fun d => live.any fun e => e.cyc = d.cyc }) s.fab.tiles } }

/-- The cycle begins: words leave the spines, reads are sampled, and failures due are raised. -/
def State.beginCycle (s : State) : State :=
  let s := s.stepTransits
  let ts := s.fab.tiles.map Prod.fst
  let s := ts.foldl (fun s t => ((s.sampleReads t).sampleReqs t).raiseLate t) s
  s.beginWakes.forgetDrains

/-! ## What is still due in the current cycle -/

/-- An event of the tile in this cycle has not been commanded yet. -/
def State.tileDue (s : State) (t : Nat) (x : Tile) : Bool :=
  let now := s.fab.scc
  (x.issues now && (x.bundleIn now).isNone)
    || (x.vec.results.any fun r => r.due = now)
    || (x.pad.writes.any fun w => w.due = now)
    || (x.petty.reqs.any fun r => r.issued + 3 = now)
    || (x.waits.any fun w => w.issued + 8 = now)
    || (x.mx.passes.any fun p => p.settle = now)
    || (x.mx.load.any fun l => l.last = now)
    || (x.seq.idling && x.seq.resumeAt = some (now + 1))
    || (x.esc.releasing.any fun r => r.1 = now)
    || (x.esc.relEast.any fun r => r.1 = now)
    || (x.esc.relWest.any fun r => r.1 = now)
    || (x.esc.committed && x.esc.resolvedAt = some (now - 4) && x.swapWaits)
    || x.wakeDue now
    || s.arrivalDue t x

/-- A bank that the named set makes fallow has not been powered down at the end of D + 31, or the set has not come into
force. -/
def State.setWork (s : State) : Bool :=
  match s.setDue with
  | some k => s.presentFields.any fun f =>
      (s.field f).spineCur != k
        || (List.range 48).any fun i => ((s.field f).fallowMask k (48 * f + i) &&& ~~~(s.tile (48 * f + i)).pad.fallow) != 0
  | none => false

/-- Some event of the current cycle has not been commanded yet, so the cycle cannot end. -/
def State.cycleDue (s : State) : Bool :=
  (s.fab.tiles.any fun x => s.tileDue x.1 x.2)
    || s.sampleDue.isSome || s.setWork
    || (s.fab.transits.any fun x => x.at_ = s.fab.scc && !x.stage.isOut && (s.follow x.word x.stage).isNone)

/-- The islands have reached an announced stop and HOLD_STOP has not been commanded. -/
def State.stopDue (s : State) : Bool := !s.fab.hold.held && s.fab.hold.stopAt = some s.fab.scc

/-! ## Signals and packets on their way -/

/-- Transfers on channel `c` go to device `dev`. -/
def State.reachesDev (s : State) (dev : BitVec 12) (c : Nat) : Bool :=
  let e := (s.chan c).entry
  if c = localChan then dev = s.stew.program.logical
  else if chanKind e = 4 then (s.members e).any fun m => chanDev (s.chan m).entry = dev
  else chanDev e = dev

/-- A descriptor that tile `t` armed before cycle `after` still has transfers to `dev` in its active copy or its shadow. -/
def State.descFenced (s : State) (t : Nat) (dev : BitVec 12) (after : Scc) (x : DescDyn) : Bool :=
  let mine (f : Option (BitVec 10 × Scc)) : Bool := f.any fun y => y.1.toNat = t && (y.2 - after).msb
  (mine x.farmer && (x.st = 1 || x.st = 2) && !(x.out.isEmpty && x.next.toNat = descCount x.copy)
      && s.reachesDev dev (descChan x.copy))
    || (mine x.shadowFarmer && x.st = 2 && s.reachesDev dev (descChan x.shadow))

/-- The fence of a signal of cycle `after` holds it (R157): a PPUT of an earlier cycle to the same device, or a transfer of a
descriptor that the tile armed in an earlier cycle, is not acknowledged. A held operation counts from its release
(R339). -/
def State.fenced (s : State) (t : Nat) (dev : BitVec 12) (after : Scc) : Bool :=
  let x := s.tile t
  let f := s.field (tileField t)
  (x.petty.reqs.any fun r => r.kind = .pput && !r.spec && (r.issued - after).msb)
    || (x.petty.transfers.any fun p => p.put && p.phase != 0 && (p.cyc - after).msb && s.reachesDev dev p.chan.toNat)
    || (x.petty.farmOut.any fun o => (o.1 - after).msb && (match o.2 with
      | .farm d _ => s.reachesDev dev (descChan (Sparse.get 0 f.desc d.toNat))
      | _ => false))
    || (f.dyn.any fun d => s.descFenced t dev after d.2)

/-- A signal of a tile that its bundle and its fence let go. -/
def State.signalGoes (s : State) (t : Nat) : Scc × Posted → Bool
  | (c, .signal chan _ fence after) => s.posted c && !(fence && s.fenced t (chanDev (s.chan chan.toNat).entry) after)
  | _ => false

/-- A signal leaves on its channel (R324). -/
def State.sendSignal (s : State) : Posted → State
  | .signal chan v _ _ =>
    let e := (s.chan chan.toNat).entry
    if chanKind e != 2 then s
    else match s.physOf (chanDev e) with
      | none => s.unmapped
      | some p =>
        s.startTransfer chan.toNat { tid := 0, tile := none, block := none, coins := 0, addr := 0, left := 1 }
          [(.signal, { Packet.blank with vc := chanVc e, dst := p, till := chanTill e, value := v })]
  | _ => s

/-- The signals of a tile leave in order; one that its fence holds keeps none behind it (R157, R324). -/
def State.sendSignals (s : State) (t : Nat) : State :=
  let out := (s.tile t).petty.sigOut
  (out.filter (s.signalGoes t)).foldl (fun s o => s.sendSignal o.2)
    (s.modTile t fun x => { x with petty := { x.petty with sigOut := out.filter fun o => !s.signalGoes t o } })

/-- The packets of this device to itself arrive (R303, R372). -/
def State.deliverLoop (s : State) : State :=
  let q := s.heath.loopq
  q.foldl (fun s o => s.deliver none o.ty o.packet) { s with heath := { s.heath with loopq := [] } }

/-! ## Conditions of a hold (R77, R80, R82, R85) -/

/-- The waits and the drain of a hold whose conditions are satisfied from now on. -/
def State.watchHold (s : State) : State :=
  let h := s.fab.hold
  if !h.held && h.stopAt.isNone then s
  else
    let clk := s.clk.clk
    let waits := h.waits.map fun w =>
      if w.metAt.isNone && s.waitMet w.tile.toNat w.wait then { w with metAt := some clk } else w
    let met : Bool := h.drain && h.drainMet.isNone && s.drainUnmet.isNone
    let s := { s with fab := { s.fab with hold := { h with
      waits := waits, drainMet := if met then some clk else h.drainMet } } }
    if !met then s
    else (s.fab.drains.filter fun d => d.sampled && !d.checked).foldl (fun s d => s.drainCheck d.cyc) s

/-- A wait or a drain of the hold is unsatisfied. -/
def Hold.unmet (h : Hold) : Bool := (h.waits.any fun w => w.metAt.isNone) || (h.drain && h.drainMet.isNone)

/-! ## Time (R51, R82, R529) -/

/-- Threads of a stack's gleaners. -/
def Stack.threadCount (x : Stack) : Nat := (x.active.map fun p => p.threads.length).sum

/-- The steward's time tallies: HELD under each cause and once under 0xFF, and time at a step slower than SAFE_STEP. -/
def State.countTime (s : State) (ns us : Nat) : State :=
  let held := s.fab.hold.held
  let hs := s.holdStatus
  let s := if !held then s
    else (List.range 8).foldl (fun s n =>
      let x := s.getTally .steward n
      if x.event = 0xA3 && (x.qual = 0xFF || (x.qual.toNat < 9 && hs.getLsbD x.qual.toNat)) then
        s.setTally .steward n (x.add ns) else s) s
  let s := if s.clk.safeStep.toNat < s.clk.step.toNat then s.count .steward 0xA5 0 ns else s
  if us = 0 then s
  else s.heath.memStacks.foldl (fun s k =>
    let u : TallyUnit := .stack (BitVec.ofNat 4 k.1)
    let n := k.2.threadCount
    let s := if n = 0 then s else s.count u 0x54 0 (n * us)
    if k.2.hot then s.count u 0x58 0 us else s) s

/-- Time passes by `u` units of `clk`. -/
def State.passTime (s : State) (u : Nat) : State :=
  let c := s.clk.clk
  let unmet : Bool := s.fab.hold.held && s.fab.hold.unmet
  let s := (s.elapse u).countTime ((c + u) / nsUnits - c / nsUnits) ((c + u) / usUnits - c / usUnits)
  let past := c + u - max c s.fab.hold.stoppedAt
  if unmet then { s with fab := { s.fab with hold := { s.fab.hold with measured := s.fab.hold.measured + past } } } else s

/-- Every island whose clock runs repays one unit of its debt (R43); a trip stops the clocks (R518). -/
def State.repayDebt (s : State) : State :=
  if s.fab.hold.held || s.power.trip then s
  else { s with clk := { s.clk with islands := s.clk.islands.map fun (x : Nat × Island) =>
    (x.1, { x.2 with debt := x.2.debt - 1 }) } }

/-- The asynchronous agents that run without commands of their own. -/
def State.asyncWork (s : State) : State :=
  let s := s.fab.fields.foldl (fun s f => f.2.dyn.foldl (fun s d => s.settleDesc f.1 d.1) s) s
  let s := s.fab.tiles.foldl (fun s t => (s.fillPq t.1 64).sendSignals t.1) s
  s.deliverLoop.drainOut

end Sys2Proof.Machine
end

