-- ==== Sys2Proof/Machine/Blocks.lean ====
section
/-!
DEFINITION. The register blocks (R33) and the words of the registers and tables that the loader, the steward and JTAG
write: their places, their reserved bits (R9), and the storing of a 32-bit word.
-/
namespace Sys2Proof.Machine

/-! ## Blocks (R33) -/

/-- A register block of a unit. -/
inductive RegBlock where
  | tile (t : Nat)
  | field (f : Nat)
  | die (d : Nat)
  | stack (k : Nat)
  | io (i : Nat)
  deriving DecidableEq, Repr

/-- The block of a device address and the offset in it; none in a hole or in the block of an absent unit. -/
def regBlock (grade : BitVec 2) (a : Nat) : Option (RegBlock × Nat) :=
  if 0x1F0000000000 ≤ a && a < 0x1F0003000000 then
    let t := (a - 0x1F0000000000) / 0x10000
    if tileIn grade t then some (.tile t, a % 0x10000) else none
  else if 0x1F0100000000 ≤ a && a < 0x1F0101000000 then
    let f := (a - 0x1F0100000000) / 0x100000
    if fieldIn grade f then some (.field f, a % 0x100000) else none
  else if 0x1F0200000000 ≤ a && a < 0x1F0204000000 then some (.die ((a - 0x1F0200000000) / 0x1000000), a % 0x1000000)
  else if 0x1F0300000000 ≤ a && a < 0x1F030C000000 then
    let k := (a - 0x1F0300000000) / 0x1000000
    if stackIn grade k then some (.stack k, a % 0x1000000) else none
  else if 0x1F0400000000 ≤ a && a < 0x1F0420000000 then
    some (.io ((a - 0x1F0400000000) / 0x10000000), a % 0x10000000)
  else none

/-- Word `i` of a register of `n` bits replaced by `v`. -/
def putWord {n : Nat} (x : BitVec n) (i : Nat) (v : BitVec 32) : BitVec n :=
  (x &&& ~~~(BitVec.ofNat n (0xFFFFFFFF * 2 ^ (32 * i)))) ||| BitVec.ofNat n (v.toNat * 2 ^ (32 * i))

/-- The mask of a list of fields, each with its first bit and its width. -/
def fieldMask (fs : List (Nat × Nat)) : Nat := (fs.map fun f => (2 ^ f.2 - 1) * 2 ^ f.1).sum

/-- Word `i` of a mask. -/
def maskWord (m i : Nat) : BitVec 32 := BitVec.ofNat 32 (m / 2 ^ (32 * i))

/-! ## Layouts: the bits that are not reserved -/

/-- A descriptor (R240). -/
def descBits : Nat := fieldMask [(0, 8), (8, 8), (16, 10), (32, 8), (40, 2), (48, 14), (64, 48), (128, 21), (160, 8),
  (168, 8), (192, 32), (224, 32), (256, 32), (288, 64), (352, 16), (368, 16)]
/-- A channel entry (R304); bit 11 is DYN. -/
def chanBits : Nat := fieldMask [(0, 8), (8, 4), (16, 12), (64, 48), (128, 48), (176, 15), (192, 12), (208, 24), (240, 16),
  (256, 8), (272, 16), (288, 48), (336, 32)]
/-- A ring end (R312). -/
def rendBits : Nat := fieldMask [(0, 48), (64, 24), (96, 48), (144, 15), (160, 15), (176, 12), (192, 14)]
/-- A reduction window (R381). -/
def rwinBits : Nat := fieldMask [(0, 48), (64, 32), (96, 1)]
/-- An intake (R418). -/
def intakeBits : Nat := fieldMask [(0, 14), (16, 16), (32, 1)]
/-- PORT_CFG (R417). -/
def portBits : Nat := fieldMask [(0, 25), (32, 16), (48, 14)]
def portSubBits : Nat := fieldMask [(2, 23), (32, 16), (48, 14)]

/-! ## Entries that the rules refuse -/

/-- A field-spine entry with a value that R18 refuses. -/
def fieldEntryBad (i : Nat) (v : BitVec 16) : Bool :=
  let o := v.toNat % 1024
  v.getLsbD 15 && (640 ≤ o || (576 ≤ i && 576 ≤ o))

/-- A die-spine entry with a value that R18 refuses. -/
def dieEntryBad (grade : BitVec 2) (v : BitVec 16) : Bool :=
  let o := v.toNat % 512
  v.getLsbD 15 && (384 ≤ o || (o < 256 && fieldsOf grade ≤ o / 64))

/-- The bits of a 16-bit place of a field spine's set that are kept. -/
def fsetBits (i : Nat) : BitVec 16 := if i < 640 then 0x83FF else if i < 688 then 0xFFFF else 0
/-- The bits of a 16-bit place of a die spine's set that are kept. -/
def dsetBits (i : Nat) : BitVec 16 := if i < 384 then 0x81FF else 0

/-- The two 16-bit halves of a word at 16-bit place `n`, stored in a table. -/
def putHalves (m : SMap (BitVec 16)) (n : Nat) (bits : Nat → BitVec 16) (v : BitVec 32) : SMap (BitVec 16) :=
  Sparse.set 0 (Sparse.set 0 m n (v.setWidth 16 &&& bits n)) (n + 1) (v.extractLsb' 16 16 &&& bits (n + 1))

/-! ## Words of the blocks -/

/-- A steward's or loader's write of a parameter: into the shadow while the tile runs (R135). -/
def Tile.writeParam (x : Tile) (n : Nat) (v : BitVec 32) : Tile :=
  if x.seq.run then { x with seq := { x.seq with shadow := Sparse.put n v x.seq.shadow } }
  else { x with seq := { x.seq with param := Sparse.set 0 x.seq.param n v, shadow := Sparse.erase n x.seq.shadow } }

/-- A word of the tile block (R136, R161, R180, R216, R242). -/
def Tile.putReg (x : Tile) (off : Nat) (v : BitVec 32) : Tile :=
  let q := x.seq
  if off = 0x8 || off = 0xC then { x with seq := { q with trackEnd := putWord q.trackEnd (off / 4 - 2) v } }
  else if off = 0x30 || off = 0x34 then { x with seq := { q with trackEndW := putWord q.trackEndW (off / 4 - 12) v } }
  else if 0x100 ≤ off && off < 0x200 then x.writeParam ((off - 0x100) / 4) v
  else if 0x200 ≤ off && off < 0x400 then
    let n := (off - 0x200) / 4
    if n % 8 = 7 then x else { x with seq := { q with agLoad := Sparse.set 0 q.agLoad n v } }
  else if 0x800 ≤ off && off < 0x810 then { x with vec := { x.vec with seed := putWord x.vec.seed ((off - 0x800) / 4) v } }
  else if 0x810 ≤ off && off < 0x820 then
    { x with vec := { x.vec with ctrLoad := putWord x.vec.ctrLoad ((off - 0x810) / 4) v } }
  else if 0xA00 ≤ off && off < 0xA20 then { x with seq := { q with farmMap := putWord q.farmMap ((off - 0xA00) / 4) v } }
  else if 0x4000 ≤ off && off < 0x10000 then
    let i := (off - 0x4000) / 32
    { x with seq := { q with imem := Sparse.set 0 q.imem i (putWord (Sparse.get 0 q.imem i) ((off - 0x4000) / 4 % 8) v) } }
  else x

/-- A word of the field block (R19, R254, R346). -/
def Field.putReg (x : Field) (off : Nat) (v : BitVec 32) : Field :=
  if 0x400 ≤ off && off < 0x700 then
    if off % 8 = 0 then { x with escDef := Sparse.set 0 x.escDef ((off - 0x400) / 8) (v.setWidth 8) } else x
  else if 0x1000 ≤ off && off < 0x5000 then
    let n := (off - 0x1000) / 64
    { x with desc := Sparse.set 0 x.desc n (putWord (Sparse.get 0 x.desc n) ((off - 0x1000) / 4 % 16) v) }
  else if 0x10000 ≤ off && off < 0x18000 then
    let k := (off - 0x10000) / 0x800
    let i := off % 0x800 / 2
    { x with fset := putHalves x.fset (1024 * k + i) (fun n => fsetBits (n % 1024)) v }
  else x

/-- A word of the compute-die block (R19, R330, R377). -/
def Die.putReg (x : Die) (off : Nat) (v : BitVec 32) : Die :=
  if 0x100000 ≤ off && off < 0x108000 then
    let n := (off - 0x100000) / 32
    let e : RingEnd := Sparse.get {} x.ringEnds n
    { x with ringEnds := Sparse.set {} x.ringEnds n { e with entry := putWord e.entry ((off - 0x100000) / 4 % 8) v } }
  else if 0x300000 ≤ off && off < 0x300200 then
    let n := (off - 0x300000) / 32
    { x with rwins := Sparse.set 0 x.rwins n (putWord (Sparse.get 0 x.rwins n) ((off - 0x300000) / 4 % 8) v) }
  else if 0x400000 ≤ off && off < 0x404000 then
    let k := (off - 0x400000) / 0x400
    let i := off % 0x400 / 2
    { x with dset := putHalves x.dset (512 * k + i) (fun n => dsetBits (n % 512)) v }
  else x

/-- A word of the stack logic die block (R291). -/
def Stack.putReg (x : Stack) (off : Nat) (v : BitVec 32) : Stack :=
  if 0x10000 ≤ off && off < 0x12000 then
    let n := (off - 0x10000) / 8
    { x with script := Sparse.set 0 x.script n (putWord (Sparse.get 0 x.script n) (off / 4 % 2) v) }
  else x

/-- A word of I/O die 0 that an image may also write (R330, R377, R417). -/
def State.putIo0 (s : State) (off : Nat) (v : BitVec 32) : State :=
  if 0x01000000 ≤ off && off < 0x010FFFC0 then
    let n := (off - 0x01000000) / 64
    s.modChan n fun c => { c with entry := putWord c.entry (off / 4 % 16) v }
  else if 0x03000000 ≤ off && off < 0x03008000 then
    { s with heath := { s.heath with mlist := putHalves s.heath.mlist ((off - 0x03000000) / 2) (fun _ => 0xFFFF) v } }
  else if 0x06000000 ≤ off && off < 0x06010000 then
    let n := (off - 0x06000000) / 64
    { s with heath := { s.heath with
      tree := Sparse.set treeReset s.heath.tree n (putWord (Sparse.get treeReset s.heath.tree n) (off / 4 % 16) v) } }
  else if 0x5100 ≤ off && off < 0x5500 then
    let n := (off - 0x5100) / 16
    { s with house := { s.house with
      intakes := Sparse.set 0 s.house.intakes n (putWord (Sparse.get 0 s.house.intakes n) (off / 4 % 4) v) } }
  else if 0x5500 ≤ off && off < 0x5700 then
    let n := (off - 0x5500) / 8
    { s with house := { s.house with
      outboxes := if off % 8 = 0 then Sparse.set 0 s.house.outboxes n (v.setWidth 13) else s.house.outboxes } }
  else if off = 0x5010 || off = 0x5014 then
    { s with house := { s.house with receiptCfg := putWord s.house.receiptCfg (off / 4 % 2) v } }
  else s

/-- A word of a block stored as it is given. -/
def State.putReg (s : State) (b : RegBlock) (off : Nat) (v : BitVec 32) : State :=
  match b with
  | .tile t => s.modTile t fun x => x.putReg off v
  | .field f => s.modField f fun x => x.putReg off v
  | .die d => s.modDie d fun x => x.putReg off v
  | .stack k => s.modStack k fun x => x.putReg off v
  | .io i => if i = 0 then s.putIo0 off v else s

/-! ## Fallow banks by hand (R234, R235) -/

/-- TILE_BANKS.FALLOW is set: the banks that become fallow lose their contents, those that wake are zero-filled and
ready at once. -/
def State.setFallow (s : State) (t : Nat) (mask : BitVec 16) : State :=
  let old := (s.tile t).pad.fallow
  let s := ((List.range 16).filter fun b => old.getLsbD b != mask.getLsbD b).foldl (fun s b => s.clearBank t b) s
  s.modTile t fun x => { x with pad := { x.pad with
    fallow := mask, waking := x.pad.waking &&& ~~~mask, wakeAt := x.pad.wakeAt.filter fun e => !mask.getLsbD e.1 } }

/-! ## The channel-kind map (R306) -/

/-- The map entry of a channel entry; RCOINS of a multicast channel is the least of its members'. -/
def State.ckOf (s : State) (e : Line) : BitVec 32 :=
  let k := chanKind e
  let r := if k = 3 then chanRcoins e
    else if k = 4 then
      match (s.members e).map fun m => chanRcoins (s.chan m).entry with
      | [] => 0
      | x :: xs => xs.foldl min x
    else 0
  BitVec.ofNat 32 (k % 8 + 256 * r)

/-- Channel `c`, and the multicast channels that have it as a member, in the map of every field of the device. -/
def State.mapChannel (s : State) (c : Nat) : State :=
  let cs := c :: (s.heath.channels.filter fun m => chanKind m.2.entry = 4 && (s.members m.2.entry).contains c).map Prod.fst
  let vs := cs.map fun n => (n, s.ckOf (s.chan n).entry)
  s.presentFields.foldl (fun s f => s.modField f fun x => { x with
    ckmap := vs.foldl (fun m v => Sparse.set 0 m v.1 v.2) x.ckmap }) s

/-- Every map written anew from the channel table. -/
def State.mapChannels (s : State) : State :=
  let m : SMap (BitVec 32) := s.heath.channels.filterMap fun c =>
    let v := s.ckOf c.2.entry
    if v = 0 then none else some (c.1, v)
  s.presentFields.foldl (fun s f => s.modField f fun x => { x with ckmap := m }) s

end Sys2Proof.Machine
end

