-- ==== Sys2Proof/Machine/House.lean ====
section
/-!
DEFINITION. The Ethernet ports and the counting house (R393–R419), patch lists (R162–R164), and the export of the ledger
(R472).
-/
namespace Sys2Proof.Machine

/-! ## Sub-ports (R393–R397) -/

/-- The sub-ports of a mode (R393). -/
def modeSubs (m : Nat) : Nat := if m = 0 then 1 else if m = 1 then 2 else if m = 2 then 4 else 0

/-- The sub-port exists in its port's mode. -/
def State.subIn (s : State) (port : Bool) (sub : BitVec 2) : Bool :=
  sub.toNat < modeSubs (portMode (s.subPort port 0).cfg)

/-- A dropped frame (R395). -/
def State.dropFrame (s : State) (port : Bool) (sub : BitVec 2) : State :=
  s.count .house 0x8C (BitVec.ofNat 8 (portKey port sub)) 1

def recvBuffer : Nat := 2097152

/-- A datagram enters the receive buffer of its sub-port; past three quarters, pause frames leave (R396). -/
def State.bufferFrame (s : State) (port : Bool) (sub : BitVec 2) (n : Nat) : State :=
  let x := s.subPort port sub
  if recvBuffer < x.fill + n then s.dropFrame port sub
  else
    let fill := x.fill + n
    let stop : Bool := x.cfg.getLsbD 15 && !x.pausing && recvBuffer * 3 / 4 < fill
    let s := s.setSub port sub { x with fill := fill, pausing := x.pausing || stop }
    if stop then s.emit (.pause port sub (x.cfg.extractLsb' 16 3) true) else s

/-- One of at most 1,000 answers of the sub-port in a second (R395). -/
def State.answerFrame (s : State) (port : Bool) (sub : BitVec 2) (k : FrameKind) : State :=
  let sec := s.clk.clk / (1000000 * usUnits)
  let x := s.subPort port sub
  let n := if x.answersSecond = sec then x.answers else 0
  if 1000 ≤ n then s.dropFrame port sub
  else (s.setSub port sub { x with answers := n + 1, answersSecond := sec }).sendOut port sub 0 (.answer port sub k)

/-- The MAC address of sub-port k of port p (R394): the base address plus 4p + k. -/
def portMac (port : Bool) (sub : BitVec 2) : BitVec 48 :=
  Config.baseMac + BitVec.ofNat 48 (4 * port.toNat + sub.toNat)

/-- The frame is for the sub-port (R395): unicast to its own address, broadcast for ARP, or a multicast group of IPv6
neighbour discovery or of PTP (the groups' addresses: PRESUMED, log entry 100). -/
def acceptsFrame (x : EthFrame) (port : Bool) (sub : BitVec 2) : Bool :=
  x.dst = portMac port sub || (match x.kind with
    | .arpRequest => x.dst = 0xFFFFFFFFFFFF#48
    | .neighbourSolicitation => x.dst.extractLsb' 24 24 = 0x3333FF#24 || x.dst = 0x333300000001#48
    | .ptp => x.dst = 0x011B19000000#48 || x.dst = 0x0180C200000E#48
    | _ => false)

/-- The frame comes over IPv6, or asks for an IPv6 address. -/
def overV6 (x : EthFrame) : Bool :=
  match x.kind with
  | .arpRequest => false
  | .icmpEcho => false
  | .neighbourSolicitation => true
  | .icmpv6Echo => true
  | _ => x.v6

/-- An IP address of the sub-port (R394): its IPv4 address or one of its two IPv6 addresses, 0 for none. -/
def SubPort.hasIp (x : SubPort) (v6 : Bool) (ip : BitVec 128) : Bool :=
  if v6 then ip != 0 && (ip = x.ipv6.extractLsb' 0 128 || ip = x.ipv6.extractLsb' 128 128)
  else x.ipv4 != 0 && ip = x.ipv4.setWidth 128

/-- The frame's IP address is one of the sub-port's, where its kind has one. -/
def SubPort.addressed (x : SubPort) (f : EthFrame) : Bool :=
  match f.kind with
  | .ptp => true
  | .other => true
  | _ => x.hasIp (overV6 f) f.ip

/-- FRAME_RECEIVE (R394, R395). -/
def execFrameReceive (port : Bool) (sub : BitVec 2) (x : EthFrame) (s : State) : Answer :=
  let c := (s.subPort port sub).cfg
  let vlanOk : Bool := match x.vlan with
    | some v => c.getLsbD 14 && v = c.extractLsb' 2 12
    | none => !c.getLsbD 14
  .next (
    if !s.subIn port sub || !(s.subPort port sub).up then s
    else if !acceptsFrame x port sub || 9216 < x.length.toNat || !vlanOk || x.fragment || !x.checksumOk
        || !(s.subPort port sub).addressed x then s.dropFrame port sub
    else match x.kind with
      | .arpRequest => s.answerFrame port sub x.kind
      | .neighbourSolicitation => s.answerFrame port sub x.kind
      | .icmpEcho => s.answerFrame port sub x.kind
      | .icmpv6Echo => s.answerFrame port sub x.kind
      | .lolithWire =>
        if x.udpPort.toNat = portUdp c then s.bufferFrame port sub x.length.toNat else s.dropFrame port sub
      | .mailbox =>
        if x.udpPort.toNat = portUdp c + 1 then s.bufferFrame port sub x.length.toNat else s.dropFrame port sub
      | .ptp => s
      | .other => s.dropFrame port sub)

/-- A pause quantum of 512 bit times at the rate of a mode's sub-ports (PRESUMED, log entry 112). -/
def pauseQuantum (mode : Nat) : Nat := nsUnits * 128 / 100 * (if mode = 0 then 1 else if mode = 1 then 2 else 4)

/-- What waits for a pause that has ended leaves, in order. -/
def State.releaseTx (s : State) (port : Bool) (sub : BitVec 2) : State :=
  let x := s.subPort port sub
  let goes (e : BitVec 3 × Output) : Bool := !x.obeys e.1 s.clk.clk
  if x.txq.any goes then
    (x.txq.filter goes).foldl (fun s e => s.emit e.2) (s.setSub port sub { x with txq := x.txq.filter fun e => !goes e })
  else s

/-- PAUSE_FRAME (R396): a priority pauses for the quanta given, or resumes at 0. -/
def execPauseFrame (port : Bool) (sub : BitVec 2) (prio : BitVec 3) (quanta : BitVec 16) (s : State) : Answer :=
  let x := s.subPort port sub
  let until_ : Nat := if quanta = 0 then 0
    else s.clk.clk + quanta.toNat * pauseQuantum (portMode (s.subPort port 0).cfg)
  .next (
    if !s.subIn port sub || !x.up || !x.cfg.getLsbD 15 then s
    else (s.setSub port sub { x with paused := Sparse.set 0 x.paused prio.toNat until_ }).releaseTx port sub)

/-- A sub-port that goes down: it has received nothing and sends nothing. -/
def SubPort.down (x : SubPort) : SubPort :=
  { x with up := false, fill := 0, pausing := false, paused := [], txq := [] }

/-- PORT_DOWN (R393, R59): the sub-port goes down, or returns. -/
def execPortDown (port : Bool) (sub : BitVec 2) (back : Bool) (s : State) : Answer :=
  let x := s.subPort port sub
  .next (if !s.subIn port sub || (back && (s.island (90 + port.toNat)).lost) then s
    else s.setSub port sub (if back then { x with up := true } else x.down))

/-- A sub-port has handed on what it received, and its pause is released below one half (R396, R416). -/
def State.drainSub (s : State) (port : Bool) (sub : BitVec 2) : State :=
  let x := s.subPort port sub
  if x.fill = 0 then s
  else
    let s := s.setSub port sub { x with fill := 0, pausing := false }
    if x.pausing then s.emit (.pause port sub (x.cfg.extractLsb' 16 3) false) else s

/-- The steward has read the timestamps of sent PTP messages (R397). -/
def State.readPtp (s : State) : State :=
  if s.house.ptpQueue.isEmpty then s
  else s.house.ptpQueue.foldl (fun s q => q.2.foldl (fun s t => s.emit (.ptpSent (q.1 = 1) t)) s)
    { s with house := { s.house with ptpQueue := [] } }

/-- The sub-ports hand on what they received and send what no pause holds back any more; the steward reads timestamps. -/
def State.drainPorts (s : State) : State :=
  (s.house.ports.foldl (fun s p => (s.drainSub (4 ≤ p.1) (BitVec.ofNat 2 p.1)).releaseTx (4 ≤ p.1) (BitVec.ofNat 2 p.1)) s).readPtp

/-- PTP_EVENT_MESSAGE (R397, R57): a message is timestamped against the port's rebuilt time less the PHY latency of its mode. A
received timestamp goes to the steward with its message; a sent one joins the port's queue of 64, or, of a one-step Pdelay_Resp,
goes into the message. -/
def execPtpEventMessage (port : Bool) (sub : BitVec 2) (kind : PtpKind) (sent : Bool) (oneStep : Bool) (locked : Bool)
    (s : State) : Answer :=
  let c : Consumer := Sparse.get {} s.clk.consumers (90 + port.toNat)
  .next (
    if !s.subIn port sub || !(s.subPort port sub).up then s
    else
      let t := c.value - (Sparse.get 0 s.house.phy (portMode (s.subPort port 0).cfg)).setWidth 64
      let s :=
        if !c.valid then s
        else if sent && oneStep && kind = .pdelayResp then s.emit (.ptpOneStep port sub t)
        else if sent then
          let q := Sparse.get [] s.house.ptpQueue port.toNat
          if 64 ≤ q.length then s
          else { s with house := { s.house with ptpQueue := Sparse.set [] s.house.ptpQueue port.toNat (q ++ [t]) } }
        else s.emit (.ptp port sub kind t)
      { s with clk := { s.clk with ptpLocked := locked, valid := s.clk.valid || locked } })

/-! ## Parameters and patch lists (R135, R162–R164) -/

/-- Writes to parameter shadows. -/
def Tile.shadowParam (x : Tile) (n : Nat) (v : BitVec 32) : Tile :=
  { x with seq := { x.seq with shadow := Sparse.put n v x.seq.shadow } }

/-- Every parameter with a pending shadow takes its value (R100, R135). -/
def Tile.takeShadows (x : Tile) : Tile :=
  { x with seq := { x.seq with
    param := x.seq.shadow.foldl (fun p e => Sparse.set 0 p e.1 e.2) x.seq.param, shadow := [] } }

/-- The entries of a patch list: tile, register and value, with their reserved bits (R162). -/
def patchEntries (bs : List Byte) : Nat → List (Nat × Nat × BitVec 32 × Nat)
  | 0 => []
  | n + 1 =>
    let w := natOf (bs.take 4)
    (w % 1024, w / 1024 % 64, BitVec.ofNat 32 (natOf ((bs.drop 4).take 4)), w / 65536) :: patchEntries (bs.drop 8) n

/-- R163: the list's entries, if the whole list passes its checks. -/
def State.patchCheck (s : State) (bs : List Byte) : Option (List (Nat × Nat × BitVec 32 × Nat)) :=
  let n := natOf (bs.take 4)
  let es := patchEntries (bs.drop 16) n
  let img := match s.stew.program.digest with | some d => some (d.toNat % 2 ^ 32) | none => none
  if 1 ≤ n && n ≤ 49152 && bs.length = 16 + 8 * n && img = some (natOf ((bs.drop 4).take 4))
      && natOf ((bs.drop 8).take 8) = 0
      && es.all fun e => e.2.2.2 = 0 && tileIn s.grade e.1 && s.stew.program.tiles.contains e.1 then some es
  else none

/-- The answer to one part of a patch list. -/
inductive PatchAnswer where
  | ok | otherSource | badPart | badList
  deriving DecidableEq, Repr

/-- SESSION and CLIENT of a record that a command caused (R466): of mailbox `source`, or of session `source` − 16. -/
def State.requester (s : State) (source : Nat) : BitVec 32 × BitVec 16 :=
  let find (p : Session → Bool) : Option Session := s.house.sessions.find? p
  if source < 16 then
    (match find fun x => x.control && x.opened && x.index.toNat = source with | some x => x.number | none => 0,
     BitVec.ofNat 16 (0x8000 + source))
  else
    (BitVec.ofNat 32 (source - 16),
     match find fun x => x.number.toNat = source - 16 with | some x => x.index | none => 0)

/-- A record that a command caused. -/
def State.causedRecord (s : State) (source : Nat) (kind status : BitVec 8) (rqd rpd : BitVec 192) : RecordDraft :=
  let r := s.requester source
  { kind := kind, status := status, session := r.1, client := r.2, rqd := rqd, rpd := rpd }

/-- An accepted list goes into the parameter shadows, in list order; it is measured and recorded (R163, R459, R467). -/
def State.applyPatch (s : State) (source : Nat) (bs : List Byte) (es : List (Nat × Nat × BitVec 32 × Nat)) : State :=
  let s := es.foldl (fun s e => s.modTile e.1 fun x => x.shadowParam e.2.1 e.2.2.1) s
  (s.measure 7 (Config.digest bs)).append (s.causedRecord source 3 0 (digest24 bs) 0)

def State.setAssembly (s : State) (a : Option Assembly) : State := { s with stew := { s.stew with assembly := a } }

/-- R164: one part of a patch list from a source. Reserved header bytes that are not 0 refuse the part alone (R426). -/
def State.patchPart (s : State) (source : Nat) (x : PatchPart) : State × PatchAnswer :=
  let finish (s : State) (bs : List Byte) : State × PatchAnswer :=
    let s := s.setAssembly none
    match s.patchCheck bs with
    | some es => (s.applyPatch source bs es, .ok)
    | none => (s, .badList)
  let fieldsOk : Bool := 1 ≤ x.parts.toNat && x.parts.toNat ≤ 1024 && x.part.toNat < x.parts.toNat
    && !x.bytes.isEmpty
  let store (s : State) (bs : List Byte) : State × PatchAnswer :=
    if x.part.toNat + 1 = x.parts.toNat then finish s bs
    else (s.setAssembly (some { source := source, parts := x.parts, next := x.part + 1, bytes := bs, since := s.clk.clk }),
      .ok)
  match s.stew.assembly with
  | some a =>
    if a.source != source then (s, .otherSource)
    else if x.rsv != 0 then (s, .badList)
    else if !fieldsOk then (s.setAssembly none, .badPart)
    else if x.part = 0 then store s x.bytes
    else if x.part = a.next && x.parts = a.parts then store s (a.bytes ++ x.bytes)
    else (s.setAssembly none, .badPart)
  | none => if x.rsv != 0 then (s, .badList) else if fieldsOk && x.part = 0 then store s x.bytes else (s, .badPart)

/-- PATCH_ASSEMBLY_TIMEOUT (R164): no part for 1 s. -/
def execPatchAssemblyTimeout (s : State) : Answer :=
  .next (match s.stew.assembly with
    | some a => if s.passed a.since (1000000 * usUnits) then s.setAssembly none else s
    | none => s)

/-! ## Handshakes and sessions (R398–R401, R423, R424, R456, R463) -/

def State.client (s : State) (i : Nat) : Option Client :=
  match s.vault.enrolment with
  | some e => (Sparse.find? i e.clients).filter fun c => c.rights != 0
  | none => none

/-- The role of a mailbox: 1 owner, 2 operator, 3 auditor, 4 service; 0 when it is unbound. -/
def State.role (s : State) (mb : Nat) : Nat :=
  if mb = 0 then 1
  else match s.vault.enrolment with
    | some e => match Sparse.find? mb e.bindings with | some b => b.2.toNat | none => 0
    | none => 0

/-- The key digest that a FINISH must carry; none where any key is accepted (R423, R456). -/
def State.boundKey (s : State) (mb : Nat) : Option (BitVec 256) :=
  match s.vault.enrolment with
  | some e => if mb = 0 then some (keyDigest e.owner) else (Sparse.find? mb e.bindings).map Prod.fst
  | none => none

def State.handshakes (s : State) : Nat := (s.house.sessions.filter fun x => !x.opened).length
def State.dataSessions (s : State) : Nat := (s.house.sessions.filter fun x => !x.control).length

/-- The device is being zeroised, and takes no new client (R415). -/
def State.zeroising (s : State) : Bool :=
  match s.stew.longOp with
  | some op => (match op.work with | .zeroise => true | .retire _ => true | _ => false)
  | none => false

/-- A handshake message leaves in fragments of at most 1,232 B, with PORT_CFG.DSCP (R396, R398, R400). -/
def State.sendHandshake (s : State) (type : BitVec 8) (x : InitMsg) (session : BitVec 32) (body : List Byte) : State :=
  let dscp := portDscp (s.subPort x.port x.sub).cfg
  let ps := pieces 1232 8 body
  ps.zipIdx.foldl (fun s p => s.sendOut x.port x.sub dscp
    (.handshake x.port x.sub type (BitVec.ofNat 8 p.2) (BitVec.ofNat 8 ps.length) session x.exchange dscp p.1)) s

/-- A REJECT, counted among the handshakes refused (R400, R526). -/
def State.sendReject (s : State) (port : Bool) (sub : BitVec 2) (session : BitVec 32) (exchange : BitVec 64)
    (status : BitVec 8) : State :=
  let dscp := portDscp (s.subPort port sub).cfg
  (s.sendOut port sub dscp (.reject port sub session exchange dscp status)).count .house 0x8E 0 1

/-- The ACCEPT body up to its signature (R463): SESSION, then the ciphertext. -/
def acceptBody (n : BitVec 32) (draw : Nat) (x : InitMsg) : List Byte :=
  bytesOf n.toNat 4 ++ bytesOf (Config.encapsulate draw x.ek).toNat 1088

/-- TH (R463), over the bodies of INIT and of ACCEPT up to its signature. -/
def transcript (n : BitVec 32) (draw : Nat) (x : InitMsg) : BitVec 256 :=
  Config.digest (bytesOf x.index.toNat 2 ++ bytesOf x.ek.toNat 1184 ++ acceptBody n draw x)

/-- The device's signature over TH. -/
def Vault.wireSignature (v : Vault) (th : BitVec 256) : List Byte := v.sign "SG4-WIRE-D" (bytesOf th.toNat 32)

/-- The fragments of a handshake message join to a body of `n` bytes: 1 to 8 of them, of at most 1,232 B, with one exchange ID,
and each index of the count once (R398, R400). -/
def joins (fs : List Fragment) (exchange : BitVec 64) (n : Nat) : Bool :=
  1 ≤ fs.length && fs.length ≤ 8
    && (fs.all fun f => f.count.toNat = fs.length && f.exchange = exchange && f.length.toNat ≤ 1232)
    && ((List.range fs.length).all fun i => fs.any fun f => f.index.toNat = i)
    && (fs.map fun f => f.length.toNat).sum = n

/-- The sub-port of a datagram exists in its port's mode, and its link is up (R393, R395). -/
def State.hears (s : State) (port : Bool) (sub : BitVec 2) : Bool := s.subIn port sub && (s.subPort port sub).up

/-- The number of the next session: numbers rise by 1, 0 and the numbers of live sessions passed over (R398, R401; log
entry 132). -/
def State.freeSession (s : State) : Nat → BitVec 32 → BitVec 32
  | 0, n => n
  | fuel + 1, n =>
    if n = 0 || s.house.sessions.any fun x => x.number = n then s.freeSession fuel (n + 1) else n

/-- INIT (R400, R423, R463). -/
def execInit (x : InitMsg) (s : State) : Answer :=
  let known : Bool := if x.control then x.index.toNat < 16 && s.role x.index.toNat != 0
    else x.index.toNat < 8192 && (s.client x.index.toNat).isSome
  .next (
    if !s.hears x.port x.sub || x.version != 1 || x.type != 1 || x.session != 0 || !joins x.fragments x.exchange 1186
        || !s.stew.booted || (s.island 95).lost
        || (!x.control && ((s.island 92).lost || s.zeroising)) || !known then s
    else if 256 ≤ s.handshakes || (!x.control && 4096 ≤ s.dataSessions) then s.sendReject x.port x.sub 0 x.exchange 1
    else
      let n := s.freeSession (s.house.sessions.length + 2) s.house.nextSession
      let draw := s.fresh
      let th := transcript n draw x
      let y : Session := { number := n, control := x.control, index := x.index, opened := false, since := s.clk.clk,
                           port := x.port, sub := x.sub, v6 := x.v6, exchange := x.exchange
                           secret := Config.sharedSecret draw x.ek, th := th }
      let s := { s.draw with house := { s.house with
        sessions := s.house.sessions ++ [y], nextSession := n + 1 } }
      s.sendHandshake 2 x n (acceptBody n draw x ++ s.vault.wireSignature th))

/-- TH2 of a handshake whose FINISH carries a key (R463). -/
def Session.th2 (x : Session) (v : Vault) (key : BitVec 15616) : BitVec 256 :=
  Config.digest (bytesOf x.th.toNat 32 ++ v.wireSignature x.th ++ bytesOf key.toNat 1952)

/-- The keys and salts of a session once its FINISH has come (R463): client to device, device to client. -/
def Session.keysFor (x : Session) (v : Vault) (key : BitVec 15616) : BitVec 576 :=
  Config.wireKeys (ascii "SG4-WIRE" ++ bytesOf x.secret.toNat 32 ++ bytesOf (x.th2 v key).toNat 32)

/-- The signature of a FINISH verifies under the key that it carries, with its context, over TH2 (R463). -/
def Session.proves (x : Session) (v : Vault) (key : BitVec 15616) (g : Signature) : Bool :=
  verifies g key "SG4-WIRE-C" (bytesOf (x.th2 v key).toNat 32)

/-- A handshake that is not complete 1 s after its INIT is freed (R400). -/
def State.freeSlow (s : State) (session : BitVec 32) : State :=
  (s.closeSessions fun y => y.number = session).count .house 0x8E 0 1

/-- FINISH (R400, R424, R456). -/
def execFinish (session : BitVec 32) (control : Bool) (f : FinishMsg) (signature : Signature) (s : State) : Answer :=
  .next (match s.session session control with
    | none => s
    | some x =>
      if x.opened || !s.hears f.port f.sub || f.version != 1 || f.type != 3 || f.exchange != x.exchange
          || !joins f.fragments x.exchange 5261 then s
      else if s.passed x.since (1000000 * usUnits) then s.freeSlow session
      else
        let want : Option (BitVec 256) := if control then s.boundKey x.index.toNat
          else (s.client x.index.toNat).map fun c => c.key
        let keyOk : Bool := match want with
          | some k => k = keyDigest f.key
          | none => control && !s.owned && x.index = 0
        if !keyOk || !x.proves s.vault f.key signature then
          (s.closeSessions fun y => y.number = session).sendReject f.port f.sub session x.exchange 4
        else
          let s := if control then s.closeSessions fun y => y.control && y.opened && y.index = x.index else s
          (s.modSession session fun y => { y with
            opened := true, since := s.clk.clk, key := f.key, keys := y.keysFor s.vault f.key, secret := 0 }).count .house 0x8D 0 1)

/-- HANDSHAKE_TIMEOUT (R400): 1 s since the INIT. -/
def execHandshakeTimeout (session : BitVec 32) (control : Bool) (s : State) : Answer :=
  .next (match s.session session control with
    | some x =>
      if !x.opened && s.passed x.since (1000000 * usUnits) then s.freeSlow session else s
    | none => s)

/-- SESSION_TIMEOUT (R401): 30 s without an accepted datagram. -/
def execSessionTimeout (session : BitVec 32) (control : Bool) (s : State) : Answer :=
  .next (match s.session session control with
    | some x =>
      if x.opened && s.passed x.since (30000000 * usUnits) then s.closeSessions fun y => y.number = session else s
    | none => s)

/-- The tag holds and the PN is new, within the window of 1,024 below the highest accepted (R399). -/
def Session.admits (x : Session) (d : Datagram) : Bool :=
  d.tag = x.tagIn d.pn && x.rxNext ≤ d.pn.toNat + 1024 && !x.seen.contains d.pn.toNat

/-- The session once it has accepted a datagram at time `clk`. -/
def Session.take (x : Session) (d : Datagram) (clk : Nat) : Session :=
  let top := max x.rxNext (d.pn.toNat + 1)
  { x with rxNext := top, seen := (d.pn.toNat :: x.seen).filter fun q => top ≤ q + 1024, since := clk
           port := d.port, sub := d.sub, v6 := d.v6, dscp := d.dscp }

/-- A SEALED datagram on session `x` (R395, R398, R399): the session with the PN recorded, or none when it is dropped. One whose
FRAG is not 0 is dropped (DESIGN CHOICE, log entry 111). -/
def State.hear (s : State) (x : Session) (d : Datagram) : State × Option Session :=
  if !s.hears d.port d.sub || d.ver != 1 || d.type != 4 || d.frag != 0 then (s, none)
  else if !x.admits d then (s.count .house 0x8B 0 1, none)
  else (s.modSession x.number fun _ => x.take d s.clk.clk, some (x.take d s.clk.clk))

/-- A SEALED datagram of a data session. -/
def State.openSealed (s : State) (h : Sealed) : State × Option Session :=
  match s.house.sessions.find? fun x => x.number = h.d.session && x.opened && !x.control with
  | none => (s, none)
  | some x => s.hear x h.d

/-- A message of a data session whose MTYPE is unlisted or whose reserved header bytes are not 0 is answered DENIED (R402, R403).
An MTYPE that R402 lists, in place of the row's, makes it another row's message: nothing happens. -/
def State.onMessage (s : State) (h : Sealed) (reqid : BitVec 64) (g : State → Session → State) : State :=
  if h.stray.any fun m => 1 ≤ m.toNat && m.toNat ≤ 8 then s
  else
    match s.openSealed h with
    | (s, some y) => if h.stray.isSome || h.rsv != 0 then s.sendStatus y.number y.dscp reqid 4 else g s y
    | (s, none) => s

/-- KEEPALIVE (R401). -/
def execKeepalive (h : Sealed) (s : State) : Answer := .next (s.onMessage h 0 fun s _ => s)

/-- CLOSE (R401). -/
def execClose (h : Sealed) (s : State) : Answer :=
  .next (s.onMessage h 0 fun s y => s.closeSessions fun z => z.number = y.number)

/-! ## The receipt book (R405, R411–R413) -/

def State.receiptAt (s : State) (slot : Nat) : Option Receipt := Sparse.get none s.house.receipts slot
def State.setReceipt (s : State) (slot : Nat) (r : Option Receipt) : State :=
  { s with house := { s.house with receipts := Sparse.set none s.house.receipts slot r } }

def State.findReceipt (s : State) (client : BitVec 13) (reqid : BitVec 64) : Option Receipt :=
  s.house.receipts.findSome? fun e => e.2.filter fun r => r.client = client && r.reqid = reqid

/-- FLOOR of a client rises to REQID `v` where it is lower (R412). -/
def State.raiseFloor (s : State) (c : Nat) (v : BitVec 64) : State :=
  match s.floor c with
  | (s, f) => if s.house.receiptCfg != 0 && f.toNat < v.toNat then s.writeDram (floorAt s.house.receiptCfg c) (bytesOf v.toNat 8)
    else s

/-- The entry of a slot leaves the book, and FLOOR of its client rises (R412). -/
def State.evict (s : State) (slot : Nat) : State :=
  match s.receiptAt slot with
  | none => s
  | some r => (s.setReceipt slot none).raiseFloor r.client.toNat r.reqid

/-- The counting house accepts requests (R414, R415, R419). -/
def State.serving (s : State) : Bool := s.stew.program.armed && !s.stew.program.aborted && !s.house.stopped

def intakeChan (e : BitVec 128) : Nat := (e.extractLsb' 0 14).toNat
def intakeMax (e : BitVec 128) : Nat := (e.extractLsb' 16 16).toNat
def intakeOn (e : BitVec 128) : Bool := e.getLsbD 32

/-- The 32 B message header of a request, with LSEQ and LTIME zero (R402, R467). -/
def requestHeader (x : RequestMsg) : List Byte :=
  [1, 0, x.intake, x.seg] ++ bytesOf x.data.length 4 ++ bytesOf x.reqid.toNat 8 ++ bytesOf 0 16

def requestDigest (client : BitVec 13) (x : RequestMsg) : BitVec 192 :=
  digest24 (bytesOf client.toNat 2 ++ requestHeader x ++ x.data)

/-- R314 can place a message of `n` coins with its skip marker from HELD now. -/
def Channel.placeable (ch : Channel) (n : Nat) : Bool :=
  let tail := chanRcoins ch.entry - ch.head.toNat
  if n ≤ tail then n ≤ ch.held.toNat else tail + n ≤ ch.held.toNat

/-- An accepted request takes its ticket, and its message goes onto the intake's ring (R405, R406). -/
def State.acceptRequest (s : State) (c : Nat) (client : BitVec 13) (y : Session) (x : RequestMsg) : State :=
  let t := s.house.nextTicket
  let slot := t.toNat % receiptSlots
  let r : Receipt := { ticket := t, dscp := y.dscp, client := client, reqid := x.reqid, digest := requestDigest client x,
                       pending := true, status := 0, len := 0, lseq := 0, ltime := 0, session := y.number }
  let s := (s.evict slot).setReceipt slot (some r)
  let s := { s with house := { s.house with nextTicket := t + 1 } }
  let m : Message := { tile := none, ticket := t, gen := none
                       data := bytesOf t.toNat 8 ++ bytesOf client.toNat 2 ++ bytesOf 0 2 ++ bytesOf x.data.length 4
                         ++ bytesOf s.houseTime.toNat 8 ++ bytesOf x.reqid.toNat 8 ++ x.data }
  (s.placeMessage c m).count .house 0x80 0 1

/-- R405 for a request of an open data session. -/
def State.handleRequest (s : State) (y : Session) (x : RequestMsg) : State :=
  let client : BitVec 13 := y.index.setWidth 13
  let e := Sparse.get 0 s.house.intakes x.intake.toNat
  let granted : Bool := match s.client y.index.toNat with
    | some c => c.rights.getLsbD 0 && x.intake.toNat < 64 && c.mask.getLsbD x.intake.toNat
    | none => false
  let status (st : BitVec 8) := s.sendStatus y.number y.dscp x.reqid st
  if !granted || !intakeOn e || x.seg != 0 || x.status != 0 then status 4
  else if !s.serving then status 2
  else if intakeMax e < x.data.length then status 3
  else
    match s.findReceipt client x.reqid with
    | some r =>
      let slot := r.ticket.toNat % receiptSlots
      if r.digest != requestDigest client x then status 6
      else if r.pending then
        (s.setReceipt slot (some { r with session := y.number, dscp := y.dscp })).count .house 0x87 0 1
      else
        match s.storedReply r with
        | (s, data) => (s.sendReply 3 { r with session := y.number, dscp := y.dscp } data).count .house 0x88 0
            (if s.sessionSends y.number then 1 else 0)
    | none =>
      let (s, floor) := s.floor y.index.toNat
      let status (st : BitVec 8) := s.sendStatus y.number y.dscp x.reqid st
      if x.reqid.toNat ≤ floor.toNat then status 5
      else if (s.receiptAt (s.house.nextTicket.toNat % receiptSlots)).any fun r => r.pending then status 1
      else if !(s.chan (intakeChan e)).placeable (coinsOf (32 + x.data.length)) then status 1
      else s.acceptRequest (intakeChan e) client y x

/-- REQUEST (R405). -/
def execRequest (h : Sealed) (x : RequestMsg) (s : State) : Answer :=
  .next (s.onMessage h x.reqid fun s y => s.handleRequest y x)

/-! ## Outboxes (R407–R410, R414) -/

/-- The header of an outbox message: ticket, PSTAT, LEN, and whether its reserved bytes are 0. -/
def outboxTicket (bs : List Byte) : BitVec 64 := BitVec.ofNat 64 (natOf (bs.take 8))
def outboxStat (bs : List Byte) : BitVec 8 := BitVec.ofNat 8 (natOf ((bs.drop 8).take 1))
def outboxLen (bs : List Byte) : Nat := natOf ((bs.drop 12).take 4)
def outboxRsvOk (bs : List Byte) : Bool := natOf ((bs.drop 9).take 3) = 0 && natOf ((bs.drop 16).take 16) = 0

/-- What the counting house has of a read: it waits for lines of a slice, or has the bytes, or cannot read them. -/
inductive HouseRead where
  | waits
  | gave (bytes : Option (List Byte))
  deriving DecidableEq, Repr

/-- The counting house reads `n` bytes at a device address for an outbox message. Lines of a slice come through the ports of
their banks (R229): the first call asks for them, and a later one finds them. -/
def State.houseRead (s : State) (a : Arrived) (addr n : Nat) : State × HouseRead :=
  match place s.grade true addr with
  | .pad t o =>
    let ls := linesAt o n
    if padTop < o + n || ((s.issueEnv t).escrow && escrowBase < o + n) then (s, .gave none)
    else if !a.asked then
      (ls.foldl (fun s l => s.enqueueAccess t 3 l none none false (.outbox a.die a.index a.pos))
        (s.modArrival a.die a.index a.pos fun q => { q with asked := true, waits := ls.length }), .waits)
    else if a.waits != 0 then (s, .waits)
    else if a.bad then (s, .gave none)
    else
      (s, .gave (some (((ls.flatMap fun l => bytesOf (Sparse.get 0 a.lines l).toNat 64).drop (o % 64)).take n)))
  | _ => let (s, bs) := s.asyncRead addr n
         (s, .gave bs)

/-- The ticket is answered (R408): the record is appended, the reply stored, the slot done, the REPLY sent. -/
def State.answerTicket (s : State) (r : Receipt) (st : BitVec 8) (data : List Byte) : State :=
  let rpd := digest24 (bytesOf r.ticket.toNat 8 ++ [st] ++ bytesOf data.length 4 ++ data)
  let r' := { r with pending := false, status := st, len := data.length, lseq := s.vault.seq, ltime := s.stamp }
  let s := s.appendWith { kind := 1, status := st, session := r.session, client := r.client.setWidth 16, rqd := r.digest,
                          rpd := rpd } s.imd
  let s := (s.storeReply r' data).setReceipt (r.ticket.toNat % receiptSlots) (some r')
  let n := if s.sessionSends r.session then 1 else 0
  ((s.sendReply 2 r' data).count .house 0x89 0 n).count .house 0x8A 0 (if st = 7 then n else 0)

def State.outboxError (s : State) (cause : BitVec 4) : State :=
  { s with house := { s.house with err := true, errCause := cause } }

/-- One arrived outbox message, with its bytes where they can be read, is handled and its coins are returned (R407, R408,
R410). -/
def State.handleArrived (s : State) (a : Arrived) (m : Option (List Byte)) : State :=
  let s := { s with house := { s.house with arrivals := s.house.arrivals.filter fun b =>
    !(b.die = a.die && b.index = a.index && b.pos = a.pos) } }
  let s := s.returnCoins a.die.toNat a.index.toNat a.coins.toNat false
  match m with
  | none => s.outboxError 4
  | some bs =>
    let t := outboxTicket bs
    let len := outboxLen bs
    let st := outboxStat bs
    match (s.receiptAt (t.toNat % receiptSlots)).filter fun r => r.ticket = t && r.pending with
    | none => s.outboxError 1
    | some r =>
      if s.replyMax < len then s.outboxError 2
      else if st != 0 && st.toNat < 0x80 then s.outboxError 3
      else if !outboxRsvOk bs then s.outboxError 4
      else s.answerTicket r st ((bs.drop 32).take len)

/-- A message whose frame word has been read is read and handled. -/
def State.outboxData (s : State) (a : Arrived) (frame : BitVec 32) : State :=
  let e := (s.ringEnd a.die.toNat a.index.toNat).entry
  match s.houseRead a (rendBase e + 64 * a.pos.toNat) (max 1 (frame.toNat % 2 ^ 31)) with
  | (s, .waits) => s
  | (s, .gave m) => s.handleArrived a m

/-- The counting house goes on with an arrived message: its frame word, then its bytes. -/
def State.outboxTurn (s : State) (a : Arrived) : State :=
  match a.frame with
  | some w => s.outboxData a w
  | none =>
    let e := (s.ringEnd a.die.toNat a.index.toNat).entry
    match s.houseRead a (rendFbase e + 4 * a.pos.toNat) 4 with
    | (s, .waits) => s
    | (s, .gave none) => s.handleArrived a none
    | (s, .gave (some fw)) =>
      let w := BitVec.ofNat 32 (natOf fw)
      let read (q : Arrived) : Arrived := { q with frame := some w, asked := false, lines := [], waits := 0 }
      (s.modArrival a.die a.index a.pos read).outboxData (read a) w

/-- OUTBOX_MESSAGE: the oldest message at the ring end of outbox `n`; it waits while appends wait (R471), and for its lines
where they lie in a slice (R229). -/
def execOutboxMessage (n : BitVec 6) (s : State) : Answer :=
  let b := Sparse.get 0 s.house.outboxes n.toNat
  .next (
    if !b.getLsbD 12 || s.appendsWait || (s.island 92).lost then s
    else
      match s.house.arrivals.find? fun a => a.index = b.extractLsb' 0 10 && a.die = b.extractLsb' 10 2 with
      | some a => s.outboxTurn a
      | none => s)

/-- Receipts in ticket order. -/
def insertReceipt (r : Receipt) : List Receipt → List Receipt
  | [] => [r]
  | q :: qs => if r.ticket.toNat ≤ q.ticket.toNat then r :: q :: qs else q :: insertReceipt r qs

def State.pendingReceipts (s : State) : List Receipt :=
  (s.house.receipts.filterMap fun e => e.2.filter fun r => r.pending).foldr insertReceipt []

/-- Every message that has arrived is handled, and no ticket is pending (R414). -/
def State.ticketsEnded (s : State) : Bool := s.house.arrivals.isEmpty && s.pendingReceipts.isEmpty

/-- R414: the counting house stops accepting, handles every message that has arrived, and then completes the tickets still
pending with ABORTED, in ticket order, as far as appends may proceed and the slices have given their lines. -/
def State.endTickets (s : State) : State :=
  let s := { s with house := { s.house with stopped := true } }
  let s := s.house.arrivals.foldl (fun s a => if s.appendsWait then s else s.outboxTurn a) s
  if !s.house.arrivals.isEmpty then s
  else
    s.pendingReceipts.foldl (fun s r =>
      if s.appendsWait then s else s.answerTicket r 7 []) s

/-- PROGRAM_END_TICKETS (R414). After the loss of the reference in the counting house or the vault, pending tickets wait for the
warm reset (R59, R514). -/
def execProgramEndTickets (s : State) : Answer :=
  .next (if (s.island 92).lost || (s.island 95).lost then s
    else if s.stew.program.aborted || s.fab.hold.halt || s.house.stopped then s.endTickets else s)

/-! ## LEDGER and PATCH messages (R402, R472) -/

/-- The seals whose last record is `n` go to a subscriber. -/
def State.exportSealsOf (s : State) (u : BitVec 32) (n : Nat) : State :=
  s.vault.sealRing.foldl (fun s x => if natOf ((x.2.drop 16).take 8) = n then s.exportSeal u x.2 else s) s

/-- The records that one message carries: as many as fit, at most 63 (R472). -/
def State.recordsPerItem (s : State) (u : BitVec 32) : Nat := max 1 (min 63 ((s.sessionRoom u - 8) / 128))

/-- A run of records from `n` on to a subscriber, as many in a message as it holds, each seal after its last record; `bs` holds
the `m` records that wait to be sent. -/
def State.exportRun (s : State) (u : BitVec 32) (n : Nat) (m : Nat) (bs : List Byte) : Nat → State
  | 0 => if m = 0 then s else s.exportItem u 1 0 0 m bs
  | k + 1 =>
    match s.recordOf n with
    | none => s.exportRun u (n + 1) m bs k
    | some r =>
      let bs := bs ++ bytesOf r.toNat 128
      if s.recordsPerItem u ≤ m + 1 || s.vault.sealRing.any fun x => natOf ((x.2.drop 16).take 8) = n then
        ((s.exportItem u 1 0 0 (m + 1) bs).exportSealsOf u n).exportRun u (n + 1) 0 [] k
      else s.exportRun u (n + 1) (m + 1) bs k

/-- Export starts at record `from_` of the current epoch; records that the ring has lost become a GAP. -/
def State.startExport (s : State) (u : BitVec 32) (from_ : BitVec 64) : State :=
  let seq := s.vault.seq
  let next := if from_ = BitVec.allOnes 64 then seq else from_
  let s := { s with house := { s.house with
    subscribers := (s.house.subscribers.filter fun x => x.session != u) ++
      [{ session := u, next := if next.toNat < seq.toNat then seq else next }] } }
  if seq.toNat ≤ next.toNat then s
  else
    let first := max next.toNat (seq.toNat - recordRing)
    let s := if next.toNat < first then s.exportItem u 3 0 0 0 (bytesOf next.toNat 8 ++ bytesOf first 8) else s
    s.exportRun u first 0 [] (seq.toNat - first)

/-- LEDGER. -/
def execLedger (h : Sealed) (start : Option (BitVec 64)) (s : State) : Answer :=
  .next (s.onMessage h 0 fun s y =>
    if !((s.client y.index.toNat).any fun c => c.rights.getLsbD 1) then s.sendStatus y.number y.dscp 0 4
    else
      match start with
      | some f => s.startExport y.number f
      | none => { s with house := { s.house with
          subscribers := s.house.subscribers.filter fun x => x.session != y.number } })

/-- PATCH_MESSAGE (R164, R402, R403, R415). -/
def execPatchMessage (h : Sealed) (x : PatchPart) (s : State) : Answer :=
  .next (s.onMessage h 0 fun s y =>
    if !((s.client y.index.toNat).any fun c => c.rights.getLsbD 2) then s.sendStatus y.number y.dscp 0 4
    else if s.stew.longOp.isSome then s.sendStatus y.number y.dscp 0 8
    else
      match s.patchPart (16 + y.number.toNat) x with
      | (s, .ok) => s.sendStatus y.number y.dscp 0 0
      | (s, .otherSource) => s.sendStatus y.number y.dscp 0 1
      | (s, _) => s.sendStatus y.number y.dscp 0 4)

end Sys2Proof.Machine
end

