-- ==== Sys2Proof/Machine/Resets.lean ====
section
/-!
DEFINITION. Resets and the bring-up (R434, R453, R459, R469, R505–R515, R536): program reset, warm reset, power on and off.
-/
namespace Sys2Proof.Machine

/-! ## Program reset (R512) -/

/-- A program reset keeps the instruction memory, TILE_BANKS.FALLOW and the tallies of a tile. -/
def Tile.programReset (x : Tile) : Tile :=
  { seq := { imem := x.seq.imem }, pad := { fallow := x.pad.fallow }, tally0 := x.tally0, tally1 := x.tally1 }

/-- The load copies, escrow definitions and spine sets of a field stay (R253, R512). -/
def Field.programReset (x : Field) : Field :=
  { x with dyn := [], spineCur := 0, err := false, errDesc := 0, fetchErr := 0, ckmap := [] }

/-- The posts of a stack are cancelled (R288): what has been issued completes. -/
def Stack.cancelPosts (x : Stack) : Stack :=
  { x with
    intake := []
    active := (x.active.filter fun p => p.threads.any fun t => !t.2.accesses.isEmpty).map fun p =>
      { p with cancelled := true, words := [], results := [] } }

/-- The hold network after a reset of the fabric: HOLD_LIMIT stays, and a step change that waits and a thermal hold go on
in a hold in effect (R50, R517). -/
def Hold.programReset (h : Hold) (clk : Nat) (thermal : Bool) : Hold :=
  if h.step || thermal then
    { limit := h.limit, held := true, stopAt := some 0, stoppedAt := if h.held then h.stoppedAt else clk
      step := h.step, stepAt := if h.held then h.stepAt else clk, thermal := thermal }
  else { limit := h.limit }

/-- An island after a program reset that ends the hold: where the clocks had stopped they restart, with no debt (R45), and a
slip that was asked is asked no more. -/
def Island.programReset (x : Island) (held : Bool) : Island :=
  { x with debt := if held then 0 else x.debt, slipAsked := false }

/-- A device that runs no program is idle or loaded, or still tripped (R443, R518). -/
def State.restState (s : State) : BitVec 4 :=
  if s.power.trip then 5 else if s.stew.program.digest.isSome then 2 else 1

/-- A packet stays queued at a program reset: it belongs to another device or to no program. -/
def State.keepsPacket (s : State) (o : OutPacket) : Bool :=
  o.packet.src != s.heath.id || o.ty = .heartbeat || o.ty = .control

/-- Scratchpad cells leave the memory; DRAM stays. -/
def State.clearPads (s : State) : State :=
  { s with mem := s.mem.filter fun c => c.1 < 0x100000000000, ecc := s.ecc.filter fun c => c.1 * 16 < 0x100000000000 }

/-- The fetch blocks and the petty replies in flight of field `f`, which a program reset burns (R253, R526). -/
def State.inFlight (s : State) (f : Nat) : Nat :=
  ((s.field f).dyn.map fun d => (d.2.out.filter fun b => !b.done).length + d.2.burned.length).sum
    + (s.fab.tiles.map fun x => if tileField x.1 = f then (x.2.petty.transfers.filter fun p => !p.put).length else 0).sum

/-- They are counted at the reset (log entry 46). -/
def State.burnInFlight (s : State) : State :=
  (List.range 16).foldl (fun s f =>
    let n := s.inFlight f
    if n = 0 then s else s.count (.fetch (BitVec.ofNat 4 f)) 0x44 0 n) s

/-- A program reset (R512–R514). -/
def State.programReset (s : State) : State :=
  let s := s.burnInFlight
  let p := s.stew.program
  let f := s.fab
  let hold := f.hold.programReset s.clk.clk (!s.power.holders.isEmpty)
  let s := s.clearPads
  let s := { s with
    fab := { f with
      tiles := Sparse.mapD {} Tile.programReset f.tiles, saves := [], trials := []
      fields := Sparse.mapD {} Field.programReset f.fields
      dies := Sparse.mapD {} (fun (d : Die) => { d with ringEnds := [] }) f.dies
      transits := [], scc := 0, hold := hold, haltRec := {}
      drains := [], tills := [], tillQueue := [] }
    clk := { s.clk with
      step := if hold.held then s.clk.step else s.clk.relocked.getD s.clk.step
      relocked := if hold.held then s.clk.relocked else none
      islands := if hold.held then s.clk.islands
      else s.clk.islands.map fun (x : Nat × Island) => (x.1, x.2.programReset f.hold.held) }
    heath := { s.heath with
      channels := [], mlist := [], receivers := []
      outq := s.heath.outq.filter s.keepsPacket, loopq := []
      memStacks := Sparse.mapD {} Stack.cancelPosts s.heath.memStacks }
    house := { s.house with arrivals := [], stopped := false, err := false, errCause := 0 }
    stew := { s.stew with holdAsked := false, resetAsked := none, program := { p with
      armed := false, started := false, aborted := false, startAt := none, startDue := none, remaining := some 0
      replays := 0, rewrite := p.digest.isSome } }
    surv := { s.surv with verify := false, verifying := false, endReported := false, copyChan := none, copying := none
                          draining := none, reports := [], lossAsked := false, lossLine := none } }
  let st := s.stew.state
  (if st = 2 || st = 3 || st = 5 then { s with stew := { s.stew with state := s.restState } } else s).requestSlips

/-- The device is in service: idle, loaded, armed or halted. -/
def State.inService (s : State) : Bool :=
  s.stew.booted && (s.stew.state = 1 || s.stew.state = 2 || s.stew.state = 3 || s.stew.state = 5)

/-! ## The boot chain and bring-up (R453, R454, R459, R508) -/

/-- The checks of R453 that do not depend on the owner. -/
def FwSlot.genuine (x : FwSlot) (rollback : BitVec 7) : Bool :=
  keyDigest x.rootKey = rootDigest && rollback.toNat ≤ x.svn.toNat && (x.body.any fun b => Config.digest b = x.digest)
    && x.esig.any fun g => verifies g x.rootKey "SG4-FW" x.header

/-- The owner's countersignature of a slot verifies (R453). -/
def FwSlot.countersigned (x : FwSlot) (owner : BitVec 15616) : Bool :=
  x.osig.any fun g => verifies g owner "SG4-FW-OWNER" x.header

/-- What a reset leaves of a NOR write in progress (R454, R455): a firmware body whose digest fails, or a copy of the enrolment
record whose MAC fails (log entry 70). -/
def Vault.tear (v : Vault) : Option LongWork → Vault
  | some (.update _) =>
    let b := (!v.slotB).toNat
    { v with slots := Sparse.put b { Sparse.get ({} : FwSlot) v.slots b with body := none } v.slots }
  | some (.enrol _ _ _ _ _) => { v with otherCopy := none }
  | _ => v

/-- The copies of the enrolment record: the one that the device uses, if any, and the other. A copy is valid when its GEN
equals the fuses, and of two valid ones the higher VERSION is used (R455). -/
def Vault.useCopy (v : Vault) : Vault :=
  let valid (e : Option Enrolment) : Bool := e.any fun x => x.gen = v.gen.setWidth 8
  let newer (a b : Option Enrolment) : Bool := a.any fun x => b.any fun y => x.version.toNat < y.version.toNat
  if valid v.otherCopy && (!valid v.enrolment || newer v.enrolment v.otherCopy) then
    { v with enrolment := v.otherCopy, otherCopy := v.enrolment }
  else if valid v.enrolment then v
  else { v with enrolment := none, otherCopy := none }

/-- The enrolment record in use after a boot. -/
def Vault.validEnrolment (v : Vault) : Option Enrolment := v.useCopy.enrolment

/-- The firmware slot that the boot ROM runs: 0 slot A, 1 slot B; none when it stops. -/
def Vault.bootSlot (v : Vault) : Option Nat :=
  let ok (n : Nat) : Bool :=
    let f : FwSlot := Sparse.get {} v.slots n
    f.genuine v.rollback && (!v.gen.getLsbD 0 || v.validEnrolment.any fun e => f.countersigned e.owner)
  (if v.selectB then [1, 0] else [0, 1]).find? ok

/-- The margin of a domain at a step; a domain that reports none counts as 0. -/
def marginOf (o : BootOutcome) (n d : Nat) : BitVec 6 :=
  match (o.margins.getD n []).find? fun x => x.1.toNat = d with
  | some x => x.2
  | none => 0

/-- A step is safe when every present compute island reports a margin of at least 8 (R61). -/
def safeAt (grade : BitVec 2) (o : BootOutcome) (n : Nat) : Bool :=
  (List.range 32).all fun d => !islandIn grade d || 8 ≤ (marginOf o n d).toNat

/-- The first safe step from `n` on (R61, R62). -/
def firstSafe (grade : BitVec 2) (o : BootOutcome) (n : Nat) : Option Nat :=
  (List.range 8).find? fun k => n ≤ k && safeAt grade o k

/-- The four measurements of a boot (R459). -/
def State.measureBoot (s : State) (n : Nat) : State :=
  let v := s.vault
  let s := { s with vault := { v with mrBoot := 0, mrRun := 0, log := [], runCount := 0, logOvf := false } }
  let s := s.measure 1 Config.romDigest
  let s := s.measure 2 (Config.digest (Sparse.get ({} : FwSlot) v.slots n).header)
  let s := s.measure 3 s.enrolDigest
  s.measure 4 (Config.digest (bytesOf rootDigest.toNat 32 ++ [v.rollback.setWidth 8, v.gen.setWidth 8]))

/-- The failure record holds RETURN = 1, and its identity signature verifies: it is the one that the key makes (R475; log entry
133). -/
def Vault.returns (v : Vault) : Bool :=
  (v.failureRecord.getD 5 0).getLsbD 0 && v.failureRecord.drop 544 = v.sign "SG4-FAIL" (v.failureRecord.take 544)

/-- What zeroisation clears (R473, step 5): memory, registers, the receipt book and every FLOOR, with tickets from 0 again
(R405); every session closes. -/
def State.clearData (s : State) : State :=
  { s with
    mem := [], ecc := []
    fab := { s.fab with tiles := Sparse.mapD {} Tile.programReset s.fab.tiles }
    house := { s.house with sessions := [], subscribers := [], receipts := [], nextTicket := 0, arrivals := [] }
    vault := { s.vault with records := [], sealRing := [], sealCount := 0, signing := [], sealWaiting := false
                            waiting := [], controlOk := false } }

/-- The links begin to train (R351, R508). -/
def State.trainLinks (s : State) : State :=
  ((List.range 20).filter fun k => linkIn s.grade k && (s.link k).enable).foldl (fun s k => s.linkTrains k 2) s

/-- The crossings between the present compute islands, with their latencies in cycles (R38, R39); the die bridges form a ring
(R16). -/
def crossings (grade : BitVec 2) : List ((Nat × Nat) × Nat) :=
  let die (d : Nat) : List ((Nat × Nat) × Nat) :=
    ((List.range 4).flatMap fun f => [((8 * d + f, 8 * d + 4), 2), ((8 * d + 4, 8 * d + f), 2)])
      ++ [((8 * d + 4, 8 * d + 6), 1), ((8 * d + 6, 8 * d + 4), 1)]
      ++ [((8 * d + 6, 8 * ((d + 1) % 4) + 6), 4), ((8 * ((d + 1) % 4) + 6, 8 * d + 6), 4)]
  ((List.range 4).flatMap die).filter fun x => islandIn grade x.1.1 && islandIn grade x.1.2

/-- The slack of a crossing of latency `n`: the token of cycle t0 arrived in cycle ta (R38). A crossing whose token never
arrives has none. -/
def slackOf (o : BootOutcome) (a b n : Nat) : Option Int :=
  (o.tokens.find? fun x => x.1.1.toNat = a && x.1.2.toNat = b).map fun x => n - (x.2.2 - x.2.1).toInt

/-- Calibration: each crossing with a slack of 2 or more has its read pointer set at its latency behind the write pointer, and
the generators have locked. The crossing that fails first, by its receiver's domain (DESIGN CHOICE, log entry 101). -/
def State.calibrate (s : State) (o : BootOutcome) : State × Option Nat :=
  let xs := crossings s.grade
  let good (x : (Nat × Nat) × Nat) : Bool := (slackOf o x.1.1 x.1.2 x.2).any fun k => 2 ≤ k
  let cal := (xs.filter good).foldl (fun m x => Sparse.put (128 * x.1.1 + x.1.2) x.2 m) ([] : SMap Nat)
  let isl : SMap Island := (List.range 32).filterMap fun d => if islandIn s.grade d then some (d, { locked := true }) else none
  ({ s with clk := { s.clk with crossings := cal, islands := isl } }, (xs.find? fun x => !good x).map fun x => x.1.2)

/-- The margins of every compute island as measured at step `k` (R61, R63). -/
def State.takeMargins (s : State) (o : BootOutcome) (k : Nat) : State :=
  { s with clk := { s.clk with
    islands := s.clk.islands.map fun (x : Nat × Island) => (x.1, { x.2 with margin := marginOf o k x.1, marginValid := true }) } }

/-- Firmware, measurements, crossings, step, granary and links; then state 1 or 8, or 6 where a part fails. `first` is
the step from which margins are measured. -/
def State.bringUp (s : State) (o : BootOutcome) (first : Nat) : State :=
  let setState (s : State) (n : BitVec 4) : State := { s with stew := { s.stew with state := n } }
  let s := { s with vault := { s.vault.useCopy with pufOk := true, kpuf := Config.puf s.vault.pufHelper } }
  match s.vault.bootSlot with
  | none => setState { s with stew := { s.stew with booted := false } } 6
  | some n =>
    let f : FwSlot := Sparse.get {} s.vault.slots n
    let s := { s with
      stew := { s.stew with booted := true, fwVersion := f.version, svn := f.svn.setWidth 7, alive := s.clk.clk }
      vault := { s.vault with slotB := n = 1, zpend := s.vault.zmarker, returnMode := s.vault.returns
                              challenge := Config.random s.fresh } }.draw
    let s := s.measureBoot n
    let s := if s.vault.zmarker then
        let s := s.clearData
        { s with vault := { s.vault with zmarker := false } }
      else s
    let phy : SMap (BitVec 16) := (List.range 3).map fun m => (m, Config.phyLatency s.fresh m)
    let s := { s with house := { s.house with phy := phy } }.draw
    let (s, failed) := s.calibrate o
    match failed with
    | some d => setState { s with stew := { s.stew with failDomain := BitVec.ofNat 7 d } } 6
    | none =>
      match firstSafe s.grade o first with
      | none => setState (s.takeMargins o 7) 6
      | some k =>
        let s := s.takeMargins o k
        let s := { s with
          clk := { s.clk with step := BitVec.ofNat 3 k, safeStep := BitVec.ofNat 3 k }
          surv := { s.surv with granChan := o.nandChannels, granRate := o.nandRate } }
        let s := s.trainLinks
        if s.vault.returnMode then setState s 8
        else
          let s := setState s 1
          let r := s.vault.rollback
          { s with vault := { s.vault with rollback := if r.toNat < f.svn.toNat then f.svn.setWidth 7 else r } }

/-! ## Power on and off (R505, R508–R510) -/

/-- The state without power: NOR contents, fuses and the granary stay (R512). -/
def State.powerOff (s : State) : State :=
  let v := s.vault.tear (s.stew.longOp.map LongOp.work)
  { fab := { fields := Sparse.mapD {} (fun (f : Field) => { rowmap := f.rowmap }) s.fab.fields }
    clk := { clk := s.clk.clk, beacons := s.clk.beacons }
    stew := { grade := s.stew.grade, chainIn := s.stew.chainIn }
    vault := { pufHelper := v.pufHelper, gen := v.gen, rollback := v.rollback, zmarker := v.zmarker, failureRecord := v.failureRecord
               slots := v.slots, selectB := v.selectB, enrolment := v.enrolment, otherCopy := v.otherCopy
               epochCounter := v.epochCounter }
    surv := { granA := s.surv.granA, granB := s.surv.granB }
    egress := s.egress, fresh := s.fresh, pending := s.pending }

/-- The sustained design power of a grade in W (R506). -/
def designPower (grade : BitVec 2) : BitVec 16 := if grade = 0 then 2400 else if grade = 1 then 1900 else 1350

/-- POWER_ON: MOD_EN rises, or power returns (R505, R508). -/
def execPowerOn (o : BootOutcome) (s : State) : Answer :=
  .next (
    if s.power.pgood || s.power.railsOff then s
    else
      let s := s.powerOff
      let s := { s with power := { modEn := true, modEnAt := s.clk.clk, cap := designPower s.grade } }
      if !o.pgood then s
      else
        let s := { s with power := { s.power with on := true, pgood := true, pgoodAt := s.clk.clk } }
        if !o.ready then s
        else
          let s := s.bringUp o 0
          if s.stew.state = 1 then s.startEpoch else s)

/-- POWER_LOSS: the input leaves its limits or MOD_EN falls (R505). -/
def execPowerLoss (s : State) : Answer :=
  .next (let s := s.powerOff
         { s with power := { cap := designPower s.grade } })

/-- PGOOD_TIMEOUT: PGOOD did not rise within 25 ms; every rail stays off until MOD_EN falls (R508). -/
def execPgoodTimeout (s : State) : Answer :=
  .next (if s.power.modEn && !s.power.pgood && s.passed s.power.modEnAt (25000 * usUnits) then
      { s with power := { s.power with railsOff := true } }
    else s)

/-- STRAP_SAMPLE: 0.5 ms after PGOOD (R364, R445, R536). -/
def execStrapSample (board : BitVec 8) (feed : BitVec 4) (pins : SlotPins) (s : State) : Answer :=
  .next (if s.power.pgood && !s.power.strapped && s.passed s.power.pgoodAt (500 * usUnits) then
      { s with
        power := { s.power with strapped := true }
        stew := { s.stew with boardId := board, feedId := feed, pos := pins.pos, chainIn := pins.chainIn }
        heath := { s.heath with id := board.setWidth 12 * 16 + pins.pos.setWidth 12 } }
    else s)

/-- BRINGUP_TIMEOUT: state 1 was not reached within 1 s of PGOOD (R509). -/
def execBringupTimeout (s : State) : Answer :=
  .next (if s.power.pgood && s.stew.state = 0 && s.passed s.power.pgoodAt (1000000 * usUnits) then
      { s with stew := { s.stew with state := 6 } }
    else s)

/-- UNDERVOLTAGE_DIP: the input falls below 40 V and the module rides through (R505, R521). -/
def execUndervoltageDip (s : State) : Answer :=
  .next (if s.power.pgood then { s with power := { s.power with uvSeen := true } } else s)

/-! ## Warm reset (R421, R510, R511, R514) -/

/-- A warm reset falls due. -/
def State.askWarm (s : State) (why : BitVec 2) : State :=
  if s.stew.warmAsked.isSome then s
  else { s with stew := { s.stew with warmAsked := some s.clk.clk, warmBy := why } }

/-- LOCKSTEP_MISMATCH: both processors stop, so no command runs and no duty is performed until the warm reset that starts with
it (R421). -/
def execLockstepMismatch (s : State) : Answer :=
  .next (if !s.stew.booted then s
    else { s with
      vault := s.vault.tear (s.stew.longOp.map LongOp.work)
      stew := { s.stew with
      booted := false, longOp := none, stepReplies := [], lockstep := true, warmAsked := some s.clk.clk, warmBy := 2 } })

/-- The steward carries the reset out itself and completes the pending tickets first (R514). -/
def State.stewardResets (s : State) : Bool :=
  match s.stew.warmAsked with
  | none => false
  | some t => s.stew.warmBy != 2 && !(s.island 92).lost && !(s.island 95).lost
      && !(s.stew.warmBy = 3 && s.passed t (1000000 * usUnits))

/-- The first record that no finished seal covers, and the head before it: seals in progress are made again. -/
def Vault.unseal (v : Vault) : Vault :=
  match v.signing with
  | j :: _ => { v with sealedNext := j.first, prevHead := j.prev, signing := [], sealWaiting := false }
  | [] => { v with sealWaiting := false }

/-- What a warm reset keeps (R511, R512). -/
def State.warmClear (s : State) : State :=
  let s := s.clearPads
  let c := s.clk
  let w := s.stew
  let hot : Bool := !s.power.holders.isEmpty
  { s with
    fab := { fields := Sparse.mapD {} (fun (f : Field) => { rowmap := f.rowmap }) s.fab.fields
             hold := { held := hot, thermal := hot, stopAt := if hot then some 0 else none, stoppedAt := c.clk } }
    clk := { clk := c.clk, time := c.time, rate := c.rate, valid := c.valid, ptpLocked := c.ptpLocked
             monotonic := c.monotonic, stepRefused := c.stepRefused, beacons := c.beacons }
    heath := { id := s.heath.id
               memStacks := Sparse.mapD {} (fun (k : Stack) =>
                 let k := k.cancelPosts
                 { temp := k.temp, hot := k.hot, hotSeen := k.hotSeen, coolSince := k.coolSince, active := k.active
                   nextPost := k.nextPost, refreshAt := k.refreshAt }) s.heath.memStacks }
    house := { nextSession := s.house.nextSession, receipts := s.house.receipts
               nextTicket := s.house.nextTicket, receiptCfg := s.house.receiptCfg }
    stew := { grade := w.grade, boardId := w.boardId, feedId := w.feedId, pos := w.pos, smbAddr := w.smbAddr
              chainIn := w.chainIn, chainOut := w.chainOut, lockstep := w.lockstep }
    vault := (s.vault.tear (w.longOp.map LongOp.work)).unseal
    surv := { granA := s.surv.granA, granB := s.surv.granB }
    power := { s.power with
      trip := false, tripSensor := 0, uvSeen := false, cap := designPower s.grade, thermalStep := 0, powerStep := 0 } }

/-- WARM_RESET: it waits until the tickets that the steward completes first are ended (R414, R514). -/
def execWarmReset (o : BootOutcome) (s : State) : Answer :=
  .next (
    if s.stew.warmAsked.isNone || !s.power.pgood then s
    else
      let status : BitVec 8 := if s.stew.warmBy = 2 then 2 else 1
      let step := s.clk.step.toNat
      let ends := s.stewardResets
      let s := if ends then s.endTickets else s
      if ends && !s.ticketsEnded then s else
      let s := s.warmClear.bringUp o step
      if s.stew.state != 1 then s
      else
        let s := if o.chainMacOk && s.vault.controlOk then
            let q := s.vault.waiting
            ((s.appendWith (plainRecord 7 status 0 0) s.imd).flushAppends q)
          else s.startEpoch
        let s := s.endTickets
        { s with house := { s.house with stopped := !s.ticketsEnded } })

end Sys2Proof.Machine
end

