-- ==== Sys2Proof/Machine/Clocks.lean ====
section
/-!
DEFINITION. Holds that begin and end (R76–R82), stretches and slips (R42–R46), frequency steps (R47–R50), the loss of the reference
(R58, R59), margins (R60–R63) and the time counter (R51–R57).
-/
namespace Sys2Proof.Machine

/-! ## Holds (R76–R82) -/

/-- HOLD_STOP: cycle C − 1 is complete, and the islands stand once the one with the largest debt has stopped (R44, R78). -/
def execHoldStop (s : State) : Answer :=
  .next (
    if !s.stopDue then s
    else
      let h := s.fab.hold
      let t := s.wall
      let s := { s with fab := { s.fab with hold := { h with
        held := true, stoppedAt := t, stepAt := if h.step then t else h.stepAt, measured := 0
        timedOut := false } } }
      if h.halt then s.stopRun else s)

/-- The time `t`, if any, is at least 24 periods past. -/
def State.cleared (s : State) (t : Option Nat) : Bool :=
  match t with
  | some c => s.passed c (24 * s.period)
  | none => false

/-- Every cause of the hold lets the fabric restart by now (R77, R78). -/
def State.mayRestart (s : State) : Bool :=
  let h := s.fab.hold
  h.held && !h.halt && !s.power.trip && !h.step && s.passed h.stoppedAt 0
    && (h.waits.all fun w => s.cleared w.metAt)
    && (!h.drain || s.cleared h.drainMet)
    && (!h.thermal || s.cleared h.thermalOff)
    && (!h.steward || s.cleared h.stewardOff)
    && (!h.slip || s.passed h.stoppedAt s.period)

/-- The generators run at step `n`, which is the step in force (R441). -/
def State.relock (s : State) (n : BitVec 3) : State :=
  let s := if n = s.clk.step then s else s.count .steward 0xA4 0 1
  { s with clk := { s.clk with step := n, target := none, relocked := none } }

/-- A step that a hold carries takes effect at its restart (R441). -/
def State.applyStep (s : State) : State := match s.clk.relocked with | some n => s.relock n | none => s

/-- HOLD_RESTART: every island begins cycle C on one edge, and no island owes anything; a step that the hold carries takes effect
(R45, R78, R441). -/
def execHoldRestart (s : State) : Answer :=
  .next (
    if !s.mayRestart then s
    else
      let s := { s with
        fab := { s.fab with hold := { limit := s.fab.hold.limit } }
        clk := { s.clk with islands := s.clk.islands.map fun (x : Nat × Island) =>
          (x.1, { x.2 with debt := 0, slipAsked := false }) } }.applyStep
      if s.begun then s.beginCycle else s)

/-- Wait `a` issued before `b`, or in the same cycle at a lower tile. -/
def waitBefore (a b : HeldWait) : Bool :=
  (a.wait.issued - b.wait.issued).msb || (a.wait.issued = b.wait.issued && a.tile.toNat < b.tile.toNat)

/-- The unsatisfied wait that the record of a HOLD_TIMEOUT names. -/
def firstWait : List HeldWait → Option HeldWait
  | [] => none
  | w :: ws =>
    match firstWait ws with
    | none => some w
    | some v => if waitBefore v w then some v else some w

/-- HOLD_TIMEOUT: the measured time has reached HOLD_LIMIT (R82). -/
def execHoldTimeout (s : State) : Answer :=
  let h := s.fab.hold
  .next (
    if !h.held || h.timedOut || h.limit = 0 || !h.unmet || h.measured < h.limit.toNat * usUnits then s
    else
      let s := { s with fab := { s.fab with hold := { h with timedOut := true } } }
      match firstWait (h.waits.filter fun w => w.metAt.isNone) with
      | some w =>
        s.requestHalt w.tile.toNat (tileSource w.tile.toNat 4 w.wait.iaddr) s.fab.scc 0x13 0 (w.wait.kind.setWidth 32)
      | none =>
        let t := s.stew.program.tiles.foldl min 767
        let late := (s.fab.drains.find? fun d => d.sampled && !d.checked).bind fun d => (s.tile t).drainOf d.cyc
        let i : BitVec 11 := match late with | some d => d.iaddr | none => 0
        s.requestHalt t (tileSource t 4 i) s.fab.scc 0x13 0 (BitVec.ofNat 32 (16 + s.drainUnmet.getD 0)))

/-! ## Loss of the reference and guard faults (R46, R58, R59) -/

/-- The program aborts with REF_LOST, and only a warm reset lets the device run a program again. The steward starts that
reset itself. -/
def State.refLost (s : State) (domain : Nat) (guardFault : Bool) : State :=
  let s := s.unitHalt 9 domain 0x0F 0 (BitVec.ofNat 32 (domain + guardFault.toNat * 256))
  { s with clk := { s.clk with needWarm := true } }.askWarm 1

/-- A snapshot drain that is in progress is abandoned; it counts as finished (R59, R493). -/
def State.abandonDrain (s : State) : State := { s with surv := { s.surv with draining := none } }

/-- What the loss of the reference in a domain does. -/
def State.lossIn (s : State) (d : Nat) : State :=
  if d < 68 || d = 78 || d = 89 then s.refLost d false
  else if d < 90 then
    match (List.range 20).find? fun k => linkDomain k = d with
    | some k =>
      if (s.link k).st = 3 then
        (s.linkTally k 0x75).linkFails k 4
      else s
    | none => s
  else if d < 92 then
    let port : Bool := d = 91
    (List.range 4).foldl (fun s i =>
      let sub := BitVec.ofNat 2 i
      let x := s.subPort port sub
      s.setSub port sub x.down) s
  else if d = 92 then (s.refLost d false).closeSessions fun x => !x.control
  else if d = 93 then { s.abandonDrain with surv := { s.abandonDrain.surv with granLost := true } }
  else if d = 95 then (s.refLost d false).closeSessions fun _ => true
  else if d = 96 then { s with clk := { s.clk with valid := false } }
  else s

/-- REFERENCE_LOSS. -/
def execReferenceLoss (domain : BitVec 7) (s : State) : Answer :=
  let d := domain.toNat
  .next (
    if !domainIn s.grade d || (s.island d).lost then s
    else
      let s := s.modIsland d fun x =>
        if islandIn s.grade d then { x with lost := true, refLoss := true, locked := false } else { x with lost := true }
      s.lossIn d)

/-! ## Stretches and slips (R42–R46) -/

/-- STRETCH: one period of a domain is stretched by `units` 64ths, at most half a period. -/
def execStretch (domain : BitVec 7) (units : BitVec 6) (s : State) : Answer :=
  let d := domain.toNat
  .next (
    if !islandIn s.grade d || s.fab.hold.held || s.power.trip || 32 < units.toNat || !s.power.pgood then s
    else
      let s := s.count .steward 0xA0 0 1
      let s := if d % 8 < 4 then s.count (.field (BitVec.ofNat 4 (d / 8 * 4 + d % 8))) 0x26 0 1 else s
      let s := s.modIsland d fun x => { x with debt := x.debt + units.toNat }
      let debt := (s.island d).debt
      if 128 < debt then (s.modIsland d fun x => { x with guardFault := true }).refLost d true
      else if 96 < debt then s.requestSlip d
      else s)

/-! ## Frequency steps (R47–R50, R441) -/

/-- The slowest of the step asked for and the steps that the thermal and power policies impose. -/
def State.wantedStep (s : State) : BitVec 3 :=
  BitVec.ofNat 3 (max (s.clk.askedStep.getD s.clk.safeStep).toNat (max s.power.thermalStep.toNat s.power.powerStep.toNat))

/-- The step follows what is wanted, inside a hold (R48, R50). A change that waits takes the new target. -/
def State.followStep (s : State) : State :=
  let n := s.wantedStep
  if s.fab.hold.step then { s with clk := { s.clk with target := some n } }
  else if n = s.clk.relocked.getD s.clk.step then s
  else { s with clk := { s.clk with target := some n } }.requestHold .step s.fab.scc

/-! ## Margins (R60, R63) -/

/-- MEASURE: a measurement starts while no program runs. -/
def execMeasure (w : Writer) (domain : BitVec 7) (s : State) : Answer :=
  .next (if s.reaches w && islandIn s.grade domain.toNat && !s.anyRun then
      s.modIsland domain.toNat fun x => { x with measuring := some s.clk.clk }
    else s)

/-- MEASURE_COMPLETE: after 10 µs MARGIN holds the smallest margin of the island's replicas. -/
def execMeasureComplete (domain : BitVec 7) (margin : BitVec 6) (s : State) : Answer :=
  let x := s.island domain.toNat
  .next (match x.measuring with
    | some t =>
      if s.passed t (10 * usUnits) then
        s.setIsland domain.toNat { x with margin := margin, marginValid := true, measuring := none }
      else s
    | none => s)

/-! ## Time (R51–R57) -/

/-- The consumers of time: ports, counting house, links, steward, power and thermal manager (R52). -/
def isConsumer (grade : BitVec 2) (d : Nat) : Bool :=
  d = 90 || d = 91 || d = 92 || d = 94 || d = 99 || ((List.range 20).any fun k => linkIn grade k && linkDomain k = d)

/-- R53: the value that a short beacon of low bits `b` gives a consumer. -/
def rebuild (v : BitVec 64) (b : BitVec 32) : BitVec 64 := v + (b - v.setWidth 32).signExtend 64

/-- The reading error of a consumer, within ±4 ns (R52). -/
def beaconErr (n : Nat) : BitVec 64 := BitVec.ofInt 64 (((Config.beaconError n).toNat % 9 : Nat) - 4)

/-- The intervals of 64 ns that have passed (R52). -/
def State.beaconSlot (s : State) : Nat := s.clk.clk / (64 * nsUnits)

/-- A beacon is due: every 64 ns, from the time-reference domain. It sends none while it has lost its reference, of which R59
says nothing (DESIGN CHOICE, log entry 103). -/
def State.beaconDue (s : State) : Bool :=
  s.power.pgood && !(s.island 96).lost && s.clk.beacons < s.beaconSlot

/-- The beacon that is due is a full one: 2^20 ns are 16,384 intervals. -/
def State.beaconFull (s : State) : Bool := s.clk.beacons / 16384 < s.beaconSlot / 16384

/-- A beacon of the counter's value `t` at a consumer (R52, R53). -/
def Consumer.take (c : Consumer) (full : Bool) (t : BitVec 64) (clk : Nat) : Consumer :=
  if full then { value := t, valid := true, lastBeacon := clk }
  else if c.valid then { c with value := rebuild c.value (t.setWidth 32), lastBeacon := clk }
  else c

/-- The beacon reaches consumer `d`. -/
def State.beaconAt (s : State) (full : Bool) (d : Nat) : State :=
  let c : Consumer := Sparse.get {} s.clk.consumers d
  let t := s.now + beaconErr s.fresh
  let s := s.draw
  { s with clk := { s.clk with consumers := Sparse.set {} s.clk.consumers d (c.take full t s.clk.clk) } }

/-- BEACON: the beacon that is due goes to every consumer; those of `missed` do not receive it (R53). -/
def execBeacon (full : Bool) (missed : List (BitVec 7)) (s : State) : Answer :=
  .next (
    if !s.beaconDue || full != s.beaconFull then s
    else
      let s := { s with clk := { s.clk with beacons := s.beaconSlot } }
      ((List.range 100).filter fun d => isConsumer s.grade d && !(missed.any fun m => m.toNat = d)).foldl
        (fun s d => s.beaconAt full d) s)

/-- BEACON_TIMEOUT: no beacon for 2^31 ns. -/
def execBeaconTimeout (consumer : BitVec 7) (s : State) : Answer :=
  let c : Consumer := Sparse.get {} s.clk.consumers consumer.toNat
  .next (if c.valid && s.passed c.lastBeacon (2 ^ 31 * nsUnits) then
      { s with clk := { s.clk with
        consumers := Sparse.set {} s.clk.consumers consumer.toNat { c with valid := false } } }
    else s)

/-- TIME_STEP: an offset is added once; a negative one is refused once the first ledger record exists (R55, R56). -/
def execTimeStep (w : Writer) (offset : BitVec 64) (s : State) : Answer :=
  .next (
    if !s.reaches w then s
    else if s.clk.monotonic && offset.msb then { s with clk := { s.clk with stepRefused := true } }
    else { s with clk := { s.clk with time := s.clk.time + (offset.setWidth 96 <<< 32), valid := true } })

end Sys2Proof.Machine
end

