-- ==== Sys2Proof/Machine/Plans.lean ====
section
/-!
DEFINITION. Survival plans (R483–R487, R495): their fields and rules, the devices of a program and their leader, bulk copies,
reports and commits, snapshot drains and their interval; and the refusals of mailbox commands (R426).
-/
namespace Sys2Proof.Machine

/-- A refusal: STATUS and DETAIL (R426). -/
abbrev Refused := BitVec 8 × BitVec 8

def badArg (d : Nat) : Refused := (4, BitVec.ofNat 8 d)
def absent (d : Nat) : Refused := (2, BitVec.ofNat 8 d)
def denied (d : Nat) : Refused := (3, BitVec.ofNat 8 d)
def failed (d : Nat) : Refused := (5, BitVec.ofNat 8 d)

/-- A check of a command. -/
def require (b : Bool) (r : Refused) : Except Refused Unit := if b then .ok () else .error r

/-! ## Ranges of memory -/

/-- The stack-local bytes that the device addresses `[a, a + n)` name, as spans `[first, end)`: a range of a die's interleaved
alias is one span on each of its stacks (R31, R260). -/
def spansOf (grade : BitVec 2) (a n : Nat) : List (Nat × Nat) :=
  if n = 0 then []
  else if a < 0x040000000000 then [(a, a + n)]
  else
    let o := (a - 0x040000000000) % 0x4000000000
    let ks := dieStacks grade ((a - 0x040000000000) / 0x4000000000)
    let m := ks.length
    let c0 := o / 4096
    let c1 := (o + n - 1) / 4096
    ks.zipIdx.filterMap fun k =>
      let first := c0 + (k.2 + m - c0 % m) % m
      let last := c1 - (c1 + m - k.2) % m
      if c1 < first then none
      else some (k.1 * 0x1000000000 + first / m * 4096 + (if first = c0 then o % 4096 else 0),
        k.1 * 0x1000000000 + last / m * 4096 + (if last = c1 then (o + n - 1) % 4096 + 1 else 4096))

/-- Two ranges of device addresses name a common byte of DRAM. -/
def overlap (grade : BitVec 2) (a n b m : Nat) : Bool :=
  (spansOf grade a n).any fun x => (spansOf grade b m).any fun y => x.1 < y.2 && y.1 < x.2

/-- The bytes `[a, a + n)` are populated DRAM outside the ledger and the image store. -/
def State.freeDram (s : State) (a n : Nat) : Bool :=
  n = 0 || ((match place s.grade true a, place s.grade true (a + n - 1) with
    | .dram k _, .dram j _ =>
      if a < 0xC000000000 then a + n ≤ 0xC000000000 && (List.range (j + 1 - k)).all fun i => stackIn s.grade (k + i)
      else (a - 0x040000000000) / 0x4000000000 = (a + n - 1 - 0x040000000000) / 0x4000000000
    | _, _ => false)
    && (spansOf s.grade a n).all fun x => x.2 ≤ 0x0FB0000000 || 0x1000000000 ≤ x.1)

/-! ## The devices of a program -/

def reqDevices (r : BitVec 256) : Nat := (r.extractLsb' 128 16).toNat

/-- The logical devices of the loaded program (R165). -/
def State.devices (s : State) : List (BitVec 12) :=
  (List.range (reqDevices s.stew.program.req)).map (BitVec.ofNat 12)

def State.logical (s : State) : BitVec 12 := s.stew.program.logical

/-- The device of a logical number has not been declared dead. -/
def State.aliveDev (s : State) (l : BitVec 12) : Bool :=
  match s.physOf l with
  | some p => !s.surv.dead.any fun d => d.1 = p
  | none => false

/-- The leader: the lowest surviving logical device (R487). -/
def State.leader (s : State) : BitVec 12 := (s.devices.find? s.aliveDev).getD s.logical

def State.leads (s : State) : Bool := s.leader = s.logical

/-- A steward's message to every other living device of the program. -/
def State.tellAll (s : State) (kind : BitVec 8) (data : List Byte) : State :=
  s.devices.foldl (fun s l =>
    if l = s.logical || !s.aliveDev l then s
    else match s.physOf l with
      | some p => s.sendControl p none kind data
      | none => s) s

/-! ## The plan (R483, R484) -/

def planField (p : Line) (lo w : Nat) : Nat := (p.toNat / 2 ^ lo) % 2 ^ w
def planUnit : Nat := 65536
def planState (p : Line) (odd : Bool) : Nat := planField p (if odd then 48 else 0) 48
def planStatic (p : Line) : Nat := planField p 96 48
def planBuddyBase (p : Line) : Nat := planField p 144 48
def planSize (p : Line) : Nat := planUnit * planField p 192 32
def planStaticSize (p : Line) : Nat := planUnit * planField p 224 32
def planLoss (p : Line) : Nat := planField p 256 48
def planBuddy (p : Line) : BitVec 12 := p.extractLsb' 304 12
def planTill (p : Line) : BitVec 15 := p.extractLsb' 320 15
def planStepParam (p : Line) : Nat := planField p 336 8
def planVerifyParam (p : Line) : Nat := planField p 344 8
def planForce (p : Line) : Bool := p.getLsbD 352
def planSnap (p : Line) : Bool := p.getLsbD 353
def planMin (p : Line) : Nat := planField p 384 32
def planMax (p : Line) : Nat := planField p 416 32
def planHistN (p : Line) : Nat := planField p 448 32
def planHistT (p : Line) : Nat := planField p 480 32

/-- The four regions of a plan, each with its length: the state buffers, the static region, the buddy region. -/
def planRegions (p : Line) : List (Nat × Nat) :=
  [(planState p false, planSize p), (planState p true, planSize p), (planStatic p, planStaticSize p),
   (planBuddyBase p, 2 * planSize p + planStaticSize p)]

/-- No two regions of a list overlap. -/
def regionsApart (grade : BitVec 2) : List (Nat × Nat) → Bool
  | [] => true
  | r :: rs => (rs.all fun q => !overlap grade r.1 r.2 q.1 q.2) && regionsApart grade rs

/-- The fields of the plan meet R483 and R484. -/
def State.planOk (s : State) (p : Line) : Bool :=
  ((planRegions p).all fun r => r.1 % planUnit = 0 && (r.2 = 0 || s.freeDram r.1 r.2))
    && regionsApart s.grade (planRegions p) && planUnit ≤ planSize p && planLoss p % 4 = 0
    && planField p 316 4 = 0 && planField p 335 1 = 0 && planStepParam p < 64 && planVerifyParam p < 64
    && planStepParam p != planVerifyParam p && planField p 354 6 = 0 && planField p 360 24 = 0
    && 2 ≤ planMin p && planMin p ≤ 65535 && planMin p ≤ planMax p && planMax p ≤ 65535
    && 1 ≤ planHistN p && 1 ≤ planHistT p

/-- The reduction windows and the regions of a plan share no byte (R381). -/
def State.planClear (s : State) (p : Line) : Bool :=
  s.fab.dies.all fun d => d.2.rwins.all fun w =>
    !rwinOn w.2 || (planRegions p).all fun r => !overlap s.grade (rwinBase w.2) (64 * rwinLines w.2) r.1 r.2

/-! ## Bulk copies (R487, R488, R497) -/

/-- The bytes `[a, a + 256n)` at a device address, read in pieces that each lie in one stack; none where a codeword is
uncorrectable. -/
def State.readPieces (s : State) (a : Nat) : Nat → State × Option (List Byte)
  | 0 => (s, some [])
  | n + 1 =>
    match place s.grade true a with
    | .dram k b =>
      match s.dramRead k b 256 with
      | (s, none) => (s.dramHalt k a, none)
      | (s, some bs) =>
        match s.readPieces (a + 256) n with
        | (s, some rest) => (s, some (bs ++ rest))
        | (s, none) => (s, none)
    | _ => (s, none)

/-- The lowest channel that is not in use. -/
def State.freeChannel (s : State) : Option Nat :=
  (List.range 16383).find? fun c => chanKind (s.chan c).entry = 0

/-- A window channel to a device on VC 3, opened with DYN. -/
def windowEntry (dev : BitVec 12) (base size : Nat) : Line :=
  BitVec.ofNat 512 (1 + 3 * 2 ^ 8 + 2 ^ 11 + dev.toNat * 2 ^ 16 + base * 2 ^ 64 + size * 2 ^ 128)

/-- The channel of the bulk copy engine: the one that is open, or the lowest unused one. -/
def State.copyChannel (s : State) (dev : BitVec 12) (base size : Nat) : State × Option Nat :=
  match s.surv.copyChan with
  | some c =>
    ((s.modChan c.toNat fun x => { x with entry := windowEntry dev base size }).mapChannel c.toNat, some c.toNat)
  | none =>
    match s.freeChannel with
    | some c =>
      let s := { s with surv := { s.surv with copyChan := some (BitVec.ofNat 14 c) } }
      ((s.modChan c fun x => { x with entry := windowEntry dev base size }).mapChannel c, some c)
    | none => (s, none)

/-- `n` pieces of 256 B at `src` go to `dst` on the device of channel `c`, one WRITE each. -/
def State.sendPieces (s : State) (c : Nat) (src dst : Nat) : Nat → State
  | 0 => s
  | n + 1 =>
    match s.readPieces src 1, s.physOf (chanDev (s.chan c).entry) with
    | (s, some bs), some p =>
      (s.startTransfer c { tid := 0, tile := none, block := none, coins := 0, addr := BitVec.ofNat 48 dst, left := 1 }
        [(.write, { Packet.blank with vc := 3, dst := p, addr := BitVec.ofNat 48 dst, data := bs })]).sendPieces
          c (src + 256) (dst + 256) n
    | (s, _), _ => s

/-- Every transfer of the bulk copy engine is acknowledged. -/
def State.copyIdle (s : State) : Bool :=
  match s.surv.copyChan with
  | some c => (s.chan c.toNat).transfers.isEmpty && (s.chan c.toNat).waiting.isEmpty
  | none => true

/-! ## The snapshot interval (R495) -/

/-- The median of a list of times: of an even number, the mean of the two in the middle. -/
def median (xs : List Nat) : Option Nat :=
  let ys := xs.insertionSort (· ≤ ·)
  let n := ys.length
  if n = 0 then none
  else if n % 2 = 1 then some (ys.getD (n / 2) 0)
  else some ((ys.getD (n / 2 - 1) 0 + ys.getD (n / 2) 0) / 2)

def secUnits : Nat := 1000000 * usUnits

/-- δ before a snapshot has been measured: an eighth of the drain time at the granary's rate. -/
def State.firstDelta (s : State) (p : Line) : Nat :=
  if s.surv.granRate = 0 then 0 else planSize p * secUnits / (s.surv.granRate.toNat * 10 ^ 9) / 8

/-- The interval is computed anew. A δ below 0 has no square root and counts as 0 (DESIGN CHOICE, log entry 137). -/
def State.setInterval (s : State) : State :=
  match s.surv.plan, median s.surv.replayTimes with
  | some p, some m =>
    if m = 0 then s
    else
      let x := s.surv
      let d := (x.delta.getD (s.firstDelta p : Int)).toNat
      let hist := planHistT p * secUnits + (s.clk.clk - x.planSince)
      let steps := Nat.sqrt (2 * d * hist / (planHistN p + x.events)) / m
      { s with surv := { x with interval := BitVec.ofNat 16 (max (planMin p) (min (planMax p) steps)) } }
  | _, _ => s

/-! ## Commits and snapshot drains (R487, R493) -/

/-- The STEP of the commit record of a slot. -/
def Granary.step (g : Granary) : Option Nat := g.record.map fun r => (r.extractLsb' 64 64).toNat

/-- The slot that does not hold the valid record of the highest STEP: B if `true`. -/
def State.drainTarget (s : State) : Bool :=
  match s.surv.granA.step, s.surv.granB.step with
  | some _, none => true
  | some a, some b => b ≤ a
  | none, _ => false

/-- A drain of the buffer of step `k` begins: the target slot becomes invalid. -/
def State.startDrain (s : State) (k : BitVec 64) : State :=
  let b := s.drainTarget
  let x := s.surv
  { s with surv := { x with
      draining := some { step := k, slotB := b, since := s.clk.clk, time := s.now, epoch := s.vault.epoch, loss := x.loss }
      granA := if b then x.granA else {}
      granB := if b then {} else x.granB
      lastSnap := k, snapAsked := false, overlapped := true } }

/-- The granary works: it has a channel with a target (R489, R544), and its domain has its reference. -/
def Survival.granUp (v : Survival) : Bool := v.granChan != 0 && !v.granLost

/-- A drain that goes on: an abort of the program or the loss of the granary ends it. -/
def Survival.drainRuns (v : Survival) (aborted : Bool) : Bool := v.draining.isSome && !aborted && v.granUp
def State.drainRuns (s : State) : Bool := s.surv.drainRuns s.stew.program.aborted

/-- Step `r` is committed on this device. -/
def State.commitHere (s : State) (r : BitVec 64) (loss : BitVec 32) (snapshot : Bool) : State :=
  let s := { s with surv := { s.surv with commit := r, loss := loss } }
  match s.surv.plan with
  | some p => if snapshot && planSnap p && s.surv.granUp then s.startDrain r else s
  | none => s

/-- A snapshot of step `r` falls due. -/
def State.snapDue (s : State) (r : BitVec 64) : Bool :=
  match s.surv.plan with
  | some p => planSnap p && s.surv.granUp && s.surv.draining.isNone
      && (s.surv.snapAsked || (s.surv.interval != 0 && s.surv.lastSnap.toNat + s.surv.interval.toNat ≤ r.toNat))
  | none => false

/-- The FP32 loss at LADDR of this device. A line of a slice comes through the port of its bank (R229): the first call asks for
it, and one after its grant finds it. -/
def State.readLoss (s : State) (p : Line) : State × Option (BitVec 32) :=
  match place s.grade true (planLoss p) with
  | .pad t o =>
    match s.surv.lossLine with
    | some v =>
      ({ s with surv := { s.surv with lossAsked := false, lossLine := none } }, some (v.extractLsb' (8 * (o % 64)) 32))
    | none =>
      if s.surv.lossAsked || ((s.issueEnv t).escrow && escrowBase < o + 4) then (s, none)
      else
        ({ s with surv := { s.surv with lossAsked := true } }.enqueueAccess t 0 (o / 64) none none false .steward, none)
  | _ => let (s, bs) := s.asyncRead (planLoss p) 4
         (s, bs.map fun bs => BitVec.ofNat 32 (natOf bs))

/-- The verification replay differs: the steward aborts, and the recovery is over (R499). -/
def State.mismatch (s : State) : State :=
  let s := s.abort 0x89 (s.surv.commit + 1).toNat
  { s with surv := { s.surv with verify := false, verifying := false, recovering := false } }

/-- The verification replay has ended everywhere: the leader compares the loss with the one kept at commit, and tells every
steward (R499; how it tells them of a difference: DESIGN CHOICE, log entry 62). -/
def State.judge (s : State) (p : Line) : State :=
  match s.readLoss p with
  | (s, some l) =>
    if l = s.surv.loss then
      let s := s.tellAll 15 (bytesOf s.surv.commit.toNat 8 ++ [3])
      { s with surv := { s.surv with verify := false, verifying := false, recovering := false } }
    else (s.tellAll 15 (bytesOf s.surv.commit.toNat 8 ++ [5])).mismatch
  | (s, none) => s

/-- The leader commits a step once every device has reported its copy and the end of its replay (R487). -/
def State.tryCommit (s : State) : State :=
  match s.surv.plan with
  | none => s
  | some p =>
    let r := if s.surv.verifying then s.surv.commit else s.surv.commit + 1
    let has (f : DevReport → Bool) : Bool := s.devices.all fun l =>
      let d : DevReport := Sparse.get {} s.surv.reports l.toNat
      d.step = r && f d
    if !s.leads then s
    else if s.surv.verifying then (if has fun d => d.ended then s.judge p else s)
    else if has fun d => d.copied && d.ended then
      match s.readLoss p with
      | (s, some l) =>
        let snap := s.snapDue r
        (s.tellAll 8 (bytesOf r.toNat 8 ++ bytesOf l.toNat 4 ++ [if snap then 1 else 0])).commitHere r l snap
      | (s, none) => s
    else s

/-- The loss that a commit waits for has come. -/
def State.retryCommit (s : State) : State := if s.stew.booted && s.surv.lossLine.isSome then s.tryCommit else s

/-- A report reaches the leader. -/
def State.noteReport (s : State) (l : BitVec 12) (step : BitVec 64) (copied ended : Bool) : State :=
  let d : DevReport := Sparse.get {} s.surv.reports l.toNat
  let d' : DevReport :=
    if d.step = step then { step := step, copied := d.copied || copied, ended := d.ended || ended }
    else if d.step.toNat < step.toNat then { step := step, copied := copied, ended := ended } else d
  { s with surv := { s.surv with reports := Sparse.set {} s.surv.reports l.toNat d' } }.tryCommit

/-- This device's report. -/
def State.report (s : State) (step : BitVec 64) (copied ended : Bool) : State :=
  if s.leads then s.noteReport s.logical step copied ended
  else match s.physOf s.leader with
    | some p => s.sendControl p none 7 (bytesOf step.toNat 8 ++ bytesOf s.logical.toNat 2
        ++ [BitVec.ofNat 8 (copied.toNat + 2 * ended.toNat)])
    | none => s

/-- A device that is to take a snapshot tells the leader, which chooses the step (R493; the message: DESIGN CHOICE, log entry
62). -/
def State.askSnapshot (s : State) : State :=
  if s.leads then { s with surv := { s.surv with snapAsked := true } }
  else match s.physOf s.leader with
    | some p => s.sendControl p none 7 (bytesOf s.surv.stepRun.toNat 8 ++ bytesOf s.logical.toNat 2 ++ [4])
    | none => s

/-- A replay of the plan has ended on this device: its wall time counts for the interval (R495), and the leader hears
of it. -/
def State.replayEnded (s : State) : State :=
  let x := s.surv
  let wall := s.wall - x.replayBegan
  let x := if x.overlapped then { x with overlapTimes := x.overlapTimes ++ [wall] }
    else { x with replayTimes := (x.replayTimes ++ [wall]).drop (x.replayTimes.length - 15) }
  let s := { s with surv := { x with endReported := true, overlapped := x.draining.isSome } }
  let s :=
    if s.surv.draining.isNone && !s.surv.overlapTimes.isEmpty then
      let m : Int := (median s.surv.replayTimes).getD 0
      let d : Int := (s.surv.overlapTimes.map fun (t : Nat) => (t : Int) - m).sum
      { s with surv := { s.surv with delta := some d, overlapTimes := [] } }.setInterval
    else if s.surv.interval = 0 then s.setInterval else s
  s.report s.surv.stepRun false true

/-- The program's replay has ended and has not been reported. -/
def State.endDue (s : State) : Bool :=
  s.surv.plan.isSome && s.begun && !s.stew.program.aborted && !s.surv.endReported
    && s.stew.program.tiles.all fun t => (s.tile t).seq.ended

end Sys2Proof.Machine
end

