-- ==== Sys2Proof/Machine/Image.lean ====
section
/-!
DEFINITION. Program images: the container (R434–R436), the requirements record (R165, R166), the checks and the writing of
sections (R437, R513), and the arming of the loaded program (R438).
-/
namespace Sys2Proof.Machine

/-! ## The container (R434) -/

/-- A program image: its requirements record and its sections. -/
structure Image where
  req : BitVec 256
  sections : List Section
  deriving DecidableEq, Repr

def field16 (bs : List Byte) (o : Nat) : Nat := natOf ((bs.drop o).take 2)
def field64 (bs : List Byte) (o : Nat) : Nat := natOf ((bs.drop o).take 8)

/-- Section entry `j` of an image with `n` entries. -/
def parseSection (bs : List Byte) (n j : Nat) : Option Section :=
  let e := (bs.drop (64 + 24 * j)).take 24
  let off := field64 e 8
  let len := field64 e 16
  if field16 e 2 = 0 && 64 + 24 * n ≤ off && off + len ≤ bs.length then
    some { ty := BitVec.ofNat 16 (field16 e 0), unit := BitVec.ofNat 16 (field16 e 4)
           logical := BitVec.ofNat 16 (field16 e 6), data := (bs.drop off).take len }
  else none

/-- All of a list of optional values. -/
def allSome {α : Type} : List (Option α) → Option (List α)
  | [] => some []
  | none :: _ => none
  | some a :: xs => (allSome xs).map fun as => a :: as

/-- The container of R434 in a list of bytes. -/
def parseImage (bs : List Byte) : Option Image :=
  let n := natOf ((bs.drop 4).take 4)
  if 64 ≤ bs.length && natOf (bs.take 4) = 0x3149505A && 1 ≤ n && n ≤ 65536 && natOf ((bs.drop 40).take 24) = 0
      && 64 + 24 * n ≤ bs.length then
    (allSome ((List.range n).map (parseSection bs n))).map fun ss =>
      { req := BitVec.ofNat 256 (natOf ((bs.drop 8).take 32)), sections := ss }
  else none

/-- The plain image inside a wrapped image's bytes (R464): none where a reserved byte is not 0, or the tag, the length or PDIGEST
does not fit. -/
def Vault.unwrap (v : Vault) (bs : List Byte) : Option (List Byte) :=
  let cut (lo n : Nat) : List Byte := (bs.drop lo).take n
  let ss := Config.decapsulate v.transportSeed (BitVec.ofNat 8704 (natOf (cut 48 1088)))
  let key := Config.kmac (ss) (ascii "SG4-IMG")
  if natOf (cut 4 4) != 0 then none
  else
    (Config.gcmOpen key 0 (bs.take 1136) (bs.drop 1152) (BitVec.ofNat 128 (natOf (cut 1136 16)))).filter fun p =>
      p.length = natOf (cut 8 8) && (Config.digest p).toNat = natOf (cut 16 32)

/-- The plain image of staged bytes with the digest that names it: an encrypted image is unwrapped and named by its
PDIGEST (R464). -/
def State.plainImage (s : State) (bs : List Byte) (digest : BitVec 256) : Option (BitVec 256 × List Byte) :=
  if natOf (bs.take 4) = 0x4549505A then
    (s.vault.unwrap bs).map fun p => (BitVec.ofNat 256 (natOf ((bs.drop 16).take 32)), p)
  else some (digest, bs)

/-- A section that this device loads (R434, R437). -/
def Section.isFor (x : Section) (logical : Nat) : Bool := x.logical = 0xFFFF || x.logical.toNat = logical

/-! ## The requirements record (R165, R166) -/

def reqFields (r : BitVec 256) : Nat := (r.extractLsb' 0 8).toNat

/-- The form of the record. -/
def reqFormOk (r : BitVec 256) : Bool :=
  1 ≤ reqFields r && reqFields r ≤ 4 && r.extractLsb' 8 8 = 1 && r.extractLsb' 28 4 = 0 && r.extractLsb' 52 12 = 0
    && r.extractLsb' 69 27 = 0 && r.extractLsb' 97 31 = 0 && 1 ≤ reqDevices r && reqDevices r ≤ 4096
    && r.extractLsb' 144 16 = 0 && r.extractLsb' 192 64 = 0

/-- The comparison with the capability words, in the order of R166. -/
def State.reqCheck (s : State) (r : BitVec 256) : Except Refused Unit := do
  let g := s.grade
  require (reqFields r ≤ fieldsOf g) (absent 1)
  require ((List.range 12).all fun k => !r.getLsbD (16 + k) || stackIn g k) (absent 2)
  require ((List.range 20).all fun k => !r.getLsbD (32 + k) || linkIn g k) (absent 3)
  require ((List.range 5).all fun k => !r.getLsbD (64 + k) || (BitVec.ofNat 5 (gradeUnits g)).getLsbD k) (absent 4)
  require ((r.extractLsb' 160 32).toNat ≤ s.stew.fwVersion.toNat) (absent 5)

/-! ## Write lists (R436) -/

/-- The words of a record's data from an offset upward. -/
def recordWords (off : Nat) (bs : List Byte) : Nat → List (Nat × BitVec 32)
  | 0 => []
  | n + 1 => (off, BitVec.ofNat 32 (natOf (bs.take 4))) :: recordWords (off + 4) (bs.drop 4) n

/-- The words that a write list writes, in order; none where a record breaks R436. -/
def writeWords (bs : List Byte) : Nat → Option (List (Nat × BitVec 32))
  | 0 => none
  | fuel + 1 =>
    if bs.isEmpty then some []
    else
      let off := natOf (bs.take 4)
      let count := natOf ((bs.drop 4).take 4)
      if bs.length < 8 + count || off % 4 != 0 || count = 0 || count % 4 != 0 then none
      else (writeWords (bs.drop (8 + count)) fuel).map fun ws => recordWords off (bs.drop 8) (count / 4) ++ ws

def Section.words (x : Section) : Option (List (Nat × BitVec 32)) := writeWords x.data (x.data.length + 1)

/-- The word belongs to a register or table that R435 lists for the section's type. -/
def listedWord (grade : BitVec 2) (ty unit off : Nat) : Bool :=
  let within (lo hi : Nat) : Bool := lo ≤ off && off < hi
  if ty = 2 then within 0x8 0x10 || within 0x30 0x38 || within 0x100 0x200
    || (within 0x200 0x400 && (off - 0x200) / 4 % 8 != 7) || within 0x800 0x820 || within 0xA00 0xA20
  else if ty = 5 then (within 0x400 0x700 && grade != 2) || within 0x1000 0x5000
  else if ty = 6 then within 0x01000000 0x010FFFC0 || within 0x03000000 0x03008000
  else if ty = 7 then within 0x100000 0x108000 || within 0x300000 0x300200
  else if ty = 8 then within 0x06000000 0x06010000
  else if ty = 9 then within 0x10000 0x12000 && grade != 2
  else if ty = 10 then (if unit < 16 then within 0x10000 0x18000 else within 0x400000 0x404000)
  else if ty = 11 then within 0 0x8000
  else if ty = 12 then within 0x5100 0x5500 || within 0x5500 0x5700 || within 0x5010 0x5018
  else false

/-- The blocks that a write list of the section writes (R435). -/
def State.sectionBlocks (s : State) (x : Section) : List RegBlock :=
  let u := x.unit.toNat
  let ty := x.ty.toNat
  if ty = 2 then [.tile u]
  else if ty = 5 then [.field u]
  else if ty = 6 || ty = 8 || ty = 12 then [.io 0]
  else if ty = 7 then [.die u]
  else if ty = 9 then ((List.range 12).filter (stackIn s.grade)).map RegBlock.stack
  else if ty = 10 then [if u < 16 then .field u else .die (u - 16)]
  else []

/-! ## Section checks (R435–R437, R465, R513) -/

/-- The unit index of a section names an absent tile or field (R166). -/
def State.namesAbsent (s : State) (x : Section) : Bool :=
  let u := x.unit.toNat
  let ty := x.ty.toNat
  if 1 ≤ ty && ty ≤ 3 then !tileIn s.grade u
  else if ty = 5 || ty = 10 then u < 16 && !fieldIn s.grade u
  else false

/-- The section by itself meets the rules of its type. -/
def State.sectionOk (s : State) (escrow : Bool) (x : Section) : Bool :=
  let u := x.unit.toNat
  let ty := x.ty.toNat
  let n := x.data.length
  let a := natOf (x.data.take 8)
  if ty = 1 then n % 32 = 0 && n ≤ 49152
  else if ty = 3 then 8 ≤ n && a + (n - 8) ≤ 0x140000 && (!escrow || n = 8 || a + (n - 8) ≤ 0x130000)
  else if ty = 4 then 8 ≤ n && u = 0 && s.freeDram a (n - 8)
  else
    (if ty = 5 then u < 16 else if ty = 7 || ty = 11 then u < 4 else if ty = 10 then u < 20 else ty = 2 || u = 0)
      && 2 ≤ ty && ty ≤ 12
      && (match x.words with
        | some ws => ws.all fun w => listedWord s.grade ty u w.1
        | none => false)

/-! ## Writing sections -/

/-- The listed registers at their reset values, and every instruction memory zero (R436, R437). -/
def State.clearListed (s : State) : State :=
  { s with
    fab := { s.fab with
      tiles := Sparse.mapD {} (fun (x : Tile) => { x with
        seq := { x.seq with
          param := [], shadow := [], agLoad := [], trackEnd := 0, trackEndW := 0, farmMap := 0, imem := []
          genEn := false }
        vec := { x.vec with seed := 0, ctrLoad := 0 } }) s.fab.tiles
      fields := Sparse.mapD {} (fun (x : Field) => { x with desc := [], escDef := [], fset := [] }) s.fab.fields
      dies := Sparse.mapD {} (fun (d : Die) => { d with dset := [], rwins := [], ringEnds := [] }) s.fab.dies }
    heath := { s.heath with
      channels := [], mlist := [], tree := []
      memStacks := Sparse.mapD {} (fun (k : Stack) => { k with script := [] }) s.heath.memStacks }
    house := { s.house with intakes := [], outboxes := [] } }

/-- The bundles of a type 1 section. -/
def bundlesOf (bs : List Byte) : Nat → Nat → SMap (BitVec 256)
  | _, 0 => []
  | i, n + 1 =>
    let v := BitVec.ofNat 256 (natOf (bs.take 32))
    if v = 0 then bundlesOf (bs.drop 32) (i + 1) n else (i, v) :: bundlesOf (bs.drop 32) (i + 1) n

/-- A section is written to its place; fallow banks that a type 3 section writes wake first (R234). Type 11 sections
wait for ARM. -/
def State.writeSection (s : State) (dram : Bool) (x : Section) : State :=
  let u := x.unit.toNat
  let ty := x.ty.toNat
  let a := natOf (x.data.take 8)
  let bs := x.data.drop 8
  if ty = 1 then
    s.modTile u fun t => { t with seq := { t.seq with
      imem := (bundlesOf x.data 0 (x.data.length / 32)).foldl (fun m e => Sparse.put e.1 e.2 m)
        (t.seq.imem.filter fun e => x.data.length / 32 ≤ e.1) } }
  else if ty = 3 then
    let hit : BitVec 16 := ((List.range (bs.length / 64 + 2)).filter fun i => a / 64 + i ≤ (a + bs.length - 1) / 64).foldl
      (fun m i => m ||| (1 <<< ((a / 64 + i) % 16))) 0
    let s := if bs.isEmpty then s else s.setFallow u ((s.tile u).pad.fallow &&& ~~~hit)
    if bs.isEmpty then s else s.stewardBytes u a bs
  else if ty = 4 then (if dram then s.writeDram a bs else s)
  else if ty = 11 then s
  else
    match x.words with
    | some ws => (s.sectionBlocks x).foldl (fun s b => ws.foldl (fun s w => s.putReg b w.1 w.2) s) s
    | none => s

/-- The sections of a logical device are written, and the channel-kind maps derived; GEN_EN follows the record (R159). -/
def State.writeImage (s : State) (dram : Bool) (img : Image) (logical : Nat) : State :=
  let xs := img.sections.filter fun x => x.isFor logical
  let s := (xs.foldl (fun s x => s.writeSection dram x) s).mapChannels
  (xs.filter fun x => x.ty = 1).foldl (fun s x =>
    s.modTile x.unit.toNat fun t => { t with seq := { t.seq with genEn := img.req.getLsbD 96 } }) s

/-- The tiles of the program: those that hold a type 1 section. -/
def Image.tiles (img : Image) (logical : Nat) : List Nat :=
  ((img.sections.filter fun x => x.ty = 1 && x.isFor logical).map fun x => x.unit.toNat).dedup

/-! ## Checks of the tables -/

/-- R240, R241: one descriptor of field `f`. An entry of KIND 0 is unused, and its other fields may hold anything; what is
reserved must be 0 in every entry (R9; DESIGN CHOICE, log entry 128). -/
def descOk (grade : BitVec 2) (f : Nat) (d : Line) : Bool :=
  let k := descKind d
  let m64 (n : Nat) : Bool := n % 64 = 0
  d &&& ~~~(BitVec.ofNat 512 descBits) = 0 && (k = 0 ||
  (k ≤ 3 && 1 ≤ descLead d && descLead d ≤ 8 && descTile d / 48 = f
    && tileIn grade (descTile d) && descFq d ≤ 3 && (k = 2 || descFq d = 0) && (k != 3 || descChan d = localChan)
    && m64 (descDaddr d) && m64 (descSaddr d) && 1 ≤ descBlk d && descBlk d ≤ 64 && 1 ≤ descCount d
    && descCount d ≤ 16777216 && m64 (d.extractLsb' 224 32).toNat && m64 (descSstride d) && descSstride d < 0x140000
    && m64 (d.extractLsb' 288 64).toNat && (k != 2 || (descRtill d).isNone) && (k != 3 || (descRtill d).isSome)))

/-- R304: one channel entry of an image. -/
def State.chanOk (s : State) (e : Line) : Bool :=
  let k := chanKind e
  let zero (lo w : Nat) : Bool := (e.toNat / 2 ^ lo) % 2 ^ w = 0
  let spillOk : Bool := chanSsize e != 1 && chanSbase e % 64 = 0 && s.freeDram (chanSbase e) (64 * chanSsize e)
  k ≤ 4 && e &&& ~~~(BitVec.ofNat 512 chanBits) = 0
    && (k = 0 || 3 ≤ (chanVc e).toNat) && !e.getLsbD 11
    && (k != 4 || zero 16 12)
    && (if k = 1 then 1 ≤ chanSize e && chanBase e + chanSize e ≤ 2 ^ 48 else zero 64 48 && zero 128 48)
    && (k = 2 || zero 176 15)
    && (if k = 3 then 1 ≤ chanRcoins e else zero 192 12 && zero 208 24)
    && (if k = 4 then chanMfirst e ≤ 16383 && 2 ≤ chanMcount e && chanMcount e ≤ 64
          && chanMfirst e + chanMcount e ≤ 16384 && chanTree e ≤ 1023
        else zero 240 16 && zero 256 8 && zero 272 16)
    && (if k = 3 || k = 4 then spillOk else zero 288 48 && zero 336 32)

/-- R312: one ring end. An entry of RCOINS 0 is unused. -/
def State.rendOk (s : State) (e : BitVec 256) : Bool :=
  let inMem (a n : Nat) : Bool :=
    s.freeDram a n || (match place s.grade true a, place s.grade true (a + n - 1) with
      | .pad t _, .pad u _ => t = u
      | _, _ => false)
  e &&& ~~~(BitVec.ofNat 256 rendBits) = 0
    && (rendCoins e = 0 || (rendBase e % 64 = 0 && rendFbase e % 4 = 0 && inMem (rendBase e) (64 * rendCoins e)
      && inMem (rendFbase e) (4 * rendCoins e)))


/-- R381: one reduction window of a die, enabled or not. -/
def State.rwinOk (s : State) (d : Nat) (e : BitVec 256) : Bool :=
  e &&& ~~~(BitVec.ofNat 256 rwinBits) = 0
    && rwinBase e % 64 = 0 && 1 ≤ rwinLines e && rwinLines e ≤ 262144
    && s.freeDram (rwinBase e) (64 * rwinLines e)
    && (match place s.grade true (rwinBase e), place s.grade true (rwinBase e + 64 * rwinLines e - 1) with
      | .dram k _, .dram j _ => k / 3 = d && j / 3 = d
      | _, _ => false)

/-- The windows of a die do not overlap. -/
def rwinsApart (grade : BitVec 2) : List (BitVec 256) → Bool
  | [] => true
  | e :: es =>
    (es.all fun f => !overlap grade (rwinBase e) (64 * rwinLines e) (rwinBase f) (64 * rwinLines f)) && rwinsApart grade es

/-- R333: a member mask is one run of set bits. -/
def oneRun (m : BitVec 8) : Bool :=
  (List.range 8).any fun lo => (List.range 9).any fun n => lo + n ≤ 8 && m.toNat = (2 ^ n - 1) * 2 ^ lo

/-- R404: an intake names a ring channel of this device that never spills. -/
def State.intakeOk (s : State) (logical : Nat) (e : BitVec 128) : Bool :=
  let c := (s.chan (intakeChan e)).entry
  e &&& ~~~(BitVec.ofNat 128 intakeBits) = 0
    && (!intakeOn e || (1 ≤ intakeMax e && intakeMax e ≤ 8192 && chanKind c = 3 && (chanDev c).toNat = logical
      && chanSsize c = 0 && 32 + intakeMax e ≤ 64 * chanRcoins c))

/-- The tables that the sections of logical device `l` give. -/
def State.tablesOf (s : State) (img : Image) (l : Nat) : State := s.clearListed.writeImage false img l

/-- R306, R307: the ring end of every ring channel of the tables `x` holds the same RCOINS, on the device DEV. -/
def State.ringsAgree (s : State) (img : Image) (x : State) : Bool :=
  x.heath.channels.all fun c =>
    let e := c.2.entry
    chanKind e != 3 ||
      rendCoins ((s.tablesOf img (chanDev e).toNat).ringEnd (chanRendDie e).toNat (chanRendIndex e).toNat).entry = chanRcoins e

/-- Every table that the sections of logical device `l` give meets the rules of its owner. -/
def State.tablesOk (s : State) (img : Image) (l : Nat) : Bool :=
  let x := s.tablesOf img l
  (x.fab.fields.all fun f =>
    (f.2.desc.all fun d => descOk s.grade f.1 d.2) && (f.2.escDef.all fun e => oneRun e.2)
      && (f.2.fset.all fun e => if e.1 % 1024 < 640 then !fieldEntryBad (e.1 % 1024) e.2 else 1024 ≤ e.1))
    && (x.fab.dies.all fun d =>
      (d.2.dset.all fun e => !dieEntryBad s.grade e.2) && (d.2.ringEnds.all fun r => s.rendOk r.2.entry)
        && (d.2.rwins.all fun w => s.rwinOk d.1 w.2)
        && rwinsApart s.grade (d.2.rwins.map Prod.snd))
    && (s.surv.plan.all x.planClear)
    && (x.heath.channels.all fun c => s.chanOk c.2.entry && (chanKind c.2.entry != 4
      || (x.members c.2.entry).all fun m => chanKind (x.chan m).entry = 3))
    && (x.heath.mlist.all fun m => m.2.toNat < 16384)
    && s.ringsAgree img x
    && (x.house.intakes.all fun i => x.intakeOk l i.2)
    && (let cfg := x.house.receiptCfg
        cfg = s.house.receiptCfg || ((cfg.setWidth 48).toNat % 64 = 0 && 1 ≤ (cfg.toNat / 2 ^ 48) && cfg.toNat / 2 ^ 48 ≤ 128))

/-- The checks of R437, steps 3 and 4. -/
def State.imageCheck (s : State) (img : Image) (logical : Nat) : Except Refused Unit := do
  require (reqFormOk img.req) (badArg 1)
  s.reqCheck img.req
  require (img.sections.all fun x => !s.namesAbsent x) (absent 7)
  require (img.sections.all (s.sectionOk (img.req.getLsbD 66))) (badArg 1)
  require (((img.sections.filter fun x => x.ty != 4).map fun x => x.data.length).sum ≤ 2 ^ 30 - 2 ^ 19) (badArg 1)
  let ls := (logical :: (img.sections.filterMap fun x =>
    if x.logical = 0xFFFF then none else some x.logical.toNat)).dedup
  require (ls.all (s.tablesOk img)) (badArg 1)

/-! ## Arming (R100, R180, R213, R296, R311, R332, R438) -/

/-- The state of a tile at ARM and at each replay start (R100, R135, R213). A V result or a pass still in flight at a replay
start is dropped, and EXA and the FP64 pipe are free; an LDW, an OCW and the reads of the scratchpad go on (DESIGN CHOICE, log
entry 127). -/
def Tile.setUp (x : Tile) : Tile :=
  let x := x.takeShadows
  { x with
    seq := { x.seq with pc := 0, loops := [], ag := x.seq.agLoad, ended := false, idling := false, resumeAt := none, stopped := false }
    bundle := none
    mx := { x.mx with banks := [], passes := [] }
    vec := { x.vec with vregs := [], exa := [], results := [], exaUntil := none, fp64Until := none
                        ctr := x.vec.ctrLoad }
    marks := x.marks.filter fun c => !(markKey 3 0 ≤ c.1 && c.1 < markKey 4 0) && !(markKey 6 2 ≤ c.1 && c.1 < markKey 7 0) }

/-- A tile at ARM: its units are clear besides what the image gives (R180, R213). -/
def Tile.armed (x : Tile) : Tile :=
  let x := x.setUp
  { x with
    seq := { x.seq with run := false, gen := 0 }
    mx := {}
    vec := { x.vec with fpflags := 0 }
    ends := [], vqs := [], petty := {}, esc := {}, east := [], west := [], waits := [], drains := [], req := none
    arrived := [], drives := [], taps := []
    marks := x.marks.filter fun c => c.1 < markKey 1 0 || (markKey 4 0 ≤ c.1 && c.1 < markKey 5 0) }

/-- The tills of the loaded image (R296, R436). A return till starts at 0, as it always reads (R317). -/
def State.imageTills (s : State) : SMap (BitVec 32) :=
  let p := s.stew.program
  let tills : SMap (BitVec 32) := (p.sections.filter fun x => x.ty = 11 && x.isFor p.logical.toNat).foldl (fun m x =>
    match x.words with
    | some ws => ws.foldl (fun m w => Sparse.set 0 m (x.unit.toNat * 8192 + w.1 / 4) w.2) m
    | none => m) []
  tills.filter fun t => (s.returnTill (BitVec.ofNat 15 t.1)).isNone

/-- ARM's check of the active device map (R438). -/
def State.mapReady (s : State) : Bool :=
  let p := s.stew.program
  let e (n : Nat) := Sparse.get 0 s.devmap n
  ((List.range (reqDevices p.req)).all fun n => (e n).getLsbD 31)
    && (e p.logical.toNat).getLsbD 31 && (e p.logical.toNat).setWidth 12 = s.heath.id

/-- A channel at ARM: every coin held (R311, R332). -/
def Channel.armed (c : Channel) : Channel :=
  { entry := c.entry, held := if chanKind c.entry = 3 then BitVec.ofNat 24 (chanRcoins c.entry) else 0
    nextTid := c.nextTid }

/-- ARM prepares the loaded program without starting it (R438); after a program reset it writes the sections again
(R513). -/
def State.armProgram (s : State) : State :=
  let p := s.stew.program
  let s := if p.rewrite then s.writeImage false { req := p.req, sections := p.sections } p.logical.toNat else s
  let s := p.tiles.foldl (fun s t => s.modTile t Tile.armed) s
  let tills := s.imageTills
  { s with
    fab := { s.fab with
      tills := tills, tillQueue := [], scc := 0, transits := [], drains := []
      fields := Sparse.mapD {} (fun (x : Field) => { x with spineCur := 0, dyn := [] }) s.fab.fields
      dies := Sparse.mapD {} (fun (d : Die) => { d with
        ringEnds := d.ringEnds.map fun (e : Nat × RingEnd) => (e.1, { entry := e.2.entry }) }) s.fab.dies
      hold := { s.fab.hold with stopAt := if s.fab.hold.held then some 0 else none } }
    heath := { s.heath with
      channels := s.heath.channels.map fun (c : Nat × Channel) => (c.1, c.2.armed), receivers := [] }
    house := { s.house with stopped := false, arrivals := [] }
    stew := { s.stew with
      state := 3, holdAsked := false
      program := { p with
        armed := true, started := false, aborted := false, startAt := none, startDue := none, remaining := some 0
        replays := 0, everArmed := true, rewrite := false, spills := true } }
    surv := { s.surv with reports := [], lossAsked := false, lossLine := none, endReported := false
                          ctillSeen := (s.surv.plan.map fun q => Sparse.get 0 tills (planTill q).toNat).getD 0, copying := none, verifying := false } }

/-! ## Program resets and their causes (R440, R482, R497, R510, R514) -/

/-- What the steward does after the program reset that a cause asked for: an expelled device leaves its program (R482); a
recovery arms it anew from the committed step (R497), but not after a trip (R518). -/
def State.afterReset (s : State) : ResetCause → State
  | .stop => s
  | .expelled =>
    { s with
      stew := { s.stew with program := {}, state := if s.stew.state = 2 then 1 else s.stew.state }
      surv := { s.surv with plan := none, partnerPlan := none, recovering := false } }
  | .recovery left c verify =>
    if s.power.trip then s else
    let s := s.armProgram
    { s with
      stew := { s.stew with program := { s.stew.program with
        remaining := left, started := verify, startAt := if verify then some 0 else none } }
      surv := { s.surv with commit := c, verify := true } }

/-- The program reset that is asked is made once every ticket is completed (R414, R514). After the loss of the reference in the
counting house or the vault the tickets wait for the warm reset (R59). -/
def State.tryReset (s : State) : State :=
  match s.stew.resetAsked with
  | none => s
  | some c =>
    let lost : Bool := (s.island 92).lost || (s.island 95).lost
    let s := if lost then s else s.endTickets
    if lost || s.ticketsEnded then s.programReset.afterReset c else s

/-- A cause of a program reset (R510) has come. -/
def State.askReset (s : State) (c : ResetCause) : State :=
  { s with stew := { s.stew with resetAsked := some c } }.tryReset

/-- PROGRAM_RESET: the reset that one of the causes of R510 asked for goes on. -/
def execProgramReset (s : State) : Answer := .next (if s.inService then s.tryReset else s)

end Sys2Proof.Machine
end

