-- ==== Sys2Proof/Machine/Messages.lean ====
section
/-!
DEFINITION. The stewards' CONTROL messages (R363): link training (R462), deaths and expulsions (R481, R482), plans and commits
(R485–R487, R499), coin counts (R87, R329), reconciliation (R326), ring-end checks (R308), recovery (R497, R498), twins
(R500); and firmware aborts (R442).
-/
namespace Sys2Proof.Machine

/-! ## Link training (R351, R462, R482) -/

/-- The proof over the two nonces, once both are known and it has not been sent. A vault that has lost its reference signs nothing
(R59). -/
def State.proveLink (s : State) (k : Nat) : State :=
  let l := s.link k
  match l.myNonce, l.peerNonce with
  | some mine, some peer =>
    if l.proofSent || (s.island 95).lost then s
    else
      let own := bytesOf s.ownerDigest.toNat 32
      let sig := s.vault.sign "SG4-LINK" (bytesOf peer.toNat 32 ++ bytesOf mine.toNat 32 ++ own)
      (s.modLink k fun l => { l with proofSent := true }).sendControl 0xFFF (some (BitVec.ofNat 5 k)) 2
        (own ++ sig ++ bytesOf Config.certificates.length 4 ++ Config.certificates)
  | _, _ => s

/-- The link trains, so LINK_NONCE and LINK_PROOF mean something on it. -/
def State.inTraining (s : State) (k : Nat) : Bool :=
  linkIn s.grade k && (s.link k).enable && ((s.link k).st = 2 || (s.link k).st = 4)

/-- LINK_NONCE: the peer's nonce. -/
def execLinkNonce (c : Control) (nonce : BitVec 256) (s : State) : Answer :=
  let k := c.link.toNat
  .next (if s.inTraining k then (s.modLink k fun l => { l with peerNonce := some nonce }).proveLink k else s)

/-- A LINK_PROOF of a peer holds (R462): its chain verifies to the ROOT, its signature verifies under the chain's leaf over this
side's nonce, the peer's and the owner digest, and the owner digests are equal. -/
def State.proofHolds (s : State) (k : Nat) (owner : BitVec 256) (chain : Chain) (signature : Signature) : Bool :=
  match (s.link k).myNonce, (s.link k).peerNonce with
  | some mine, some peer =>
    chain.root = rootDigest && owner = s.ownerDigest
      && verifies signature chain.leaf "SG4-LINK" (bytesOf mine.toNat 32 ++ bytesOf peer.toNat 32 ++ bytesOf owner.toNat 32)
  | _, _ => false

/-- LINK_PROOF: a good proof of a peer with the same owner sets PEER_OK and brings the link up. A peer that was declared
dead hears over this link that it is expelled, and once its number is another's it counts among the living again. In return mode no link comes up (R475). -/
def execLinkProof (c : Control) (owner : BitVec 256) (chain : Chain) (signature : Signature) (s : State) : Answer :=
  let k := c.link.toNat
  let l := s.link k
  .next (
    if s.inTraining k && s.proofHolds k owner chain signature && s.stew.state != 8 then
      let s := (s.modLink k fun l => { l with peerOk := true }).linkComesUp k
      match s.surv.dead.find? fun d => d.1 = l.peer with
      | some d =>
        let img := match s.stew.program.digest with | some x => x.toNat | none => 0
        let s := s.sendControl l.peer (some c.link) 4 (bytesOf d.2.toNat 2 ++ bytesOf img 32)
        if s.physOf d.2 = some d.1 then s
        else { s with surv := { s.surv with dead := s.surv.dead.filter fun e => e != d } }
      | none => s
    else s)

/-! ## Deaths (R481, R482, R497, R500) -/

/-- The twin of a device that is declared dead records the takeover (R500). -/
def State.takeOver (s : State) (logical : BitVec 12) (time : BitVec 64) : State :=
  if s.surv.twin != some logical then s
  else
    let (e, l, h) := s.surv.twinSeal.getD (0, 0, 0)
    let rqd := digest24 (bytesOf (Config.peerIdentity logical.toNat).toNat 32 ++ bytesOf e.toNat 4 ++ bytesOf l.toNat 8
      ++ bytesOf h.toNat 32)
    s.append (plainRecord 0x0A 0 rqd (digest24 (bytesOf logical.toNat 2 ++ bytesOf time.toNat 8)))

/-- A device of the program is dead: the program aborts, and under a plan the recovery begins. The twin of a device that
dies serves on (R500). -/
def State.peerDies (s : State) (phys logical : BitVec 12) (time : BitVec 64) : State :=
  if s.surv.dead.contains (phys, logical) then s
  else if s.surv.twin = some logical then
    ({ s with surv := { s.surv with dead := s.surv.dead ++ [(phys, logical)] } }).takeOver logical time
  else
    let s := s.abort 0x87 logical.toNat
    let s := { s with surv := { s.surv with
      dead := s.surv.dead ++ [(phys, logical)], events := s.surv.events + 1, recovering := s.surv.plan.isSome
      recoverStep := s.surv.commit } }
    if s.leads then s.setInterval else s

/-- No heartbeat has come from the neighbour on link `k` for 500 µs, though one came before. -/
def State.silent (s : State) (k : Nat) : Bool :=
  match (s.link k).heard with
  | some t => s.passed t (500 * usUnits)
  | none => false

/-- The links on which a neighbour has been heard. -/
def State.neighbourLinks (s : State) : List Nat :=
  (List.range 20).filter fun k => linkIn s.grade k && (s.link k).enable && (s.link k).heard.isSome

/-- DEATH_DECLARATION: no heartbeat on any link that the two devices share. -/
def execDeathDeclaration (phys : BitVec 12) (s : State) : Answer :=
  let ks := s.neighbourLinks.filter fun k => (s.link k).peer = phys
  .next (
    if ks.isEmpty || !(ks.all s.silent) || s.surv.dead.any fun d => d.1 = phys then s
    else
      let s := s.count .steward 0xA9 0 1
      match s.stew.program.digest, s.logicalOf phys with
      | some img, some l =>
        if !s.devices.contains l then
          { s with surv := { s.surv with dead := s.surv.dead ++ [(phys, l)] } }.takeOver l s.now
        else
          let data := bytesOf phys.toNat 2 ++ bytesOf l.toNat 2 ++ bytesOf img.toNat 32 ++ bytesOf s.now.toNat 8
          let s := s.devices.foldl (fun s d =>
            if d = s.logical || d = l then s
            else match s.physOf d with
              | some p => s.sendControl p none 3 data
              | none => s) s
          s.peerDies phys l s.now
      | _, _ => { s with surv := { s.surv with dead := s.surv.dead ++ [(phys, 0)] } })

/-- DEATH: another steward has declared a device of this program dead. -/
def execDeath (_c : Control) (phys : BitVec 12) (logical : BitVec 12) (image : BitVec 256) (time : BitVec 64)
    (s : State) : Answer :=
  .next (if s.stew.program.digest = some image then s.peerDies phys logical time else s)

/-- ISOLATION: no neighbour has been heard for 500 µs, so the device aborts its own program. -/
def execIsolation (s : State) : Answer :=
  .next (if !s.neighbourLinks.isEmpty && s.neighbourLinks.all s.silent && !s.stew.program.aborted then
      s.abort 0x87 s.logical.toNat
    else s)

/-- EXPELLED: this device was declared dead; it leaves the program (R482). -/
def execExpelled (_c : Control) (logical : BitVec 12) (image : BitVec 256) (s : State) : Answer :=
  .next (
    if s.stew.program.digest = some image && s.logical = logical then
      s.askReset .expelled
    else s)

/-! ## Plans (R485) -/

/-- The answer of the buddy: 0 accepted, or the reason of a refusal. -/
def State.planReason (s : State) (own : Line) (src : BitVec 12) (plan : Line) (grade : BitVec 2) (feed : BitVec 4) : Nat :=
  if s.logicalOf src != some (planBuddy own) || planBuddy plan != s.logical then 1
  else if grade != s.grade then 2
  else if planSize plan != planSize own || planStaticSize plan != planStaticSize own then 3
  else if feed = s.stew.feedId && !(planForce own && planForce plan) then 4
  else 0

/-- PLAN_CHECK: the sender's plan names this device. -/
def execPlanCheck (c : Control) (plan : Line) (image : BitVec 256) (grade : BitVec 2) (feed : BitVec 4) (s : State) :
    Answer :=
  let r := match s.surv.asked.or s.surv.plan with
    | some own => if s.stew.program.digest = some image then s.planReason own c.src plan grade feed else 1
    | none => 1
  let fated : Bool := r = 0 && feed = s.stew.feedId
  let s := if r = 0 then { s with surv := { s.surv with partnerPlan := some plan, partnerPhys := c.src, cofated := fated } }
    else s
  .next (s.sendControl c.src none 6 [if r = 0 then 0 else 1, BitVec.ofNat 8 r, if fated then 1 else 0])

/-- SNAPSHOT 1 learns the buddy's answer. -/
def State.answerPlan (s : State) (ok : Bool) : State :=
  { s with stew := { s.stew with longOp := s.stew.longOp.map fun (o : LongOp) =>
      match o.work with
      | .plan _ => { o with work := .plan (some ok) }
      | _ => o } }

/-- PLAN_ANSWER: the buddy accepts the plan that was asked, or refuses it. -/
def execPlanAnswer (c : Control) (refuses : Bool) (_reason : BitVec 8) (cofated : Bool) (s : State) : Answer :=
  .next (match s.surv.asked with
    | none => s
    | some p =>
      if s.logicalOf c.src != some (planBuddy p) then s
      else if refuses || (cofated && !planForce p) then ({ s with surv := { s.surv with asked := none } }).answerPlan false
      else ({ s with surv := { s.surv with
        asked := none, plan := some p, planSince := s.clk.clk, partnerPhys := c.src, cofated := cofated
        staticCopied := false, events := 0, replayTimes := [], overlapTimes := [], delta := none, interval := 0 } }).answerPlan
          true)

/-! ## Reports and commits (R487, R493) -/

/-- The leader lets every device start anew from the recovered state (R497). -/
def State.rearm (s : State) : State :=
  let p := s.stew.program
  let again := (s.surv.stepRun - s.surv.recoverStep).toNat
  let left := if s.surv.recoverStep.toNat < s.surv.stepRun.toNat then p.remaining.map (· + again) else p.remaining
  s.askReset (.recovery left s.surv.recoverStep false)

/-- The verification replay may begin at once, or when the program reset that comes before it is made. -/
def State.startVerify (s : State) : State :=
  match s.stew.resetAsked with
  | some (.recovery left c _) => { s with stew := { s.stew with resetAsked := some (.recovery left c true) } }
  | _ => { s with stew := { s.stew with program := { s.stew.program with started := true, startAt := some 0 } } }

/-- RESUME is acted on: 1 program reset and ARM, 2 start the verification replay, 3 resume, 4 recovery lost, 5 the verification
replay differs (the code 5: DESIGN CHOICE, log entry 62). -/
def State.resumeHere (s : State) (step : BitVec 64) (what : BitVec 8) : State :=
  if what = 1 then { s with surv := { s.surv with recoverStep := step } }.rearm
  else if what = 2 then s.startVerify
  else if what = 3 then { s with surv := { s.surv with verify := false, verifying := false, recovering := false } }
  else if what = 5 then s.mismatch
  else if what = 4 then
    { s with
      surv := { s.surv with lost := true, recovering := false }
      stew := { s.stew with state := if s.stew.state = 2 || s.stew.state = 3 then 5 else s.stew.state } }
  else s

/-- The leader announces a RESUME and acts on it. -/
def State.announce (s : State) (step : BitVec 64) (what : BitVec 8) : State :=
  (s.tellAll 15 (bytesOf step.toNat 8 ++ [what])).resumeHere step what

/-- The spare holds all four regions: every device rearms, and the verification replay starts. -/
def State.recovered (s : State) : State :=
  let c := s.surv.recoverStep
  (s.announce c 1).announce c 2

/-- REPORT: a device's report to the leader. During recovery the partner reports its copy to the spare so. -/
def execReport (_c : Control) (step : BitVec 64) (logical : BitVec 12) (copied : Bool) (ended : ReportEnd)
    (s : State) : Answer :=
  .next (
    if !s.leads then s
    else if ended.snapshot then s.askSnapshot
    else if s.surv.recovering && copied && step = s.surv.recoverStep && !s.surv.verify then s.recovered
    else s.noteReport logical step copied ended.ended)

/-- COMMIT: the leader has committed a step. -/
def execCommit (c : Control) (step : BitVec 64) (loss : BitVec 32) (snapshot : Bool) (s : State) : Answer :=
  .next (if s.surv.plan.isSome && s.logicalOf c.src = some s.leader then s.commitHere step loss snapshot else s)

/-! ## Coin counts (R87, R329) -/

/-- What the two ends of a ring show at a coin count; `lodged` and `held` with their return counts are absent while the
other steward's half is. -/
structure RingCount where
  chan : BitVec 14
  coins : Nat
  sender : Option (Bool × BitVec 32 × BitVec 32)
  ringEnd : Option (BitVec 32 × BitVec 32)
  deriving DecidableEq, Repr

/-- The sender's half of a channel: its spill region is empty, HELD and RETIN. -/
def Channel.ownHalf (c : Channel) : Bool × BitVec 32 × BitVec 32 := (c.spill.isEmpty, c.held.setWidth 32, c.retin)
/-- The ring end's half: LODGED and RETOUT. -/
def RingEnd.ownHalf (r : RingEnd) : BitVec 32 × BitVec 32 := (r.lodged.setWidth 32, r.retout)

/-- The rings of the program with an end on this device: those that it sends on, then those that other devices send on. -/
def State.ringCounts (s : State) : List RingCount :=
  ((s.heath.channels.filter fun c => chanKind c.2.entry = 3).map fun c =>
    let e := c.2.entry
    { chan := BitVec.ofNat 14 c.1, coins := chanRcoins e, sender := some c.2.ownHalf
      ringEnd := if chanDev e = s.logical then
          (s.ringOf s.logical (BitVec.ofNat 14 c.1)).map fun r => r.2.2.ownHalf
        else c.2.half.map fun h => h.2 })
  ++ ((s.openRings.filter fun r => rendDev r.2.2.entry != s.logical).map fun r =>
    { chan := rendChan r.2.2.entry, coins := rendCoins r.2.2.entry, sender := r.2.2.half, ringEnd := some r.2.2.ownHalf })

/-- The ring's returns have all arrived: RETOUT equals RETIN. -/
def RingCount.settled (r : RingCount) : Bool :=
  match r.sender, r.ringEnd with
  | some (_, _, i), some (_, o) => i = o
  | _, _ => false

/-- The detail word of a mismatch (R442), or none. -/
def RingCount.wrong (r : RingCount) : Option Nat :=
  match r.sender, r.ringEnd with
  | some (e, h, _), some (l, _) =>
    let sum : Bool := h.toNat + l.toNat = r.coins
    if e && sum then none else some (r.chan.toNat + (!e).toNat * 2 ^ 14 + (!sum).toNat * 2 ^ 15)
  | _, _ => none

/-- This device's halves go to the stewards of the other ends. -/
def State.sendHalves (s : State) : State :=
  let half (chan : Nat) (d i : Nat) (ringEnd empty : Bool) (coins returned : BitVec 32) : List Byte :=
    bytesOf chan 2 ++ bytesOf (d * 1024 + i) 2 ++ [BitVec.ofNat 8 ringEnd.toNat, BitVec.ofNat 8 empty.toNat]
      ++ bytesOf coins.toNat 4 ++ bytesOf returned.toNat 4
  let s := s.heath.channels.foldl (fun s c =>
    let e := c.2.entry
    if chanKind e != 3 || chanDev e = s.logical then s
    else match s.physOf (chanDev e) with
      | some p =>
        let (em, h, r) := c.2.ownHalf
        s.sendControl p none 9 (half c.1 (chanRendDie e).toNat (chanRendIndex e).toNat false em h r)
      | none => s) s
  s.openRings.foldl (fun s r =>
    let e := r.2.2.entry
    if rendDev e = s.logical then s
    else match s.physOf (rendDev e) with
      | some p =>
        let (l, o) := r.2.2.ownHalf
        s.sendControl p none 9 (half (rendChan e).toNat r.1 r.2.1 true false l o)
      | none => s) s

/-- The halves that the other stewards sent are forgotten. -/
def State.dropHalves (s : State) : State :=
  { s with
    heath := { s.heath with channels := s.heath.channels.map fun (c : Nat × Channel) => (c.1, { c.2 with half := none }) }
    fab := { s.fab with dies := s.fab.dies.map fun (d : Nat × Die) =>
      (d.1, { d.2 with ringEnds := d.2.ringEnds.map fun (r : Nat × RingEnd) => (r.1, { r.2 with half := none }) }) } }

/-- The steward's hold ends, unless HOLD still asks for it. -/
def State.releaseCount (s : State) : State :=
  let s := { s with fab := { s.fab with
    drains := s.fab.drains.map fun (d : Drain) => { d with counted := d.counted || (d.count && d.checked) } } }
  if s.stew.holdAsked then s
  else { s with fab := { s.fab with hold := { s.fab.hold with stewardOff := some s.clk.clk } } }

/-- The fabric stands at a drain that asks for a coin count, whose condition and checks have passed. -/
def State.countDue (s : State) : Bool :=
  s.fab.hold.held && s.fab.hold.steward && !s.fab.hold.halt
    && s.fab.drains.any fun d => d.count && d.checked && !d.counted

/-- COIN_COUNT: the halves are exchanged; once every ring has settled, each is checked and the hold is released. -/
def execCoinCount (s : State) : Answer :=
  .next (
    if !s.countDue then s
    else
      let s := s.sendHalves
      let rs := s.ringCounts
      if !(rs.all RingCount.settled) then s
      else
        let spill := s.heath.channels.findSome? fun c =>
          if chanKind c.2.entry = 4 && !c.2.spill.isEmpty then some (c.1 + 2 ^ 14) else none
        match (rs.findSome? RingCount.wrong).or spill with
        | some d => s.abort 0x83 (BitVec.ofNat 32 d)
        | none => s.dropHalves.releaseCount)

/-- COIN_HALF: the other steward's half of a ring. -/
def execCoinHalf (c : Control) (chan : BitVec 14) (die : BitVec 2) (index : BitVec 10) (ringHalf : Bool)
    (spillEmpty : Bool) (coins : BitVec 32) (returned : BitVec 32) (s : State) : Answer :=
  .next (match s.logicalOf c.src with
    | none => s
    | some l =>
      if ringHalf then
        let ch := s.chan chan.toNat
        if chanKind ch.entry = 3 && chanDev ch.entry = l then
          s.setChan chan.toNat { ch with half := some (spillEmpty, coins, returned) }
        else s
      else
        let r := s.ringEnd die.toNat index.toNat
        if rendCoins r.entry != 0 && rendDev r.entry = l && rendChan r.entry = chan then
          s.setRingEnd die.toNat index.toNat { r with half := some (spillEmpty, coins, returned) }
        else s)

/-! ## Reconciliation after a link death (R326) -/

/-- Transfer `tid` of channel `chan` of device `src` has completed here: on a multicast channel the copy of every member on this
device. -/
def State.hasCompleted (s : State) (src : BitVec 12) (chan : BitVec 14) (tid : BitVec 32) : Bool :=
  let e := (s.chan chan.toNat).entry
  let here (mc : Nat) : Bool := ((s.logicalOf src).bind fun l => s.ringOf l (BitVec.ofNat 14 mc)).isSome
  let own := if chanKind e = 4 then ((s.members e).zipIdx.filter fun x => here x.1).map Prod.snd else []
  let r := s.recv (recvKey src chan 0)
  if r = {} && !own.isEmpty then own.all fun m => (s.recv (recvKey src chan (BitVec.ofNat 7 (m + 1)))).has tid
  else r.has tid

/-- Return `n` of the ring of channel `chan` of this device, sent by device `src`, has reached HELD or waits for its turn. -/
def State.hasReturn (s : State) (src : BitVec 12) (chan : BitVec 14) (n : BitVec 32) : Bool :=
  let ch := s.chan chan.toNat
  chanKind ch.entry = 3 && s.physOf (chanDev ch.entry) = some src
    && ((n - ch.retNext).msb || ch.retWait.any fun r => r.1 = n)

/-- RECONCILE_ASK: the IDs from `first` on that have completed here, and the coins returned. Bit 15 of the channel asks for the
numbers of returns to this device instead (log entry 36). -/
def execReconcileAsk (c : Control) (chan : BitVec 16) (first : BitVec 32) (count : BitVec 13) (s : State) : Answer :=
  let n : BitVec 14 := chan.setWidth 14
  let done (id : BitVec 32) : Bool := if chan.msb then s.hasReturn c.src n id else s.hasCompleted c.src n id
  let bits : Nat := ((List.range (min 4096 count.toNat)).map fun j =>
    if done (first + BitVec.ofNat 32 j) then 2 ^ j else 0).sum
  let ret : BitVec 32 :=
    if chan.msb then (s.chan n.toNat).retin
    else match (s.logicalOf c.src).bind fun l => s.ringOf l n with
      | some (_, _, e) => e.retout
      | none => 0
  .next (s.sendControl c.src none 11 (bytesOf chan.toNat 2 ++ bytesOf first.toNat 4 ++ bytesOf bits 512
    ++ bytesOf ret.toNat 4))

/-- An ID is marked in an answer. -/
def answered (first : BitVec 32) (done : BitVec 4096) (id : BitVec 32) : Bool :=
  (id - first).toNat < 4096 && done.getLsbD (id - first).toNat

/-- What an answer of device `src` shows complete is complete at its sender: a transfer, or the copies of a multicast for the
members on that device. -/
def State.endAnswered (s : State) (src : BitVec 12) (chan : BitVec 14) (t : Transfer) : State :=
  let e := (s.chan chan.toNat).entry
  let pk : Packet := { Packet.blank with src := src, chan := chan, tid := t.tid }
  if s.isRead t then s
  else if chanKind e != 4 then (if s.physOf (chanDev e) = some src then s.takeAck pk else s)
  else ((maskMembers t.owed).filter fun m =>
      s.physOf (chanDev (s.chan ((s.members e).getD m localChan)).entry) = some src).foldl
    (fun s m => s.takeAck { pk with addr := BitVec.ofNat 48 (m + 1) }) s

/-- The buffered packets that an answer shows delivered are dropped (R326): those of a transfer or a return that has completed there,
and the copies of a multicast that is complete. -/
def State.dropAnswered (s : State) (src : BitVec 12) (chan : BitVec 16) (first : BitVec 32) (done : BitVec 4096) : State :=
  let n : BitVec 14 := chan.setWidth 14
  let gone (o : OutPacket) : Bool :=
    o.packet.src = s.heath.id && o.packet.chan = n
      && (if o.ty = .mcast then !chan.msb && (s.transferOf n.toNat o.packet.tid).isNone
        else o.packet.dst = src && answered first done o.packet.tid
          && (if chan.msb then o.ty = .ret else o.ty = .write || o.ty = .ring || o.ty = .signal))
  { s with heath := { s.heath with outq := s.heath.outq.filter fun o => !gone o } }

/-- RECONCILE_ANSWER: what has completed at the receiver is complete here, and is not resent. Returns are compared by their numbers,
so the count `returned` adds nothing (log entry 36). A link reset that waited for the answer goes on (R357). -/
def execReconcileAnswer (c : Control) (chan : BitVec 16) (first : BitVec 32) (done : BitVec 4096)
    (_returned : BitVec 32) (s : State) : Answer :=
  let n : BitVec 14 := chan.setWidth 14
  let ended := if chan.msb then [] else (s.chan n.toNat).transfers.filter fun t => answered first done t.tid
  .next (((ended.foldl (fun s t => s.endAnswered c.src n t) s).dropAnswered c.src chan first done).reconciled c.src chan)

/-- RING_END_CHECK: a question of the ring end's steward carries RCOINS 0 and asks whether the channel is open; one of the
sender's steward, which is about to open the channel, asks whether the ring end exists, names it and holds the same RCOINS. A
channel opens with its positions and counts zero, so a ring end that stayed open while the channel was closed starts anew with it
(R307, R308; DESIGN CHOICE, log entry 131). An answer changes nothing: the command that asked carries it. -/
def execRingEndCheck (c : Control) (chan : BitVec 14) (die : BitVec 2) (index : BitVec 10) (rcoins : BitVec 32)
    (_matching : Bool) (answer : Bool) (s : State) : Answer :=
  .next (
    if answer then s
    else
      let r := (s.ringEnd die.toNat index.toNat).entry
      let ok : Bool :=
        if rcoins = 0 then chanKind (s.chan chan.toNat).entry != 0
        else s.logicalOf c.src = some (rendDev r) && rendChan r = chan && rendCoins r = rcoins.toNat
      let s := if rcoins != 0 && ok then s.restartRing die.toNat index.toNat else s
      s.sendControl c.src none 12 (bytesOf chan.toNat 2 ++ bytesOf (die.toNat * 1024 + index.toNat) 2
        ++ bytesOf rcoins.toNat 4 ++ [BitVec.ofNat 8 ok.toNat, 1]))

/-! ## Recovery (R497, R498) -/

/-- A route entry without the choices whose link leads to a dead device. -/
def State.cutRoute (s : State) (dead : List (BitVec 12)) (e : BitVec 32) : BitVec 32 :=
  (List.range 4).foldl (fun (a : BitVec 32) i =>
    let c := (e.extractLsb' (8 * i) 8).toNat
    if c / 128 = 1 && dead.contains (s.link (c % 32)).peer && (s.link (c % 32)).heard.isSome then
      a &&& ~~~((0x80 : BitVec 32) <<< (8 * i))
    else a) e

/-- The redrawn map goes into the inactive bank, the routes through dead devices go, and the bank is selected as soon as R366
allows. -/
def State.redraw (s : State) (logical phys : BitVec 12) : State :=
  let m := Sparse.set 0 s.devmap logical.toNat (phys.setWidth 32 ||| 0x80000000)
  let dead := s.surv.dead.map Prod.fst
  let h := s.heath
  let s := { s with
    surv := { s.surv with mapDue := true }
    heath := { h with
      devmapA := if h.devSel then m else h.devmapA
      devmapB := if h.devSel then h.devmapB else m
      route := Sparse.mapD 0 (s.cutRoute dead) h.route } }
  s.selectRedrawn

/-- The partner sends the spare its join message, its own plan, which the spare needs as any buddy does (R485, R487; DESIGN CHOICE,
log entry 138), and the four regions (R497, step 5). -/
def State.refill (s : State) (logical phys : BitVec 12) : State :=
  match s.surv.plan, s.surv.partnerPlan, s.stew.program.digest with
  | some own, some his, some img =>
    if planBuddy own != logical then s
    else
      let k := s.surv.recoverStep
      let odd : Bool := k.getLsbD 0
      let n := planSize own
      let t := planStaticSize own
      let slot := if odd then n else 0
      let s := s.sendControl phys none 14 (bytesOf logical.toNat 2 ++ bytesOf img.toNat 32 ++ bytesOf k.toNat 8
        ++ bytesOf his.toNat 64)
      let s := { s with surv := { s.surv with partnerPhys := phys } }
      let s := s.sendControl phys none 5 (bytesOf own.toNat 64 ++ bytesOf img.toNat 32
        ++ [s.grade.setWidth 8, s.stew.feedId.setWidth 8])
      match s.copyChannel logical 0 (2 ^ 48 - 1) with
      | (s, some c) =>
        let s := s.sendPieces c (planBuddyBase own + slot) (planState his odd) (n / 256)
        let s := s.sendPieces c (planBuddyBase own + 2 * n) (planStatic his) (t / 256)
        let s := s.sendPieces c (planState own odd) (planBuddyBase his + slot) (n / 256)
        let s := s.sendPieces c (planStatic own) (planBuddyBase his + 2 * n) (t / 256)
        { s with surv := { s.surv with copying := some k } }
      | (s, none) => s
  | _, _, _ => s

/-- MAP: the leader's choice of a spare. The leader's own choice reaches it as a MAP from itself, which it sends on, to the spare as
well. The device that is chosen counts among the living. -/
def execMap (c : Control) (logical : BitVec 12) (phys : BitVec 12) (image : BitVec 256) (step : BitVec 64) (s : State) :
    Answer :=
  .next (
    if phys = s.heath.id && s.surv.spare.any fun x => x.2.2 = image then s.redraw logical phys
    else if s.stew.program.digest != some image then s
    else
      let data := bytesOf logical.toNat 2 ++ bytesOf phys.toNat 2 ++ bytesOf image.toNat 32 ++ bytesOf step.toNat 8
      let s := if c.src = s.heath.id && s.leads then (s.tellAll 13 data).sendControl phys none 13 data else s
      let s := { s with surv := { s.surv with
        dead := s.surv.dead.filter fun d => d.1 != phys, recoverStep := step, recovering := true } }
      (s.redraw logical phys).refill logical phys)

/-- The loaded program of an image. -/
def State.setProgram (s : State) (digest : BitVec 256) (img : Image) (logical : BitVec 12) : State :=
  { s with stew := { s.stew with
      state := if s.power.trip then 5 else 2
      program := { digest := some digest, req := img.req, logical := logical
                   sections := img.sections.filter fun x => x.ty != 4, tiles := img.tiles logical.toNat } } }

/-- SPARE_JOIN: a spare that is in no program loads its staged image with the dead device's number, which its device map then gives
it, and takes its plan and its partner (R496, R497). -/
def execSpareJoin (_c : Control) (logical : BitVec 12) (image : BitVec 256) (step : BitVec 64) (plan : Line) (s : State) :
    Answer :=
  .next (match s.surv.spare with
    | none => s
    | some (a, n, d) =>
      if d != image || s.stew.program.armed || s.surv.plan.isSome then s
      else
        match s.readDram a.toNat n.toNat with
        | (s, none) => s
        | (s, some bs) =>
          match (s.plainImage bs d).bind fun x => (parseImage x.2).map fun i => (x.1, i) with
          | none => s
          | some (dig, img) =>
            match s.imageCheck img logical.toNat with
            | .error _ => s
            | .ok _ =>
              let s := (s.clearListed.writeImage true img logical.toNat).setProgram dig img logical
              let s := { s with vault := { s.vault with mrRun := 0, log := s.vault.log.take 4, runCount := 0 } }
              let s := (s.measure 5 dig).append (plainRecord 5 0 0 0)
              let s := s.redraw logical s.heath.id
              { s with surv := { s.surv with
                partnerPhys := (s.physOf (planBuddy plan)).getD 0
                spare := none, plan := some plan, planSince := s.clk.clk, recovering := true, recoverStep := step } })

/-- RESUME. The leader's own decision that recovery is lost (R498) reaches it as a RESUME from itself. -/
def execResume (c : Control) (step : BitVec 64) (what : BitVec 8) (s : State) : Answer :=
  .next (
    if s.surv.plan.isNone then s
    else if c.src = s.heath.id && s.leads then s.announce step what
    else if s.logicalOf c.src = some s.leader then s.resumeHere step what
    else s)

/-- SEAL_REPORT: the twin's newest seal (R500). -/
def execSealReport (c : Control) (epoch : BitVec 32) (last : BitVec 64) (head : BitVec 256) (s : State) : Answer :=
  .next (if s.surv.twin.isSome && s.logicalOf c.src = s.surv.twin then
      { s with surv := { s.surv with twinSeal := some (epoch, last, head) } }
    else s)

/-! ## Firmware aborts (R442) -/

/-- The code and the detail word of a unit's error; none while the unit reports none. -/
def State.abortOf (s : State) (a : AbortSource) : Option (BitVec 8 × BitVec 32) :=
  match a with
  | .fetch f =>
    let x := s.field f.toNat
    if x.err then
      some (0x80, BitVec.ofNat 32 (f.toNat + x.errDesc.toNat * 2 ^ 4 + (x.fetchErr.toNat / 2 ^ 48) * 2 ^ 12))
    else none
  | .gleaner k =>
    let x := s.stack k.toNat
    let e := x.gleanErr.toNat
    if x.fault then
      some (0x81, BitVec.ofNat 32 (k.toNat + e / 2 ^ 10 % 16 * 2 ^ 4 + e % 1024 * 2 ^ 8 + e / 2 ^ 14 % 1024 * 2 ^ 18))
    else none
  | .channel c => if (s.chan c.toNat).err then some (0x82, c.setWidth 32) else none
  | .ringEnd d i =>
    let r := s.ringEnd d.toNat i.toNat
    if r.err then
      some (0x82, BitVec.ofNat 32 ((rendChan r.entry).toNat + 2 ^ 14 + i.toNat * 2 ^ 16 + d.toNat * 2 ^ 26))
    else none
  | .route p => if s.heath.routeFault = some p then some (0x84, p.setWidth 32) else none
  | .outbox => if s.house.err then some (0x85, s.house.errCause.setWidth 32) else none

/-- FIRMWARE_ABORT: a unit of the running program reports an error. -/
def execFirmwareAbort (cause : AbortSource) (s : State) : Answer :=
  .next (
    if s.stew.program.aborted then s
    else match s.abortOf cause with
      | some (code, detail) => s.abort code detail
      | none => s)

end Sys2Proof.Machine
end

