-- ==== Sys2Proof/Machine/Boxes.lean ====
section
/-!
DEFINITION. The Lolith mailbox protocol (R423–R433): the course of every command, and the commands that load, arm, run and
configure (R437–R444); the start of a replay (R439, R486).
-/
namespace Sys2Proof.Machine

/-! ## Frames and replies (R425–R430) -/

/-- The open session of a mailbox (R424). -/
def State.boxSession (s : State) (mb : BitVec 4) : Option Session :=
  if s.stew.booted then
    s.house.sessions.find? fun x => x.control && x.opened && x.index.toNat = mb.toNat
  else none

def State.mailbox (s : State) (mb : BitVec 4) : MailBox := Sparse.get {} s.stew.mailboxes mb.toNat

/-- A frame leaves on a mailbox's session, with PORT_CFG.DSCP (DESIGN CHOICE, log entry 111). -/
def State.sendFrame (s : State) (y : Session) (o : Output) : State :=
  (s.sendOut y.port y.sub (portDscp (s.subPort y.port y.sub).cfg) o).spendPn y.number

/-- A reply on the session of a mailbox, if it is open. -/
def State.replyFrame (s : State) (mb : BitVec 4) (tag : BitVec 16) (cmd : BitVec 8) (r : Refused) (data : List Byte) :
    State :=
  match s.boxSession mb with
  | none => s
  | some y => s.sendFrame y <| .sealed (y.tagOut y.txpn) (.reply y.number y.txpn mb cmd tag r.1 r.2 (data.take (min 8160 (s.sessionRoom y.number))))

/-- The reply of a completed command, whose TAG, STATUS and result the mailbox keeps (R427). -/
def State.complete (s : State) (mb : BitVec 4) (tag : BitVec 16) (cmd : BitVec 8) (r : Refused) (data : List Byte) :
    State :=
  let box : MailBox := { tag := some tag, status := r.1, detail := r.2, result := data.take 65536 }
  { s with stew := { s.stew with mailboxes := Sparse.set {} s.stew.mailboxes mb.toNat box } }.replyFrame mb tag cmd r data

/-- A BUSY reply about the long operation in progress, with PROGRESS `p` (R429). -/
def State.busyReply (s : State) (f : Frame) (cmd : BitVec 8) (op : LongOp) (p : BitVec 16) : State :=
  match s.boxSession f.mb with
  | none => s
  | some y =>
    let eta := Config.eta s.fresh
    let s := { s.draw with stew := { s.stew with longOp := some { op with progress := p } } }
    (s.sendFrame y <| .sealed (y.tagOut y.txpn) (.busy y.number y.txpn f.mb cmd f.tag op.cmd op.mailbox op.tag p eta s.caps)).count .steward 0xA7 0 1

/-- PROGRESS at a later BUSY reply: it never falls. -/
def State.progress (s : State) (op : LongOp) : BitVec 16 :=
  BitVec.ofNat 16 (max op.progress.toNat (min 1000 (Config.progress s.fresh)))

/-! ## Roles and states (R423, R431–R433, R475) -/

/-- The roles of the table: O owner, P operator, A auditor, S service. -/
def rolesO (r : Nat) : Bool := r = 1
def rolesOP (r : Nat) : Bool := r = 1 || r = 2
def rolesOPA (r : Nat) : Bool := r = 1 || r = 2 || r = 3
def rolesOPS (r : Nat) : Bool := r = 1 || r = 2 || r = 4
def rolesAll (r : Nat) : Bool := 1 ≤ r && r ≤ 4

/-- A command: its code, the roles that may give it, whether it would run the fabric, and whether a device without an
owner executes it. -/
structure Command where
  code : BitVec 8
  roles : Nat → Bool
  fabric : Bool := false
  unowned : Bool := false

/-- The refusal that a command meets before its own checks. -/
def State.bars (s : State) (f : Frame) (c : Command) : Option Refused :=
  if s.stew.state = 8 then
    (if f.mb = 0 && (c.code = 0x01 || c.code = 0x02 || c.code = 0x32) then none else some (denied 2))
  else if !s.owned then (if f.mb = 0 && c.unowned then none else some (denied 3))
  else if !c.roles (s.role f.mb.toNat) then some (denied 1)
  else if c.fabric && s.stew.state = 6 then some (failed 1)
  else if c.fabric && (s.clk.needWarm || s.power.trip) then some (denied 2)
  else none

/-- What a command that passes its checks gives: its result, a reply that comes once a step change is complete (R441), the work
of a long operation, or a refusal that yet changes the state (R164). -/
inductive Done where
  | result (data : List Byte)
  | later
  | refused (r : Refused)
  | long (work : LongWork)
  deriving DecidableEq, Repr

/-- A command's own checks and effect. -/
abbrev Body := State → Except Refused (State × Done)

/-- A command that answers with its result at once. -/
def short (s : State) (data : List Byte) : Except Refused (State × Done) := .ok (s, .result data)

/-- The datagram of a frame arrives on its mailbox's session (R399, R424): whether it is accepted. -/
def State.openFrame (s : State) (f : Frame) : State × Bool :=
  match s.boxSession f.mb with
  | none => (s, false)
  | some y =>
    if y.number != f.d.session then (s, false)
    else
      match s.hear y f.d with
      | (s, none) => (s, false)
      | (s, some _) => (s, true)

/-- The frame and its datagram fit the MTU of the sub-port (R425). -/
def State.frameFits (s : State) (f : Frame) : Bool :=
  f.len.toNat ≤ min 8160 (portMtu (s.subPort f.d.port f.d.sub).cfg - 112)

/-- A request frame on a mailbox runs its course: BUSY, a malformed frame, a repeated TAG, a refusal, or the effect. One that does
not fit the MTU is dropped, and one that comes while a step change is to complete before its reply waits outside (R422, R441; log
entry 134). -/
def State.runFrame (s : State) (f : Frame) (c : Command) (body : Body) : State :=
  if !s.stew.stepReplies.isEmpty || !s.frameFits f then s
  else
  match s.openFrame f with
  | (s, false) => s
  | (s, true) =>
    match s.stew.longOp with
    | some op => s.busyReply f c.code op (s.progress op)
    | none =>
      if f.fkind != 1 || f.rsv != 0 then s.replyFrame f.mb f.tag c.code (badArg 0) []
      else if c.code != 0x02 && (s.mailbox f.mb).tag = some f.tag then
        let b := s.mailbox f.mb
        s.replyFrame f.mb f.tag c.code (b.status, b.detail) b.result
      else
        match s.bars f c with
        | some r =>
          if c.code = 0x02 then s.replyFrame f.mb f.tag c.code r [] else s.complete f.mb f.tag c.code r []
        | none =>
          match body s with
          | .error r => s.complete f.mb f.tag c.code r []
          | .ok (s, .refused r) => s.complete f.mb f.tag c.code r []
          | .ok (s, .result data) =>
            let s := s.count .steward 0xA6 0 1
            if c.code = 0x02 then s.replyFrame f.mb f.tag c.code (0, 0) data
            else s.complete f.mb f.tag c.code (0, 0) data
          | .ok (s, .later) =>
            { s with stew := { s.stew with stepReplies := s.stew.stepReplies ++ [(f.mb, f.tag)] } }.count .steward 0xA6 0 1
          | .ok (s, .long w) =>
            let op : LongOp := { cmd := c.code, mailbox := f.mb, tag := f.tag, work := w }
            ({ s with stew := { s.stew with longOp := some op } }.count .steward 0xA6 0 1).busyReply f c.code op 0

/-- The roles that may give a command of R431; every role for a CMD that it does not list. -/
def rolesOf (cmd : Nat) : Nat → Bool :=
  if [0x10, 0x11, 0x12, 0x13, 0x14, 0x15, 0x16, 0x17, 0x22, 0x24, 0x25, 0x30, 0x31].contains cmd then rolesOP
  else if [0x20, 0x21, 0x23, 0x37].contains cmd then rolesOPS
  else if cmd = 0x26 then rolesOPA
  else if [0x33, 0x34, 0x35, 0x36].contains cmd then rolesO
  else rolesAll

/-- What is wrong with a CMD and a FORM (R431, R457, R501): DETAIL 0 for a CMD that is not listed, 1 for a FORM that is not;
none where both are. -/
def strayDetail (cmd form : Nat) : Option Nat :=
  if !([0x01, 0x02, 0x03, 0x10, 0x11, 0x12, 0x13, 0x14, 0x15, 0x16, 0x17, 0x20, 0x21, 0x22, 0x23, 0x24, 0x25, 0x26, 0x27, 0x30,
      0x31, 0x32, 0x33, 0x34, 0x35, 0x36, 0x37] : List Nat).contains cmd then some 0
  else if cmd = 0x23 && (form < 1 || 3 < form) || cmd = 0x24 && 3 < form || cmd = 0x26 && 1 < form
      || cmd = 0x30 && (form < 1 || 5 < form) || cmd = 0x31 && form != 1 || cmd = 0x33 && (form < 1 || 5 < form) then some 1
  else none

/-- A frame of a row's command, or one with a CMD or FORM that no row has, which is answered BAD_ARG (R431). A CMD and FORM of
another row make it that row's frame: nothing happens. -/
def State.command (s : State) (f : Frame) (c : Command) (body : Body) : State :=
  match f.stray with
  | none => s.runFrame f c body
  | some x =>
    match strayDetail x.1.toNat x.2.toNat with
    | some n => s.runFrame f { code := x.1, roles := rolesOf x.1.toNat } fun _ => .error (badArg n)
    | none => s

def State.noProgram (s : State) : Bool := !s.stew.program.armed


/-! ## Reports -/

/-- QUERY. -/
def execQuery (f : Frame) (s : State) : Answer :=
  .next (s.command f { code := 0x01, roles := rolesAll, unowned := true } fun s =>
    short s (s.caps ++ bytesOf s.holdStatus.toNat 4))

/-- LAST_RESULT: the stored result from a byte offset. -/
def execLastResult (f : Frame) (offset : BitVec 32) (s : State) : Answer :=
  .next (s.command f { code := 0x02, roles := rolesAll, unowned := true } fun s =>
    short s ((s.mailbox f.mb).result.drop offset.toNat))

/-- READ_HALT. -/
def execReadHalt (f : Frame) (s : State) : Answer :=
  .next (s.command f { code := 0x03, roles := rolesAll } fun s => short s s.haltBytes)

/-- The units of the device in the order of R522. -/
def tallyUnits (grade : BitVec 2) : List TallyUnit :=
  (((List.range 768).map fun t => TallyUnit.tile (BitVec.ofNat 10 t)) ++ ((List.range 16).map fun f => TallyUnit.field (BitVec.ofNat 4 f))
    ++ ((List.range 16).map fun f => TallyUnit.fetch (BitVec.ofNat 4 f)) ++ ((List.range 12).map fun k => TallyUnit.stack (BitVec.ofNat 4 k))
    ++ ((List.range 20).map fun k => TallyUnit.link (BitVec.ofNat 5 k)) ++ [TallyUnit.house, TallyUnit.steward]).filter (tallyIn grade)

/-- Every tally of the device, in that order. -/
def tallyList (grade : BitVec 2) : List (TallyUnit × Nat) :=
  (tallyUnits grade).flatMap fun u => (List.range (tallyCount u)).map fun n => (u, n)

/-- The latch strobe: every tally copies COUNT into SNAP. -/
def State.latchTallies (s : State) : State :=
  (tallyList s.grade).foldl (fun s u => s.setTally u.1 u.2 (s.getTally u.1 u.2).latch) s

/-- READ_TALLIES (R531): the steward records the time and sends the strobe. -/
def execReadTallies (f : Frame) (s : State) : Answer :=
  .next (s.command f { code := 0x27, roles := rolesAll } fun s => .ok (s.latchTallies, .long (.tallies s.clk.clk s.now)))

/-! ## Loading (R437, R513) -/

/-- STAGE: data go into DRAM outside the ledger and the image store. -/
def execStage (f : Frame) (addr : BitVec 48) (data : List Byte) (s : State) : Answer :=
  .next (s.command f { code := 0x10, roles := rolesOP } fun s => do
    require s.noProgram (denied 2)
    require (addr.toNat % 64 = 0 && (data.isEmpty || s.freeDram addr.toNat data.length)) (badArg 1)
    short (s.writeDram addr.toNat data) [])

/-- The staged bytes `[a, a + n)`; none where a codeword is uncorrectable, which the steward's read notes and which halts
nothing (R264 names the reads that halt). -/
def State.staged (s : State) (a n : Nat) : State × Option (List Byte) := s.readDram a n

/-- The first byte of the receipt region that a RECEIPT_CFG gives, and its length with the floor table (R413). -/
def regionBase (c : BitVec 62) : Nat := (c.setWidth 48).toNat
def regionSize (c : BitVec 62) : Nat := floorAt c 8192 - regionBase c

/-- R413: the image's RECEIPT_CFG can take the book over. -/
def State.receiptsMove (s x : State) : Bool :=
  let old := s.house.receiptCfg
  let new := x.house.receiptCfg
  old = new
    || (s.freeDram (regionBase new) (regionSize new)
      && (old = 0 || !overlap s.grade (regionBase new) (regionSize new) (regionBase old) (regionSize old))
      && s.house.receipts.all fun r => r.2.all fun e => e.len ≤ new.toNat / 2 ^ 48 * 64)

/-- Bytes copied from one device address to another; what cannot be read is left. -/
def State.copyDram (s : State) (a b n : Nat) : State :=
  match s.readDram a n with
  | (s, some bs) => s.writeDram b bs
  | (s, none) => s

/-- The book moves to the receipt region in force now from that of `old` (R413): every done record to its slot, and the floor
table; where there was no region every FLOOR is 0 (R412). -/
def State.moveReceipts (s : State) (old : BitVec 62) : State :=
  let new := s.house.receiptCfg
  if old = new then s
  else if old = 0 then s.writeDram (floorAt new 0) (List.replicate 65536 0)
  else
    let s := s.house.receipts.foldl (fun s r =>
      match r.2 with
      | some e => if e.pending then s else s.copyDram (recordAt old r.1) (recordAt new r.1) (32 + e.len)
      | none => s) s
    s.copyDram (floorAt old 0) (floorAt new 0) 65536

/-- LOAD_IMAGE: every check comes before the first write (R437). -/
def execLoadImage (f : Frame) (addr : BitVec 48) (length : BitVec 64) (logical : BitVec 16) (digest : BitVec 256)
    (s : State) : Answer :=
  .next (s.command f { code := 0x11, roles := rolesOP, fabric := true } fun s => do
    require s.noProgram (denied 2)
    require (addr.toNat % 64 = 0 && s.freeDram addr.toNat 1) (badArg 1)
    require (1 ≤ length.toNat && length.toNat < 2 ^ 48 && s.freeDram addr.toNat length.toNat) (badArg 2)
    require (logical.toNat < 4096) (badArg 3)
    match s.staged addr.toNat length.toNat with
    | (_, none) => .error (failed 2)
    | (s, some bs) =>
      require (Config.digest bs = digest) (badArg 4)
      match s.plainImage bs digest with
      | none => .error (badArg 1)
      | some (dig, plain) =>
        match parseImage plain with
        | none => .error (badArg 1)
        | some img =>
          s.imageCheck img logical.toNat
          require (s.receiptsMove (s.tablesOf img logical.toNat)) (badArg 1)
          let s := { s with stew := { s.stew with
            program := {}, state := if s.stew.state = 2 then 1 else s.stew.state } }
          let s := (s.clearListed.writeImage true img logical.toNat).moveReceipts s.house.receiptCfg
          .ok (s, .long (.load dig img.req (logical.setWidth 12) (img.sections.filter fun x => x.ty != 4)
            (img.tiles logical.toNat))))

/-! ## Arming and running (R438–R440) -/

/-- ARM. -/
def execArm (f : Frame) (s : State) : Answer :=
  .next (s.command f { code := 0x12, roles := rolesOP, fabric := true } fun s => do
    require (s.stew.program.digest.isSome && s.noProgram) (denied 2)
    require s.mapReady (absent 6)
    let s := s.armProgram
    short s (bytesOf s.logical.toNat 2))

/-- START. -/
def execStart (f : Frame) (time : BitVec 64) (s : State) : Answer :=
  .next (s.command f { code := 0x13, roles := rolesOP, fabric := true } fun s => do
    let p := s.stew.program
    require (p.armed && !p.started) (denied 2)
    require (time.toNat ≤ s.stewardTime.toNat + 2 ^ 31) (badArg 1)
    short { s with stew := { s.stew with program := { p with started := true, startAt := some time } } } [])

/-- REPLAY. -/
def execReplay (f : Frame) (count : BitVec 32) (s : State) : Answer :=
  .next (s.command f { code := 0x14, roles := rolesOP, fabric := true } fun s => do
    let p := s.stew.program
    require (p.armed && p.started) (denied 2)
    short { s with stew := { s.stew with program := { p with
      remaining := if count = 0 then none else some count.toNat } } } [])

/-- A plan lets the next replay start: the state of the last one is committed, and no drain of the buffer that the next
one writes is in progress (R487). -/
def State.planLets (s : State) : Bool :=
  match s.surv.plan with
  | none => true
  | some _ =>
    !s.surv.verifying && s.surv.stepRun.toNat ≤ s.surv.commit.toNat
      && !(s.drainRuns && s.surv.draining.any fun d => d.step.getLsbD 0 = (s.surv.commit + 1).getLsbD 0)

/-- A replay may begin now (R439): it waits for what ARM still writes in the slices (log entry 105). -/
def State.replayDue (s : State) : Bool :=
  let p := s.stew.program
  p.armed && p.started && !p.aborted && !s.stewardWaits && !s.fab.hold.held && !s.clk.needWarm && !s.power.trip
    && (if p.replays = 0 then
        s.surv.plan.isNone || !(s.drainRuns && s.surv.draining.any fun d => d.step.getLsbD 0 = (s.surv.commit + 1).getLsbD 0)
      else s.planLets)
    && (if p.replays = 0 then p.startAt.any fun t => t.toNat ≤ s.stewardTime.toNat
      else p.remaining != some 0 && (p.tiles.all fun t => (s.tile t).seq.ended)
        && s.fab.fields.all fun f => f.2.dyn.all fun d => d.2.st = 0)

/-- A tile of the program at a replay start; under a plan its two parameters are written first (R100, R486). -/
def Tile.startReplay (x : Tile) (plan : Option (Nat × Nat × BitVec 64 × Bool)) : Tile :=
  let x := match plan with
    | some (sp, vp, r, v) => (x.shadowParam sp (r.setWidth 32)).shadowParam vp (if v then 1 else 0)
    | none => x
  let x := x.setUp
  { x with seq := { x.seq with run := true } }

/-- The replay begins in the current cycle. Under a plan it is replay C + 1, or replay C without its update phase where it
verifies state C (R486, R499). -/
def State.beginReplay (s : State) : State :=
  let p := s.stew.program
  let v := s.surv.verify
  let r := if v then s.surv.commit else s.surv.commit + 1
  let par := s.surv.plan.map fun q => (planStepParam q, planVerifyParam q, r, v)
  let s := p.tiles.foldl (fun s t => s.modTile t fun x => x.startReplay par) s
  let s := s.presentFields.foldl (fun s f => s.modField f fun y => { y with
    spineCur := 0
    dyn := y.dyn.map fun (d : Nat × DescDyn) => (d.1, { d.2 with farms := 0, arms := 0 }) }) s
  { s with
    stew := { s.stew with program := { p with
      replays := p.replays + 1
      remaining := if p.replays = 0 then p.remaining else p.remaining.map fun n => n - 1 } }
    surv := if s.surv.plan.isSome then
        { s.surv with
          stepRun := r, verifying := v, endReported := false, replayBegan := s.wall
          overlapped := s.surv.draining.isSome }
      else s.surv }

/-- REPLAY_START. -/
def execReplayStart (s : State) : Answer := .next (if s.replayDue then s.beginReplay else s)

/-- PATCH: one part of a patch list (R163, R164). -/
def execPatch (f : Frame) (x : PatchPart) (s : State) : Answer :=
  .next (s.command f { code := 0x15, roles := rolesOP } fun s =>
    match s.patchPart f.mb.toNat x with
    | (s, .ok) => short s []
    | (_, .otherSource) => .error (denied 2)
    | (s, .badPart) => .ok (s, .refused (badArg 1))
    | (s, .badList) => .ok (s, .refused (badArg 0)))

/-! ## Stopping, holding, stepping (R440, R441) -/

/-- STOP: abort 0x86, and with bit 0 a program reset. -/
def execStop (f : Frame) (reset : Bool) (s : State) : Answer :=
  .next (s.command f { code := 0x16, roles := rolesOP } fun s => do
    require s.stew.program.armed (denied 2)
    let s := s.abort 0x86 (f.mb.setWidth 32)
    short (if reset then s.askReset .stop else s) [])

/-- A coin count that a drain asks for has not been taken (R87). -/
def State.countWaits (s : State) : Bool := s.fab.drains.any fun d => d.count && d.sampled && !d.counted

/-- HOLD: a steward hold is requested, or released. -/
def execHold (f : Frame) (hold : Bool) (s : State) : Answer :=
  .next (s.command f { code := 0x17, roles := rolesOP } fun s => do
    require s.stew.program.armed (denied 2)
    let s := { s with stew := { s.stew with holdAsked := hold } }
    short (if hold then s.requestHold .steward s.fab.scc
      else if s.countWaits then s
      else { s with fab := { s.fab with hold := { s.fab.hold with stewardOff := some s.clk.clk } } }) [])

/-- SET_STEP: with no program armed the change completes before the reply. -/
def execSetStep (f : Frame) (step : BitVec 8) (s : State) : Answer :=
  .next (s.command f { code := 0x20, roles := rolesOPS, fabric := true } fun s => do
    require (step.toNat < 8 && s.clk.safeStep.toNat ≤ step.toNat) (badArg 1)
    let s := { s with clk := { s.clk with askedStep := some (step.setWidth 3) } }.followStep
    if s.noProgram && s.fab.hold.step then .ok (s, .later) else short s [])

/-- The replies of the SET_STEP commands that waited for their change leave. -/
def State.answerSteps (s : State) : State :=
  s.stew.stepReplies.foldl (fun s r => s.complete r.1 r.2 0x20 (0, 0) [])
    { s with stew := { s.stew with stepReplies := [] } }

/-- RELOCK_COMPLETE: 2 µs after the stop, or after the request that joined a hold in effect (R48, R50). With a program armed the
step is in force from the restart of the hold on (R441). -/
def execRelockComplete (s : State) : Answer :=
  let h := s.fab.hold
  .next (
    if h.held && h.step && s.passed h.stepAt (2 * usUnits) then
      let s := { s with fab := { s.fab with hold := { h with step := false } } }
      let n := s.clk.target.getD s.clk.step
      if s.noProgram then (s.relock n).answerSteps else { s with clk := { s.clk with target := none, relocked := some n } }
    else s)

/-- RESET: the reply is sent, then a warm reset begins. -/
def execReset (f : Frame) (code : BitVec 8) (s : State) : Answer :=
  .next (s.command f { code := 0x37, roles := rolesOPS } fun s => do
    require (code = 1) (badArg 1)
    short (s.askWarm 1) [])

/-! ## Configuration (R364–R380, R393, R394, R441) -/

/-- A measurement of kind 6: D of the frame data (R459). -/
def State.measureFrame (s : State) (data : List Byte) : State := s.measure 6 (Config.digest data)

/-- SET_HEATH_ID: every link that is up is reset. -/
def execSetHeathId (f : Frame) (phys : BitVec 16) (s : State) : Answer :=
  .next (s.command f { code := 0x21, roles := rolesOPS } fun s => do
    require s.noProgram (denied 2)
    require (phys.toNat < 4096) (badArg 1)
    let s := { s with heath := { s.heath with
      id := phys.setWidth 12
      links := s.heath.links.map fun (k : Nat × Link) => (k.1, if k.2.st = 3 then { k.2 with resetting := true } else k.2) } }
    short (s.measureFrame (bytesOf phys.toNat 2)) [])

/-- A PORT_CFG value that R393, R394 and R417 allow for a sub-port. -/
def portCfgOk (sub : Nat) (cfg : BitVec 64) : Bool :=
  cfg &&& ~~~(BitVec.ofNat 64 (if sub = 0 then portBits else portSubBits)) = 0 && (sub != 0 || portMode cfg < 3)
    && 1280 ≤ portMtu cfg && portMtu cfg ≤ 9000

/-- A sub-port takes a configuration; sub-ports that the mode does not have go down. -/
def State.configPort (s : State) (port : Bool) (sub : BitVec 2) (cfg : BitVec 64) : State :=
  let x := s.subPort port sub
  let s := s.setSub port sub { x with cfg := cfg }
  (List.range 4).foldl (fun s i =>
    let k := BitVec.ofNat 2 i
    if s.subIn port k then s else s.setSub port k (s.subPort port k).down) s

/-- SET_PORT. -/
def execSetPort (f : Frame) (port : BitVec 8) (sub : BitVec 8) (cfg : BitVec 64) (ipv4 : BitVec 32) (ipv6 : BitVec 256)
    (s : State) : Answer :=
  .next (s.command f { code := 0x22, roles := rolesOP } fun s => do
    require s.noProgram (denied 2)
    require (port.toNat < 2) (badArg 1)
    let p : Bool := port = 1
    let k : BitVec 2 := sub.setWidth 2
    require (sub.toNat < 4 && s.subIn p k) (badArg 2)
    require (portCfgOk sub.toNat cfg) (badArg 3)
    let s := s.configPort p k cfg
    let s := s.setSub p k { s.subPort p k with ipv4 := ipv4, ipv6 := ipv6 }
    short (s.measureFrame ([port, sub] ++ bytesOf cfg.toNat 8 ++ bytesOf ipv4.toNat 4 ++ bytesOf ipv6.toNat 32)) [])

/-- The frame data of HEATH_TABLES, forms 1 and 2. -/
def tableData (form : BitVec 8) (first : BitVec 16) (es : List (BitVec 32)) : List Byte :=
  [form, 0] ++ bytesOf first.toNat 2 ++ bytesOf es.length 2 ++ [0, 0] ++ es.flatMap fun e => bytesOf e.toNat 4

/-- The range of a HEATH_TABLES write. -/
def tableRange (first : BitVec 16) (es : List (BitVec 32)) : Except Refused Unit := do
  require (first.toNat < 4096) (badArg 2)
  require (1 ≤ es.length && es.length ≤ 1024 && first.toNat + es.length ≤ 4096) (badArg 3)

def putTable (m : SMap (BitVec 32)) (first : Nat) (es : List (BitVec 32)) : SMap (BitVec 32) :=
  es.zipIdx.foldl (fun m e => Sparse.set 0 m (first + e.2) e.1) m

/-- A route entry names links 0 to 19 (R379). -/
def routeForm (e : BitVec 32) : Bool := (routeChoices e).all fun c => c.1 < 20

/-- A route entry names present links only; one that names an absent link needs an absent unit (R379, R432). -/
def routeOk (grade : BitVec 2) (e : BitVec 32) : Bool := (routeChoices e).all fun c => linkIn grade c.1

/-- HEATH_TABLES form 1. -/
def execHeathTablesRoute (f : Frame) (first : BitVec 16) (entries : List (BitVec 32)) (s : State) : Answer :=
  .next (s.command f { code := 0x23, roles := rolesOPS } fun s => do
    require (!s.anyRun) (denied 2)
    tableRange first entries
    require (entries.all routeForm) (badArg 4)
    require (entries.all (routeOk s.grade)) (absent 7)
    let s := { s with heath := { s.heath with route := putTable s.heath.route first.toNat entries } }
    short (s.measureFrame (tableData 1 first entries)) [])

/-- HEATH_TABLES form 2: the inactive bank. The reserved bits of an entry are not retained (R9, R380). -/
def execHeathTablesDevmap (f : Frame) (first : BitVec 16) (entries : List (BitVec 32)) (s : State) : Answer :=
  .next (s.command f { code := 0x23, roles := rolesOPS } fun s => do
    require (!s.anyRun) (denied 2)
    tableRange first entries
    let h := s.heath
    let es := entries.map fun e => e &&& 0x80000FFF
    let s := { s with heath := { h with
      devmapA := if h.devSel then putTable h.devmapA first.toNat es else h.devmapA
      devmapB := if h.devSel then h.devmapB else putTable h.devmapB first.toNat es } }
    short (s.measureFrame (tableData 2 first entries)) [])

/-- HEATH_TABLES form 3. -/
def execHeathTablesSelect (f : Frame) (bank : BitVec 8) (s : State) : Answer :=
  .next (s.command f { code := 0x23, roles := rolesOPS } fun s => do
    require s.selectFree (denied 2)
    require (bank.toNat < 2 && oneToOne (if bank = 1 then s.heath.devmapB else s.heath.devmapA)) (badArg 5)
    let s := { s with heath := { s.heath with devSel := bank = 1 } }
    short (s.measureFrame [3, 0, 0, 0, 0, 0, 0, 0, bank]) [])

/-! ## Channels and ring ends (R307, R308, R444) -/

/-- The frame data of CHANNEL. -/
def chanData (form : BitVec 8) (n : BitVec 16) (entry : List Byte) : List Byte :=
  [form, 0] ++ bytesOf n.toNat 2 ++ [0, 0, 0, 0] ++ entry

/-- The fabric stands at a drain under a steward hold. -/
def State.atDrain (s : State) : Bool :=
  s.fab.hold.held && s.fab.hold.steward && s.fab.drains.any fun d => d.checked

/-- A ring may be closed, and coins retired. -/
def State.ringsClose (s : State) : Bool := s.noProgram || s.atDrain

/-- The question about a ring's other end (R363 kind 12). -/
def State.askRing (s : State) (dev : BitVec 12) (chan : Nat) (d i coins : Nat) : State :=
  match s.physOf dev with
  | some p => s.sendControl p none 12 (bytesOf chan 2 ++ bytesOf (d * 1024 + i) 2 ++ bytesOf coins 4 ++ [0, 0])
  | none => s

/-- The ring end of a new ring channel exists, names this device and channel, and holds the same RCOINS. -/
def State.ringMatches (s : State) (c : Nat) (e : Line) (remote : Option Bool) : Bool :=
  if chanDev e = s.logical then
    let r := (s.ringEnd (chanRendDie e).toNat (chanRendIndex e).toNat).entry
    rendCoins r = chanRcoins e && rendDev r = s.logical && (rendChan r).toNat = c
  else remote = some true

/-- CHANNEL form 1: an unused entry opens; a ring's coins are minted after the check of its ring end. -/
def execChannelOpen (f : Frame) (chan : BitVec 16) (entry : Line) (remote : Option Bool) (s : State) : Answer :=
  let c := chan.toNat
  .next (s.command f { code := 0x24, roles := rolesOP } fun s => do
    require (c < 16383) (badArg 2)
    require (chanKind entry != 0 && s.chanOk entry
      && (chanKind entry != 4 || (s.members entry).all fun m => chanKind (s.chan m).entry = 3)) (badArg 3)
    require (chanKind (s.chan c).entry = 0) (denied 2)
    let ring : Bool := chanKind entry = 3
    let s := if ring && chanDev entry != s.logical then
        s.askRing (chanDev entry) c (chanRendDie entry).toNat (chanRendIndex entry).toNat (chanRcoins entry) else s
    if ring && !s.ringMatches c entry remote then .ok (s, .refused (denied 2))
    else
      let s := if ring && chanDev entry = s.logical then
          s.restartRing (chanRendDie entry).toNat (chanRendIndex entry).toNat else s
      let s := s.modChan c fun x => { x with
        entry := entry ||| 0x800, head := 0, err := false, retin := 0, spillu := 0, spillFresh := 0, spillFree := []
        retNext := 0, retWait := []
        held := if ring then BitVec.ofNat 24 (chanRcoins entry) else 0 }
      short ((s.mapChannel c).measureFrame (chanData 1 chan (bytesOf entry.toNat 64))) [])

/-- A coin count of the ring channel finds every coin held, and nothing queued or spilled. -/
def Channel.allHeld (x : Channel) : Bool :=
  x.queue.isEmpty && x.spill.isEmpty && x.held.toNat = chanRcoins x.entry

/-- A coin count of a ring or multicast channel finds every coin held: for a multicast, every coin of its members. -/
def State.allHeld (s : State) (x : Channel) : Bool :=
  if chanKind x.entry = 4 then
    x.queue.isEmpty && x.spill.isEmpty && (s.members x.entry).all fun m => (s.chan m).allHeld
  else x.allHeld

/-- CHANNEL form 0: a channel closes; transfers already sent complete. -/
def execChannelClose (f : Frame) (chan : BitVec 16) (s : State) : Answer :=
  let c := chan.toNat
  .next (s.command f { code := 0x24, roles := rolesOP } fun s => do
    require (c < 16383) (badArg 2)
    let x := s.chan c
    let k := chanKind x.entry
    require (k != 0 && (k = 1 || k = 2 || (s.ringsClose && s.allHeld x))) (denied 2)
    let s := s.setChan c { nextTid := x.nextTid, transfers := x.transfers, waiting := x.waiting }
    short ((s.mapChannel c).measureFrame (chanData 0 chan [])) [])

/-- A ring end opens with its state zero; its return till reads 0 from now on (R308, R317). -/
def State.openRing (s : State) (d i : Nat) (entry : BitVec 256) : State :=
  (s.setRingEnd d i { entry := entry }).setTill (rendRtill entry).toNat 0

/-- CHANNEL form 3: an unused ring end opens. -/
def execRingEndOpen (f : Frame) (index : BitVec 16) (entry : BitVec 256) (s : State) : Answer :=
  let d := index.toNat / 1024
  let i := index.toNat % 1024
  .next (s.command f { code := 0x24, roles := rolesOP } fun s => do
    require (d < 4) (badArg 2)
    require (rendCoins entry != 0 && s.rendOk entry) (badArg 4)
    require (rendCoins (s.ringEnd d i).entry = 0) (denied 2)
    short ((s.openRing d i entry).measureFrame (chanData 3 index (bytesOf entry.toNat 32))) [])

/-- CHANNEL form 2: a ring end with nothing lodged closes once its sender's channel is closed. -/
def execRingEndClose (f : Frame) (index : BitVec 16) (remoteClosed : Bool) (s : State) : Answer :=
  let d := index.toNat / 1024
  let i := index.toNat % 1024
  .next (s.command f { code := 0x24, roles := rolesOP } fun s => do
    require (d < 4) (badArg 2)
    let r := s.ringEnd d i
    let c := (rendChan r.entry).toNat
    let own : Bool := rendDev r.entry = s.logical
    let s := if own then s else s.askRing (rendDev r.entry) c d i 0
    let closed : Bool := if own then chanKind (s.chan c).entry = 0 else remoteClosed
    if s.ringsClose && rendCoins r.entry != 0 && r.lodged = 0 && closed then
      short ((s.setRingEnd d i {}).measureFrame (chanData 2 index [])) []
    else .ok (s, .refused (denied 2)))

/-! ## Banks and tills (R234, R302, R444) -/

/-- FALLOW: the woken banks are ready before the reply. -/
def execFallow (f : Frame) (tile : BitVec 16) (mask : BitVec 16) (s : State) : Answer :=
  .next (s.command f { code := 0x25, roles := rolesOP } fun s => do
    require (tile.toNat < 768) (badArg 1)
    require (tileIn s.grade tile.toNat) (absent 7)
    require (!s.anyRun) (denied 2)
    short ((s.setFallow tile.toNat mask).measureFrame (bytesOf tile.toNat 2 ++ bytesOf mask.toNat 2)) [])

/-- TILLS form 0. -/
def execTillsRead (f : Frame) (till : BitVec 16) (count : BitVec 32) (s : State) : Answer :=
  .next (s.command f { code := 0x26, roles := rolesOPA } fun s => do
    require (till.toNat < 32768) (badArg 2)
    require (1 ≤ count.toNat && count.toNat ≤ 256 && till.toNat + count.toNat ≤ 32768) (badArg 3)
    short s ((List.range count.toNat).flatMap fun i => bytesOf (s.tillRead (BitVec.ofNat 15 (till.toNat + i))).toNat 4))

/-- A till is set by hand, with its ledger record (R302, R467). -/
def State.setByHand (s : State) (n : BitVec 15) (v : BitVec 32) (session : BitVec 32) (client : BitVec 16) : State :=
  let old := s.till n.toNat
  let rqd := natOf (bytesOf n.toNat 2 ++ bytesOf old.toNat 4 ++ bytesOf v.toNat 4)
  let s := (s.setTill n.toNat v).count .steward 0xA8 0 1
  s.append { kind := 2, status := 0, session := session, client := client, rqd := BitVec.ofNat 192 rqd, rpd := 0 }

/-- TILLS form 1. -/
def execTillsSet (f : Frame) (till : BitVec 16) (value : BitVec 32) (s : State) : Answer :=
  .next (s.command f { code := 0x26, roles := rolesOP } fun s => do
    let n : BitVec 15 := till.setWidth 15
    require (till.toNat < 32768 && (s.returnTill n).isNone) (badArg 2)
    let r := s.requester f.mb.toNat
    short (s.setByHand n value r.1 r.2) [])

/-- TILL_WRITE_JTAG: a return till is left alone (R302). -/
def execTillWriteJtag (n : BitVec 15) (v : BitVec 32) (s : State) : Answer :=
  .next (if s.reaches .jtag && (s.returnTill n).isNone then s.setByHand n v 0 0x4000 else s)

end Sys2Proof.Machine
end

