-- ==== Sys2Proof/Machine/Trust.lean ====
section
/-!
DEFINITION. Trust: attestation (R459–R461), enrolment (R455–R458), firmware update (R452–R454), zeroisation (R473) and the
return of a module (R474, R475). The effects of a long command come when it ends.
-/
namespace Sys2Proof.Machine

/-! ## Attestation (R460, R461) -/

/-- HALT, HOLD and the like in the words of SMB_STATUS (R447). -/
def State.smbStatus (s : State) : Byte :=
  BitVec.ofNat 8 (s.stew.lockstep.toNat + 2 * s.stew.longOp.isSome.toNat)

/-- The attestation quote. -/
def State.quote (s : State) (nonce : BitVec 256) : List Byte :=
  let v := s.vault
  let time := (s.now.toNat % 2 ^ 63) + s.clk.valid.toNat * 2 ^ 63
  let body := bytesOf 0x54515A45 4 ++ [1, BitVec.ofNat 8 (v.logOvf.toNat + 2 * s.owned.toNat), 0, 0] ++ bytesOf time 8
    ++ bytesOf nonce.toNat 32 ++ bytesOf v.mrBoot.toNat 32 ++ bytesOf v.mrRun.toNat 32 ++ s.caps
    ++ bytesOf s.ownerDigest.toNat 32 ++ bytesOf v.gen.toNat 4 ++ bytesOf v.epoch.toNat 4 ++ bytesOf (v.seq - 1).toNat 8
    ++ bytesOf v.chain.toNat 32 ++ digestBytes (bytesOf v.transportKey.toNat 1184)
  body ++ v.sign "SG4-QUOTE" body

/-- The result of ATTEST. -/
def State.attestation (s : State) (nonce : BitVec 256) (part : BitVec 8) : List Byte :=
  s.quote nonce ++ bytesOf s.vault.transportKey.toNat 1184
    ++ (if part = 1 then s.vault.log.flatMap fun e => bytesOf e.toNat 64 else [])
    ++ (if part = 2 then Config.certificates else [])

/-- ATTEST. -/
def execAttest (f : Frame) (nonce : BitVec 256) (part : BitVec 8) (s : State) : Answer :=
  .next (s.command f { code := 0x32, roles := rolesAll, unowned := true } fun s => do
    require (part.toNat < 3) (badArg 2)
    .ok (s, .long (.attest nonce part)))

/-! ## Enrolment (R455–R458) -/

/-- The arguments of ENROL as bytes (R457). -/
def enrolBytes (form : BitVec 8) (x : EnrolArgs) : List Byte :=
  [form, x.mb, x.role, x.rights] ++ bytesOf x.client.toNat 2 ++ [0, 0] ++ bytesOf x.mask.toNat 8 ++ bytesOf x.key.toNat 32
    ++ bytesOf x.staged.toNat 6

/-- The checks of the arguments in their order: a field that the form uses meets its rule, any other field is 0. -/
def enrolCheck (x : EnrolArgs) (uses : List Nat) : Except Refused Unit := do
  let field (i : Nat) (zero rule : Bool) : Except Refused Unit :=
    require (if uses.contains i then rule else zero) (badArg (1 + i))
  field 1 (x.mb = 0) (1 ≤ x.mb.toNat && x.mb.toNat ≤ 15)
  field 2 (x.role = 0) (1 ≤ x.role.toNat && x.role.toNat ≤ 4)
  field 3 (x.rights = 0) (x.rights.toNat < 8)
  field 4 (x.client = 0) (x.client.toNat < 8192)
  field 5 (x.mask = 0) true
  field 6 (x.key = 0) true
  field 7 (x.staged = 0) true

/-- ENROL in a form that needs an owner. -/
def State.enrolForm (s : State) (f : Frame) (form : BitVec 8) (x : EnrolArgs) (uses : List Nat) : State :=
  s.command f { code := 0x33, roles := rolesO } fun s => do
    enrolCheck x uses
    .ok (s, .long (.enrol form x 0 none none))

/-- An OSIG of bytes `bs`, which verify as `g`: none where they are all zeros (R452). -/
def ownerSignature (bs : List Byte) (g : Signature) : Option Signature := if bs.all (· = 0) then none else some g

/-- ENROL_OWNER: the OSIG of the running slot must verify against the key of the session (R458). `osigA` and `osigB` are what
the two staged signatures verify as (log entry 133). -/
def execEnrolOwner (f : Frame) (x : EnrolArgs) (osigA : Signature) (osigB : Signature) (s : State) : Answer :=
  .next (s.command f { code := 0x33, roles := rolesO, unowned := true } fun s => do
    require (!s.owned && s.vault.gen.toNat ≤ 30 && s.noProgram && f.mb = 0) (denied 2)
    enrolCheck x [7]
    require (s.freeDram x.staged.toNat 6618) (badArg 8)
    match s.staged x.staged.toNat 6618, s.boxSession f.mb with
    | (_, none), _ => .error (failed 2)
    | _, none => .error (denied 2)
    | (s, some bs), some y =>
      let a := ownerSignature (bs.take 3309) osigA
      let b := ownerSignature (bs.drop 3309) osigB
      let run : FwSlot := Sparse.get {} s.vault.slots s.vault.slotB.toNat
      require ({ run with osig := if s.vault.slotB then b else a }.countersigned y.key) (badArg 8)
      .ok (s, .long (.enrol 1 x y.key a b)))

/-- ENROL_BIND. -/
def execEnrolBind (f : Frame) (x : EnrolArgs) (s : State) : Answer := .next (s.enrolForm f 2 x [1, 2, 6])
/-- ENROL_UNBIND. -/
def execEnrolUnbind (f : Frame) (x : EnrolArgs) (s : State) : Answer := .next (s.enrolForm f 3 x [1])
/-- ENROL_CLIENT. -/
def execEnrolClient (f : Frame) (x : EnrolArgs) (s : State) : Answer := .next (s.enrolForm f 4 x [3, 4, 5, 6])
/-- ENROL_REVOKE. -/
def execEnrolRevoke (f : Frame) (x : EnrolArgs) (s : State) : Answer := .next (s.enrolForm f 5 x [4])

/-- A new owner generation: the granary key of the old one is gone, and its snapshots with it (R450, R491). -/
def State.nextGeneration (s : State) : State :=
  { s with
    vault := { s.vault with gen := s.vault.gen + 1 }
    surv := { s.surv with granA := {}, granB := {} } }

/-- FORM 1 writes both OSIGs and the record, and blows a fuse; state 7 ends (R458, R473). -/
def State.enrolNewOwner (s : State) (key : BitVec 15616) (osigA osigB : Option Signature) : State :=
  let v := s.vault
  let slot (n : Nat) (g : Option Signature) : FwSlot := { (Sparse.get {} v.slots n : FwSlot) with osig := g }
  let version := match v.enrolment with | some e => e.version + 1 | none => 1
  let s := { s with vault := { v with
    slots := Sparse.set {} (Sparse.set {} v.slots 0 (slot 0 osigA)) 1 (slot 1 osigB)
    enrolment := some { gen := (v.gen + 1).setWidth 8, version := version, owner := key }
    otherCopy := v.enrolment } }.nextGeneration
  if s.stew.state = 7 then { s with stew := { s.stew with state := 1 } } else s

/-- The enrolment record changes, and its VERSION rises; the change goes into the other copy, and the older one stays (R455). -/
def State.editEnrolment (s : State) (g : Enrolment → Enrolment) : State :=
  { s with vault := { s.vault with
    enrolment := s.vault.enrolment.map fun e => { g e with version := e.version + 1 }, otherCopy := s.vault.enrolment } }

/-- Every done entry of a client leaves the receipt book (R457). -/
def State.evictClient (s : State) (c : BitVec 16) : State :=
  s.house.receipts.foldl (fun s r =>
    match r.2 with
    | some e => if e.client.toNat = c.toNat && !e.pending then s.evict r.1 else s
    | none => s) s

/-- What a form does when it ends, before its record and its measurement. -/
def State.enrolEffect (s : State) (form : BitVec 8) (x : EnrolArgs) (key : BitVec 15616) (osigA osigB : Option Signature) :
    State :=
  let box (y : Session) : Bool := y.control && y.index.toNat = x.mb.toNat
  let mine (y : Session) : Bool := !y.control && y.index = x.client
  if form = 1 then s.enrolNewOwner key osigA osigB
  else if form = 2 then
    (s.editEnrolment fun e => { e with bindings := Sparse.put x.mb.toNat (x.key, x.role) e.bindings }).closeSessions box
  else if form = 3 then
    (s.editEnrolment fun e => { e with bindings := Sparse.erase x.mb.toNat e.bindings }).closeSessions box
  else if form = 4 then
    let c : Client := { key := x.key, rights := x.rights, mask := x.mask }
    (s.editEnrolment fun e => { e with clients := Sparse.set {} e.clients x.client.toNat c }).closeSessions mine
  else
    ((s.editEnrolment fun e => { e with clients := Sparse.erase x.client.toNat e.clients }).closeSessions mine).evictClient
      x.client

/-- A completed ENROL appends its record and its measurement. -/
def State.enrolDone (s : State) (mb : BitVec 4) (form : BitVec 8) (x : EnrolArgs) (key : BitVec 15616)
    (osigA osigB : Option Signature) : State :=
  let bs := enrolBytes form x
  let who := s.requester mb.toNat
  let s := s.enrolEffect form x key osigA osigB
  let rpd := match s.vault.enrolment with | some e => digest24 (e.bytes s.vault.recordKey) | none => 0
  (s.append { kind := 4, status := form, session := who.1, client := who.2, rqd := digest24 bs, rpd := rpd }).measure 8
    (Config.digest bs)

/-! ## Firmware update (R452–R454) -/

/-- The slot that a staged image of bytes `bs` fills (R452), its signatures being what their bytes verify as. -/
def FwSlot.ofImage (bs : List Byte) (esig osig : Signature) : FwSlot :=
  let cut (lo n : Nat) : List Byte := (bs.drop lo).take n
  { version := BitVec.ofNat 32 (natOf (cut 4 4)), svn := BitVec.ofNat 8 (natOf (cut 8 1))
    length := BitVec.ofNat 64 (natOf (cut 16 8)), digest := BitVec.ofNat 256 (natOf (cut 24 32))
    rootKey := BitVec.ofNat 15616 (natOf (cut 56 1952)), esig := some esig, osig := ownerSignature (cut 5317 3309) osig
    body := some (bs.drop 8704) }

/-- UPDATE_FW: the checks of R453 on the staged image. `esig` and `osig` are what its signatures verify as (log entry 133). -/
def execUpdateFw (f : Frame) (addr : BitVec 48) (length : BitVec 64) (esig : Signature) (osig : Signature) (s : State) :
    Answer :=
  .next (s.command f { code := 0x34, roles := rolesO } fun s => do
    require (s.freeDram addr.toNat (min length.toNat 8704)) (badArg 1)
    require (8704 ≤ length.toNat && length.toNat ≤ 12 * 2 ^ 20 && s.freeDram addr.toNat length.toNat) (badArg 2)
    match s.staged addr.toNat length.toNat with
    | (_, none) => .error (failed 2)
    | (s, some bs) =>
      let cut (lo n : Nat) : List Byte := (bs.drop lo).take n
      let x := FwSlot.ofImage bs esig osig
      require (natOf (cut 0 4) = 0x57465A45 && natOf (cut 9 7) = 0 && x.svn.toNat ≤ 64 && x.length.toNat = length.toNat - 8704)
        (badArg 0)
      require (x.genuine s.vault.rollback) (badArg 0)
      require (!s.owned || s.vault.enrolment.any fun e => x.countersigned e.owner) (badArg 0)
      .ok (s, .long (.update x)))

/-- The image goes into the slot that does not run, and SELECT names that slot. -/
def State.updateDone (s : State) (mb : BitVec 4) (x : FwSlot) : State :=
  let v := s.vault
  let b := !v.slotB
  let s := { s with vault := { v with slots := Sparse.set {} v.slots b.toNat x, selectB := b } }
  s.append (s.causedRecord mb.toNat 8 0 (digest24 x.header) 0)

/-! ## Zeroisation (R473) -/

/-- Step 2: once every ticket is completed and appends may proceed, the record is appended and sealed at once. -/
def State.zeroiseRecord (s : State) : State :=
  match s.stew.longOp with
  | none => s
  | some op =>
    let ret : Bool := match op.work with | .retire _ => true | _ => false
    if !s.zeroising || s.vault.zrecord || !s.ticketsEnded || s.appendsWait then s
    else
      let s := (s.append (s.causedRecord op.mailbox.toNat 9 (if ret then 2 else 1) 0 0)).sealNow
      { s with vault := { s.vault with zrecord := true } }

/-- Step 1: the program stops, and the counting house completes the tickets. -/
def State.zeroiseBegins (s : State) (mb : BitVec 4) (ret : Bool) : State :=
  let s := (s.abort 0x8A (BitVec.ofNat 32 (mb.toNat + 16 * ret.toNat))).endTickets
  { s with vault := { s.vault with zrecord := false } }

/-- The record of step 2 is sealed, with every other. -/
def State.allSealed (s : State) : Bool :=
  s.vault.zrecord && s.vault.signing.isEmpty && !s.vault.sealWaiting && s.vault.waiting.isEmpty && s.unsealed = 0

/-- Steps 2 to 4, each at a tick: the record; the marker, once every record is sealed and the seal was on offer for 100 ms;
then a fuse is blown, and the owner with all that is bound to the generation is gone. -/
def State.zeroiseStep (s : State) : State :=
  if !s.zeroising then s
  else if !s.vault.zrecord then (if s.ticketsEnded then s else s.endTickets).zeroiseRecord
  else if !s.vault.zmarker then
    if s.allSealed && s.passed s.vault.sealedAt (100000 * usUnits) then { s with vault := { s.vault with zmarker := true } } else s
  else if s.owned then
    let s := s.nextGeneration
    { s with vault := { s.vault with enrolment := none, otherCopy := none } }
  else s

/-- Step 4 is done. -/
def State.zeroised (s : State) : Bool := s.vault.zmarker && !s.owned

/-- Steps 5 and 6: all data go, the marker goes, and the device is zeroised. -/
def State.zeroiseEnds (s : State) : State :=
  let s := s.programReset.clearData
  { s with
    vault := { s.vault with zmarker := false, zrecord := false }
    stew := { s.stew with state := 7, program := {}, assembly := none }
    surv := { granChan := s.surv.granChan, granRate := s.surv.granRate, granErr := s.surv.granErr, granLost := s.surv.granLost } }

/-- ZEROISE. -/
def execZeroise (f : Frame) (s : State) : Answer :=
  .next (s.command f { code := 0x35, roles := rolesO } fun s => .ok (s.zeroiseBegins f.mb false, .long .zeroise))

/-! ## Return (R474, R475) -/

/-- STACK_ECC of a stack (R293). -/
def Stack.eccWord (x : Stack) : Nat := x.corrected.toNat + x.ueSeen.toNat * 2 ^ 32

/-- The domains of compute islands 0–23: six on each compute die (R35, R36). -/
def computeIslands : List Nat := (List.range 4).flatMap fun d => [8 * d, 8 * d + 1, 8 * d + 2, 8 * d + 3, 8 * d + 4, 8 * d + 6]

/-- The failure record, captured before the zeroisation. -/
def State.failRecord (s : State) (reason : BitVec 32) (rma : BitVec 64) (note : BitVec 2048) : List Byte :=
  let body := bytesOf 0x52465A45 4 ++ [1, 1, 0, 0] ++ bytesOf s.now.toNat 8 ++ bytesOf s.vault.epoch.toNat 4
    ++ bytesOf reason.toNat 4 ++ bytesOf rma.toNat 8 ++ bytesOf s.vault.identityDigest.toNat 32 ++ s.caps ++ s.haltBytes
    ++ (computeIslands.map fun d => (s.island d).margin.setWidth 8) ++ bytesOf 0 8
    ++ ((List.range 12).flatMap fun k => bytesOf (s.stack k).eccWord 8)
    ++ bytesOf (bitsOf 20 fun k => (s.link k).st = 5) 4 ++ [s.smbStatus] ++ bytesOf 0 27 ++ bytesOf note.toNat 256
  body ++ s.vault.sign "SG4-FAIL" body

/-- PREPARE_RETURN. -/
def execPrepareReturn (f : Frame) (reason : BitVec 32) (rma : BitVec 64) (note : BitVec 2048) (s : State) : Answer :=
  .next (s.command f { code := 0x36, roles := rolesO } fun s =>
    .ok (s.zeroiseBegins f.mb true, .long (.retire (s.failRecord reason rma note))))

/-- The record goes into NOR, the links go back to training, and the device is in return mode. -/
def State.retireEnds (s : State) (record : List Byte) : State :=
  let s := s.zeroiseEnds.trainLinks
  { s with
    vault := { s.vault with failureRecord := record, returnMode := true }
    stew := { s.stew with state := 8 } }

end Sys2Proof.Machine
end

