-- ==== Sys2Proof/Machine/Survive.lean ====
section
/-!
DEFINITION. SNAPSHOT and RESTORE (R483–R501), bulk copies (R487), snapshot drains (R492, R493), the copy to a spare (R497), and
the end of every long operation (R430).
-/
namespace Sys2Proof.Machine

/-! ## SNAPSHOT (R501) -/

/-- SNAPSHOT_PLAN: the plan is checked, and the buddy asked. -/
def execSnapshotPlan (f : Frame) (plan : Line) (s : State) : Answer :=
  .next (s.command f { code := 0x30, roles := rolesOP } fun s => do
    require (s.stew.program.digest.isSome && s.noProgram) (denied 2)
    require (s.planOk plan && s.planClear plan && (!planSnap plan || (s.surv.granUp && Config.slotHolds s.surv.granChan (planSize plan)))) (badArg 2)
    match s.physOf (planBuddy plan), s.stew.program.digest with
    | some p, some img =>
      let s := s.sendControl p none 5 (bytesOf plan.toNat 64 ++ bytesOf img.toNat 32
        ++ [s.grade.setWidth 8, s.stew.feedId.setWidth 8])
      .ok ({ s with surv := { s.surv with asked := some plan } }, .long (.plan none))
    | _, _ => .error (denied 2))

/-- SNAPSHOT_TAKE: the next commit is to be snapshot. -/
def execSnapshotTake (f : Frame) (s : State) : Answer :=
  .next (s.command f { code := 0x30, roles := rolesOP } fun s => do
    require (s.stew.program.armed && s.surv.plan.any planSnap) (denied 2)
    require s.surv.granUp (failed 2)
    .ok (s.askSnapshot, .long (.take none)))

/-- SNAPSHOT_LIST. -/
def execSnapshotList (f : Frame) (s : State) : Answer :=
  .next (s.command f { code := 0x30, roles := rolesOP } fun s => do
    require s.surv.granUp (failed 2)
    .ok (s, .long .list))

/-- SNAPSHOT_SPARE. -/
def execSnapshotSpare (f : Frame) (addr : BitVec 48) (length : BitVec 64) (digest : BitVec 256) (s : State) : Answer :=
  .next (s.command f { code := 0x30, roles := rolesOP } fun s => do
    require s.noProgram (denied 2)
    require (s.freeDram addr.toNat 1) (badArg 2)
    require (1 ≤ length.toNat && length.toNat < 2 ^ 48 && s.freeDram addr.toNat length.toNat) (badArg 3)
    .ok (s, .long (.spare addr length digest)))

/-- SNAPSHOT_TWIN. -/
def execSnapshotTwin (f : Frame) (twin : BitVec 16) (s : State) : Answer :=
  .next (s.command f { code := 0x30, roles := rolesOP } fun s => do
    require s.stew.program.digest.isSome (denied 2)
    require (twin.toNat < 4096 || twin = 0xFFFF) (badArg 2)
    .ok (s, .long (.twin (if twin = 0xFFFF then none else some (twin.setWidth 12)))))

/-! ## RESTORE (R494) -/

def State.granary (s : State) (b : Bool) : Granary := if b then s.surv.granB else s.surv.granA

/-- The slot whose commit record has the STEP asked for, or the highest one. -/
def State.restoreSlot (s : State) (step : BitVec 64) : Option Bool :=
  match s.surv.granA.step, s.surv.granB.step with
  | a, b =>
    if step = 0xFFFFFFFFFFFFFFFF then
      (match a, b with
      | none, none => none
      | some _, none => some false
      | none, some _ => some true
      | some x, some y => some (decide (x < y)))
    else if a = some step.toNat then some false
    else if b = some step.toNat then some true
    else none

/-- RESTORE. -/
def execRestore (f : Frame) (step : BitVec 64) (s : State) : Answer :=
  .next (s.command f { code := 0x31, roles := rolesOP, fabric := true } fun s => do
    require (s.surv.plan.isSome && s.noProgram) (denied 2)
    require s.surv.granUp (failed 2)
    match s.restoreSlot step with
    | none => .error (badArg 2)
    | some b => .ok (s, .long (.restore b)))

/-- Bytes `[lo, lo + n)` of a commit record, as a number. -/
def recordPart (r : BitVec 1536) (lo n : Nat) : Nat := r.toNat / 2 ^ (8 * lo) % 2 ^ (8 * n)

/-- The state that a slot holds, `n` bytes. -/
def Granary.bytes (g : Granary) (n : Nat) : List Byte := (List.range n).map fun i => Sparse.get 0 g.state i

/-- K_S, the key of the chunks of the snapshot that was taken in this epoch at this time (R491). -/
def State.snapshotKey (s : State) (epoch time : Nat) : BitVec 256 :=
  Config.kmac s.vault.granaryKey (ascii "SG4-SNAP" ++ bytesOf epoch 4 ++ bytesOf time 8)

/-- The tags of a snapshot of `n` bytes under key `k`: chunk i of 1 MiB with nonce i and no additional data (R490, R491). -/
def chunkTags (k : BitVec 256) (n : Nat) : List GcmTag :=
  (List.range ((n + 2 ^ 20 - 1) / 2 ^ 20)).map fun i => { key := k, nonce := BitVec.ofNat 96 i, aad := 0 }

/-- A read of the codewords of `[0, n)` of the state, or of the commit page, meets an uncorrectable one (R489, R504). -/
def Granary.bad (g : Granary) (n : Nat) : Bool := g.marks.any fun c => c.2 = 2 && c.1 * 2048 < n
def Granary.badPage (g : Granary) : Bool := Sparse.get 0 g.marks (2 ^ 48) = 2

/-- The checks of RESTORE beside the chunks' ciphertext: the tags are those of the snapshot's key, and the record fits. -/
def State.restoreFits (s : State) (g : Granary) (r : BitVec 1536) : Bool :=
  (Config.digest (g.bytes (recordPart r 72 8))).toNat = recordPart r 80 32
    && g.tags = chunkTags (s.snapshotKey (recordPart r 16 4) (recordPart r 20 8)) (recordPart r 72 8)
    && s.stew.program.digest = some (BitVec.ofNat 256 (recordPart r 40 32))
    && s.stew.program.logical.toNat = recordPart r 28 2 && reqDevices s.stew.program.req = recordPart r 30 2

/-- The state goes into its buffer, and the next replay is a verification replay; or the buffer is undefined. -/
def State.restoreEnds (s : State) (b tagsOk : Bool) : State × Option (BitVec 1536) :=
  let g := s.granary b
  match g.record, s.surv.plan with
  | some r, some p =>
    let step := BitVec.ofNat 64 (recordPart r 8 8)
    let n := recordPart r 72 8
    let a := planState p (step.getLsbD 0)
    let bad : Bool := g.bad n || g.badPage
    if tagsOk && !bad && s.restoreFits g r then
      let s := s.writeDram a (g.bytes n)
      let s := { s with surv := { s.surv with
        dead := [], lost := false, commit := step, loss := BitVec.ofNat 32 (recordPart r 32 4), verify := true, events := s.surv.events + 1 } }
      (if s.leads then s.setInterval else s, some r)
    else
      let k := s.fresh
      let s := s.draw.writeDram a ((List.range (planSize p)).map (Config.undefinedByte k))
      ({ s with surv := { s.surv with granErr := s.surv.granErr || bad } }, none)
  | _, _ => (s, none)

/-! ## Bulk copies (R487) -/

/-- BULK_COPY: CTILL has risen, so the state buffer of this step goes to the partner; the first copy of a plan takes the
static region along. -/
def execBulkCopy (s : State) : Answer :=
  .next (match s.surv.plan, s.surv.partnerPlan with
    | some own, some his =>
      let v := s.till (planTill own).toNat
      if !s.begun || s.stew.program.aborted || v.toInt ≤ s.surv.ctillSeen.toInt || s.surv.copying.isSome then s
      else
        let r := s.surv.stepRun
        let n := planSize own
        let t := planStaticSize own
        match s.copyChannel (planBuddy own) (planBuddyBase his) (2 * n + t) with
        | (s, none) => s
        | (s, some c) =>
          let odd : Bool := r.getLsbD 0
          let s := s.sendPieces c (planState own odd) (planBuddyBase his + (if odd then n else 0)) (n / 256)
          let s := if s.surv.staticCopied then s
            else s.sendPieces c (planStatic own) (planBuddyBase his + 2 * n) (t / 256)
          { s with surv := { s.surv with copying := some r, ctillSeen := v, staticCopied := true } }
    | _, _ => s)

/-- BULK_COPY_COMPLETE: the copy is acknowledged, and the leader hears of it. -/
def execBulkCopyComplete (s : State) : Answer :=
  .next (match s.surv.copying with
    | some r =>
      if s.surv.recovering || !s.copyIdle then s
      else ({ s with surv := { s.surv with copying := none } }).report r true false
    | none => s)

/-- SPARE_COPY_COMPLETE: the partner's copy to the spare is acknowledged, and the devices rearm (R497). -/
def execSpareCopyComplete (s : State) : Answer :=
  .next (match s.surv.copying with
    | some c =>
      if !s.surv.recovering || !s.copyIdle then s
      else
        let s := { s with surv := { s.surv with copying := none } }
        if s.leads then s.recovered
        else match s.physOf s.leader with
          | some p => s.sendControl p none 7 (bytesOf c.toNat 8 ++ bytesOf s.logical.toNat 2 ++ [1])
          | none => s
    | none => s)

/-! ## Snapshot drains (R492, R493) -/

/-- The commit record of a drain whose state is `bs`. -/
def State.commitRecord (s : State) (d : Drainage) (bs : List Byte) : BitVec 1536 :=
  let img := match s.stew.program.digest with | some x => x.toNat | none => 0
  let body := bytesOf 0x50535A45 4 ++ [1, BitVec.ofNat 8 d.slotB.toNat, 0, 0] ++ bytesOf d.step.toNat 8
    ++ bytesOf d.epoch.toNat 4 ++ bytesOf d.time.toNat 8 ++ bytesOf s.logical.toNat 2
    ++ bytesOf (reqDevices s.stew.program.req) 2 ++ bytesOf d.loss.toNat 4 ++ bytesOf 0 4 ++ bytesOf img 32
    ++ bytesOf bs.length 8 ++ digestBytes bs ++ bytesOf 0 32
  BitVec.ofNat 1536 (natOf (body ++ bytesOf (Config.kmac s.vault.granaryKey body).toNat 32))

/-- The bytes of a state that are not zero, keyed by their place. -/
def stateBytes (bs : List Byte) : List (Nat × Byte) :=
  bs.zipIdx.filterMap fun b => if b.1 = 0 then none else some (b.2, b.1)

/-- A SNAPSHOT TAKE in progress learns its commit record. -/
def State.noteTake (s : State) (r : BitVec 1536) : State :=
  { s with stew := { s.stew with longOp := s.stew.longOp.map fun (o : LongOp) =>
      match o.work with
      | .take none => { o with work := .take (some r) }
      | _ => o } }

/-- SNAPSHOT_DRAIN_COMPLETE: the record is written and the slot becomes valid; a drain that was given up leaves it
invalid. -/
def execSnapshotDrainComplete (s : State) : Answer :=
  .next (match s.surv.draining, s.surv.plan with
    | some d, some p =>
      let s := { s with surv := { s.surv with draining := none } }
      if s.stew.program.aborted || !s.surv.granUp then s
      else
        match s.readPieces (planState p (d.step.getLsbD 0)) (planSize p / 256) with
        | (s, none) => s
        | (s, some bs) =>
          let r := s.commitRecord d bs
          let k := s.snapshotKey d.epoch.toNat d.time.toNat
          let g : Granary := { record := some r, state := stateBytes bs, tags := chunkTags k bs.length }
          let s := { s with surv := { s.surv with
            granA := if d.slotB then s.surv.granA else g, granB := if d.slotB then g else s.surv.granB } }
          let s := if s.leads then s.setInterval else s
          if s.surv.snapAsked then s else s.noteTake r
    | _, _ => s)

/-! ## READ_TALLIES (R530, R531) -/

/-- A sample of a tally at the raw count given (R530). -/
def Tally.sample (x : Tally) (raw : BitVec 48) : Tally :=
  { x with ext := x.ext + (raw - x.last).setWidth 64, last := raw, ovf := x.wrapped }

/-- READ_TALLIES samples every SNAP and returns the extended values behind the time of the strobe. -/
def State.readTallies (s : State) (time : BitVec 64) : State × List Byte :=
  (tallyList s.grade).foldl (fun a u =>
    let x := (a.1.getTally u.1 u.2).sample (a.1.getTally u.1 u.2).snap
    (a.1.setTally u.1 u.2 x, a.2 ++ bytesOf x.ext.toNat 8)) (s, bytesOf time.toNat 8)

/-! ## The end of a long operation (R430) -/

/-- The image is loaded: it is measured and recorded (R437, R459, R467). -/
def State.loadDone (s : State) (mb : BitVec 4) (digest req : BitVec 256) (logical : BitVec 12) (sections : List Section)
    (tiles : List Nat) : State :=
  let s := { s with
    stew := { s.stew with state := 2, program := { digest := some digest, req := req, logical := logical
                                                   sections := sections, tiles := tiles } }
    surv := { s.surv with dead := [] }
    vault := { s.vault with mrRun := 0, log := s.vault.log.take 4, runCount := 0 } }
  (s.measure 5 digest).append (s.causedRecord mb.toNat 5 0 0 0)

/-- How a long operation ends: not yet, or with a refusal or a result. `ok` says that no unit failed while it ran. -/
def State.finish (s : State) (op : LongOp) (ok : Bool) : Option (State × Except Refused (List Byte)) :=
  let fail (s : State) : Option (State × Except Refused (List Byte)) := some (s, .error (failed 2))
  let done (s : State) (data : List Byte) : Option (State × Except Refused (List Byte)) := some (s, .ok data)
  match op.work with
  | .load d r l xs ts => if !ok then fail s else if s.stewardWaits then none
    else done (s.loadDone op.mailbox d r l xs ts) []
  | .tallies strobe time =>
    if !ok then fail s else if s.clk.clk ≤ strobe then none
    else let x := s.readTallies time
         done x.1 x.2
  | .plan (some true) => done s []
  | .plan (some false) => some (s, .error (denied 2))
  | .plan none => if ok then none else fail { s with surv := { s.surv with asked := none } }
  | .take (some r) => if ok then done s (bytesOf r.toNat 192) else fail s
  | .take none =>
    if ok && s.stew.program.armed && !s.stew.program.aborted && s.surv.granUp then none
    else fail { s with surv := { s.surv with snapAsked := false } }
  | .list =>
    let one (g : Granary) : List Byte := bytesOf (match g.record with | some r => if g.badPage then 0 else r.toNat | none => 0) 192
    let bad : Bool := s.surv.granA.badPage || s.surv.granB.badPage
    let s := { s with surv := { s.surv with granErr := s.surv.granErr || bad } }
    if ok && s.surv.granUp then done s (one s.surv.granA ++ one s.surv.granB) else fail s
  | .spare a n d => if ok then done { s with surv := { s.surv with spare := some (a, n, d) } } [] else fail s
  | .twin l => if ok then done { s with surv := { s.surv with twin := l, twinSeal := none } } [] else fail s
  | .restore b =>
    match s.restoreEnds b (ok && s.surv.granUp) with
    | (s, some r) => done s (bytesOf r.toNat 192)
    | (s, none) => fail s
  | .attest n p => if ok && !(s.island 95).lost then done s (s.attestation n p) else fail s
  | .enrol form x key a b => if ok then done (s.enrolDone op.mailbox form x key a b) [] else fail s
  | .update x => if ok then done (s.updateDone op.mailbox x) [] else fail { s with vault := s.vault.tear (some op.work) }
  | .zeroise => if s.zeroised then done s.zeroiseEnds [] else none
  | .retire r => if s.zeroised then done (s.retireEnds r) r else none

/-- LONG_OPERATION_COMPLETE. -/
def execLongOperationComplete (ok : Bool) (s : State) : Answer :=
  .next (match s.stew.longOp with
    | none => s
    | some op =>
      match s.finish op ok with
      | none => s
      | some (t, r) =>
        let t := { t with stew := { t.stew with longOp := none } }
        match r with
        | .ok data => t.complete op.mailbox op.tag op.cmd (0, 0) data
        | .error e => t.complete op.mailbox op.tag op.cmd e [])

end Sys2Proof.Machine
end

