-- ==== Sys2Proof/Machine/Power.lean ====
section
/-!
DEFINITION. The SMBus target (R445–R447, R519) and the power and thermal manager (R506, R507, R516–R518, R521).
-/
namespace Sys2Proof.Machine

/-! ## SMBus (R445–R447, R519) -/

/-- The module answers on SMBus, from 1 ms after PGOOD: at its own address, or at 0x1F while CHAIN_IN is high. -/
def State.smbAnswers (s : State) : Bool :=
  s.power.pgood && s.passed s.power.pgoodAt (1000 * usUnits) && (s.stew.smbAddr.isSome || s.stew.chainIn)

/-- A read: the bytes go out. -/
def State.smbRead (s : State) (data : List Byte) : State := if s.smbAnswers then s.emit (.smb data) else s

/-- A write: its effect, or a NAK of the data byte. -/
def State.smbWrite (s : State) (ok : Bool) (t : State) : State :=
  if !s.smbAnswers then s else if ok then t else s.emit .nak

/-- The codes of R447 and R519. -/
def smbCodes : List Nat := [0x00, 0x01, 0x10, 0x11, 0x12, 0x20, 0x21, 0x22, 0x23, 0x24]

/-- The address at which the module answers: its own, or 0x1F until it has one (R445). -/
def State.smbAddress (s : State) : BitVec 7 := s.stew.smbAddr.getD 0x1F

/-- ENUM_ID. -/
def execEnumId (s : State) : Answer :=
  .next (s.smbRead ([s.stew.boardId, s.stew.pos.setWidth 8 ||| (s.stew.feedId.setWidth 8 <<< 4)]
    ++ bytesOf Config.serial.toNat 6))

/-- ENUM_ASSIGN: the module takes only the address 0x20 + POS, and drives CHAIN_OUT. A code that R447 and R519 do not list is not
acknowledged, and one of another row is that row's transfer. -/
def execEnumAssign (w : SmbWrite) (s : State) : Answer :=
  let s := { s with stew := { s.stew with chainIn := w.chainIn } }
  .next (
    if w.target != s.smbAddress || (w.code != 1 && smbCodes.contains w.code.toNat) then s
    else s.smbWrite (w.code = 1 && w.data.toNat = 0x20 + s.stew.pos.toNat)
      { s with stew := { s.stew with smbAddr := some (w.data.setWidth 7), chainOut := true } })

/-- CAP. -/
def execSmbCap (s : State) : Answer := .next (s.smbRead s.caps)
/-- HALT. -/
def execSmbHalt (s : State) : Answer := .next (s.smbRead s.haltBytes)
/-- SMB_STATUS. -/
def execSmbStatus (s : State) : Answer := .next (s.smbRead [s.smbStatus])

/-- The sensors are sampled: input voltage and power, and every sensor that is no stack's. -/
def State.sampleSensors (s : State) : State :=
  let n := s.fresh
  let r := (List.range 20).foldl (fun m i =>
    if 4 ≤ i && i < 16 then m else Sparse.set 0 m i (Config.sensor n i)) s.power.readings
  { s.draw with power := { s.power with vin := Config.sensor n 21, pin := Config.sensor n 20, readings := r } }

/-- PWR_STATUS (R521). -/
def State.pwrStatus (s : State) : BitVec 64 :=
  let p := s.power
  let down : Bool := s.clk.safeStep.toNat < s.clk.step.toNat
    && (s.clk.step.toNat ≤ p.thermalStep.toNat || s.clk.step.toNat ≤ p.powerStep.toNat)
  BitVec.ofNat 64 (p.vin.toNat + p.pin.toNat * 2 ^ 16 + (!p.holders.isEmpty).toNat * 2 ^ 32 + down.toNat * 2 ^ 33
    + p.trip.toNat * 2 ^ 34 + p.tripSensor.toNat * 2 ^ 35 + p.uvSeen.toNat * 2 ^ 40)

/-- PWR. -/
def execPwr (s : State) : Answer :=
  .next (if s.smbAnswers then let s := s.sampleSensors
                              s.emit (.smb (bytesOf s.pwrStatus.toNat 8))
         else s)

/-- The temperature of sensor `n`; those of absent stacks read zero. -/
def State.temperature (s : State) (n : Nat) : Byte :=
  if 4 ≤ n && n < 16 then (if stackIn s.grade (n - 4) then (s.stack (n - 4)).temp else 0)
  else (Sparse.get 0 s.power.readings n).setWidth 8

/-- TEMPS. -/
def execTemps (s : State) : Answer :=
  .next (if s.smbAnswers then let s := s.sampleSensors
                              s.emit (.smb ((List.range 20).map s.temperature))
         else s)

/-- PWR_CAP.CAP takes a value up to the design power (R507). -/
def State.setCap (s : State) (watts : BitVec 16) : State :=
  { s with power := { s.power with
      cap := if (designPower s.grade).toNat < watts.toNat then designPower s.grade else watts } }

/-- CAP_WRITE. -/
def execCapWrite (watts : BitVec 16) (s : State) : Answer := .next (s.smbWrite true (s.setCap watts))

/-- WARM: 0x5A asks for a warm reset. -/
def execWarm (code : BitVec 8) (s : State) : Answer := .next (s.smbWrite (code = 0x5A) (s.askWarm 3))

/-- STATE. -/
def execSmbState (s : State) : Answer := .next (s.smbRead [s.capState.setWidth 8])

/-! ## Limits (R506, R516) -/

/-- The peak rating of a grade in W. -/
def peakPower (grade : BitVec 2) : Nat := if grade = 0 then 3000 else if grade = 1 then 2400 else 1700

/-- The sensor exists on the grade. -/
def sensorIn (grade : BitVec 2) (n : Nat) : Bool := n < 21 && (n < 4 || 16 ≤ n || stackIn grade (n - 4))

/-- Thresholds of a sensor: step down at, step up below, hold at, hold released below, trip at; 0 where it has none. -/
def thresholds (grade : BitVec 2) (n : Nat) : Nat × Nat × Nat × Nat × Nat :=
  if n < 4 then (100, 90, 110, 105, 120)
  else if n < 16 then (90, 82, 95, 92, 100)
  else if n < 20 then (0, 0, 0, 0, 125)
  else (0, 0, peakPower grade, (designPower grade).toNat, 0)

/-- The power manager runs and the sensor exists. -/
def State.watches (s : State) (n : Nat) : Bool := s.power.pgood && sensorIn s.grade n

/-- The time since which a condition holds, when it is found to hold or not at time `t`. -/
def since (m : SMap Nat) (n t : Nat) (holds : Bool) : SMap Nat :=
  if !holds then Sparse.erase n m else if (Sparse.find? n m).isSome then m else Sparse.put n t m

/-- A sensor is sampled: the reading of a temperature sensor is kept, and the times from which it has stood at or above the
step-down threshold and below the step-up threshold run on or end (R516; between samples it stands as at the last: log entry
136). -/
def State.noteReading (s : State) (n : Nat) (r : BitVec 16) : State :=
  if n = 20 then s
  else
    let t := thresholds s.grade n
    { s with power := { s.power with
      readings := Sparse.set 0 s.power.readings n r
      above := since s.power.above n s.clk.clk (t.1 != 0 && t.1 ≤ r.toNat)
      below := since s.power.below n s.clk.clk (r.toNat < t.2.1) } }

/-- A condition has held for `d` by now. -/
def State.heldFor (s : State) (m : SMap Nat) (n d : Nat) : Bool := (Sparse.find? n m).any fun t => s.passed t d

/-- The next slower step. -/
def slower (n : BitVec 3) : BitVec 3 := if n = 7 then 7 else n + 1
/-- The next faster step of a policy. -/
def faster (n : BitVec 3) : BitVec 3 := if n = 0 then 0 else n - 1

/-! ## Steps (R507, R516) -/

/-- THERMAL_STEP_DOWN: at or above the threshold, for 1 ms. -/
def execThermalStepDown (sensor : BitVec 5) (reading : BitVec 16) (s : State) : Answer :=
  let n := sensor.toNat
  .next (
    if !(s.watches n && s.stew.booted) then s
    else
      let s := s.noteReading n reading
      if s.heldFor s.power.above n (1000 * usUnits) then
        { s with power := { s.power with
            thermalStep := slower s.wantedStep, above := Sparse.put n s.clk.clk s.power.above } }.followStep
      else s)

/-- THERMAL_STEP_UP: below the threshold for 1 s. -/
def execThermalStepUp (sensor : BitVec 5) (reading : BitVec 16) (s : State) : Answer :=
  let n := sensor.toNat
  .next (
    if !(s.watches n && s.stew.booted) then s
    else
      let s := s.noteReading n reading
      if s.heldFor s.power.below n (1000000 * usUnits) then
        { s with power := { s.power with
            thermalStep := faster s.power.thermalStep, below := Sparse.put n s.clk.clk s.power.below } }.followStep
      else s)

/-- POWER_CAP_STEP: the 100 ms average input power against CAP; a faster step once the average has stayed below 90 % of CAP for
1 s. -/
def execPowerCapStep (average : BitVec 16) (s : State) : Answer :=
  .next (
    if !(s.watches 20 && s.stew.booted) then s
    else
      let low : Bool := average.toNat * 10 < s.power.cap.toNat * 9
      let s := { s with power := { s.power with below := since s.power.below 20 s.clk.clk low } }
      if s.power.cap.toNat < average.toNat then
        { s with power := { s.power with powerStep := slower s.wantedStep } }.followStep
      else if s.heldFor s.power.below 20 (1000000 * usUnits) then
        { s with power := { s.power with
            powerStep := faster s.power.powerStep, below := Sparse.put 20 s.clk.clk s.power.below } }.followStep
      else s)

/-! ## Thermal holds and trips (R516–R518) -/

/-- THERMAL_HOLD. -/
def execThermalHold (sensor : BitVec 5) (reading : BitVec 16) (s : State) : Answer :=
  let n := sensor.toNat
  let t := (thresholds s.grade n).2.2.1
  .next (
    if !s.watches n then s
    else
      let s := s.noteReading n reading
      if t != 0 && t ≤ reading.toNat && !s.power.holders.contains n then
        { s with power := { s.power with holders := s.power.holders ++ [n] } }.requestHold .thermal s.fab.scc
      else s)

/-- THERMAL_HOLD_RELEASE: the hold is released once no sensor asks for it. -/
def execThermalHoldRelease (sensor : BitVec 5) (reading : BitVec 16) (s : State) : Answer :=
  let n := sensor.toNat
  let t := (thresholds s.grade n).2.2.2.1
  .next (
    if !s.watches n then s
    else
      let s := s.noteReading n reading
      if s.power.holders.contains n && reading.toNat < t then
        let hs := s.power.holders.filter fun k => k != n
        let s := { s with power := { s.power with holders := hs } }
        if hs.isEmpty then { s with fab := { s.fab with hold := { s.fab.hold with thermalOff := some s.clk.clk } } } else s
      else s)

/-- The compute islands stop for good, and every stack refreshes itself. -/
def State.tripped (s : State) (n : BitVec 5) : State :=
  let s := s.abort 0x88 (n.setWidth 32)
  let s := ((List.range 12).filter (stackIn s.grade)).foldl (fun s k =>
    s.modStack k fun x => { x with selfRefresh := true }) s
  let st := s.stew.state
  { s with
    power := { s.power with trip := true, tripSensor := n }
    stew := { s.stew with state := if st = 1 || st = 2 || st = 3 then 5 else st } }

/-- TRIP. -/
def execTrip (sensor : BitVec 5) (reading : BitVec 16) (s : State) : Answer :=
  let n := sensor.toNat
  let t := (thresholds s.grade n).2.2.2.2
  .next (
    if !s.watches n then s
    else
      let s := s.noteReading n reading
      if t != 0 && t ≤ reading.toNat && !s.power.trip then s.tripped sensor else s)

end Sys2Proof.Machine
end

