-- ==== Sys2Proof/Machine/Wire.lean ====
section
/-!
DEFINITION. What arrives on the wire of a hedge link: flits, the packets in their bodies (R352, R355, R360, R361), and the
stewards' CONTROL messages that the packets carry (R363).
-/
namespace Sys2Proof.Machine

/-! ## CONTROL messages (R363) -/

/-- The bytes that a message of each kind holds at least. -/
def messageLength (kind : Nat) : Nat :=
  [0, 32, 3345, 44, 34, 98, 3, 11, 13, 14, 10, 522, 10, 44, 106, 9, 44].getD kind 0

/-- The state that an answer leaves. -/
def after (a : Answer) (s : State) : State :=
  match a with
  | .next t => t
  | _ => s

/-- The steward reads message `x`: the command of its kind, with the operands that its bytes hold. -/
def State.hearMessage (s : State) (x : Joining) : State :=
  let bs := x.data
  let c : Control := { link := x.link, src := x.src, tid := x.tid }
  let at_ (o n : Nat) : Nat := natOf ((bs.drop o).take n)
  let chan : BitVec 14 := BitVec.ofNat 14 (at_ 0 2)
  let what : BitVec 16 := BitVec.ofNat 16 (at_ 0 2)
  let ring (o : Nat) : BitVec 2 × BitVec 10 := (BitVec.ofNat 2 (at_ o 2 / 1024), BitVec.ofNat 10 (at_ o 2))
  let a : Answer := match x.ckind.toNat with
    | 1 => execLinkNonce c (BitVec.ofNat 256 (at_ 0 32)) s
    | 2 => execLinkProof c (BitVec.ofNat 256 (at_ 0 32)) (Config.chain ((bs.drop 3345).take (at_ 3341 4)))
        (Config.signature ((bs.drop 32).take 3309)) s
    | 3 => execDeath c (BitVec.ofNat 12 (at_ 0 2)) (BitVec.ofNat 12 (at_ 2 2)) (BitVec.ofNat 256 (at_ 4 32))
        (BitVec.ofNat 64 (at_ 36 8)) s
    | 4 => execExpelled c (BitVec.ofNat 12 (at_ 0 2)) (BitVec.ofNat 256 (at_ 2 32)) s
    | 5 => execPlanCheck c (BitVec.ofNat 512 (at_ 0 64)) (BitVec.ofNat 256 (at_ 64 32)) (BitVec.ofNat 2 (at_ 96 1))
        (BitVec.ofNat 4 (at_ 97 1)) s
    | 6 => execPlanAnswer c (at_ 0 1 = 1) (BitVec.ofNat 8 (at_ 1 1)) (at_ 2 1 = 1) s
    | 7 => execReport c (BitVec.ofNat 64 (at_ 0 8)) (BitVec.ofNat 12 (at_ 8 2)) (at_ 10 1 % 2 = 1)
        { ended := at_ 10 1 / 2 % 2 = 1, snapshot := at_ 10 1 / 4 % 2 = 1 } s
    | 8 => execCommit c (BitVec.ofNat 64 (at_ 0 8)) (BitVec.ofNat 32 (at_ 8 4)) (at_ 12 1 = 1) s
    | 9 => execCoinHalf c chan (ring 2).1 (ring 2).2 (at_ 4 1 = 1) (at_ 5 1 = 1) (BitVec.ofNat 32 (at_ 6 4))
        (BitVec.ofNat 32 (at_ 10 4)) s
    | 10 => execReconcileAsk c what (BitVec.ofNat 32 (at_ 2 4)) (BitVec.ofNat 13 (at_ 6 4)) s
    | 11 => execReconcileAnswer c what (BitVec.ofNat 32 (at_ 2 4)) (BitVec.ofNat 4096 (at_ 6 512))
        (BitVec.ofNat 32 (at_ 518 4)) s
    | 12 => execRingEndCheck c chan (ring 2).1 (ring 2).2 (BitVec.ofNat 32 (at_ 4 4)) (at_ 8 1 = 1) (at_ 9 1 = 1) s
    | 13 => execMap c (BitVec.ofNat 12 (at_ 0 2)) (BitVec.ofNat 12 (at_ 2 2)) (BitVec.ofNat 256 (at_ 4 32))
        (BitVec.ofNat 64 (at_ 36 8)) s
    | 14 => execSpareJoin c (BitVec.ofNat 12 (at_ 0 2)) (BitVec.ofNat 256 (at_ 2 32)) (BitVec.ofNat 64 (at_ 34 8))
        (BitVec.ofNat 512 (at_ 42 64)) s
    | 15 => execResume c (BitVec.ofNat 64 (at_ 0 8)) (BitVec.ofNat 8 (at_ 8 1)) s
    | 16 => execSealReport c (BitVec.ofNat 32 (at_ 0 4)) (BitVec.ofNat 64 (at_ 4 8)) (BitVec.ofNat 256 (at_ 12 32)) s
    | _ => .next s
  after a s

/-- The steward reads the messages that have been joined, in the order of their completion. One that is shorter than its kind's
content is dropped (DESIGN CHOICE, log entry 106). -/
def State.readInbox (s : State) : State :=
  let box := s.heath.inbox
  (box.filter fun x => messageLength x.ckind.toNat ≤ x.data.length).foldl State.hearMessage
    { s with heath := { s.heath with inbox := [] } }

/-! ## Packets in flits (R355, R361, R363) -/

/-- A packet that link `k` has received: one of a reserved TYPE is dropped and counted; a CONTROL packet for DST 0xFFF is for
this end of the link, whatever its SRC (R363); any other is for this device or is forwarded. -/
def State.takePacket (s : State) (k : BitVec 5) (ty : Nat) (p : Packet) : State :=
  match typeOf ty with
  | none => ((s.returnCredits k.toNat p.vc ((24 + p.data.length + 255) / 256)).pump k.toNat 1024).linkTally k.toNat 0x73
  | some t =>
    if t = .control && p.dst = 0xFFF then
      (if s.linkHears k.toNat then s.took k.toNat .control p else s).joinControl (some k.toNat) p
    else if t = .heartbeat then after (execHeartbeat k p s) s
    else if t = .mcast || p.dst = s.heath.id then s.receive k t p
    else after (execPacketForward k t p s) s

/-- FLIT_RECEIVE (R352, R355): the flit, the packets that it completes, and the messages that they complete. -/
def execFlitReceive (k : BitVec 5) (x : Flit) (s : State) : Answer :=
  let n := k.toNat
  let l := s.link n
  .next (
    if !linkIn s.grade n || !(l.st = 2 || l.st = 3 || l.st = 4) || (s.island (linkDomain n)).lost then s
    else
      let (s, ps) := s.takeFlit n x
      (ps.foldl (fun s p => s.takePacket k p.1 p.2) s).readInbox)

/-- The stream of flits goes on though no packet waits: in each period that passes, every link that flows sends a flit, of idle
bytes where there is nothing else, with its ACKSEQ (R352, R354; log entry 31). -/
def State.sendIdle (s : State) : State :=
  s.heath.links.foldl (fun s l => if (s.link l.1).open_ then s.sendFlit l.1 else s) s

end Sys2Proof.Machine
end

