-- ==== Sys2Proof/Machine/Registers.lean ====
section
/-!
DEFINITION. Tallies (R523–R531) and the writes of the steward and of JTAG to registers (R8, R9, R33, R34): the gates of
each register, its reserved bits, and the bits that a 1 clears.
-/
namespace Sys2Proof.Machine

/-! ## Tallies (R527, R528, R530, R531) -/

/-- A tally is there to be written. -/
def State.tallyReached (s : State) (w : Writer) (u : TallyUnit) (n : Nat) : Bool :=
  s.reaches w && tallyIn s.grade u && n < tallyCount u

/-- CLEAR. -/
def execClear (w : Writer) (u : TallyUnit) (n : BitVec 4) (s : State) : Answer :=
  .next (if s.tallyReached w u n.toNat then s.setTally u n.toNat (s.getTally u n.toNat).restart else s)

/-- TALLY_EVENT_SELECT: a code of another unit, a reserved code or a QUAL out of range stores zeros. The steward writes the
default selection only (R527). -/
def execTallyEventSelect (w : Writer) (u : TallyUnit) (n : BitVec 4) (event : BitVec 8) (qual : BitVec 8) (s : State) :
    Answer :=
  let d := tallyDefault u n.toNat
  let mine : Bool := w = .jtag || (event = d.event && qual = d.qual)
  let ok : Bool := tallyCodeOf u event && tallyQualOk event qual
  .next (
    if s.tallyReached w u n.toNat && mine then
      s.setTally u n.toNat { (s.getTally u n.toNat).restart with
        event := if ok then event else 0, qual := if ok then qual else 0 }
    else s)

/-- TALLY_LATCH. -/
def execTallyLatch (w : Writer) (s : State) : Answer := .next (if s.reaches w then s.latchTallies else s)

/-- TALLY_SAMPLE: the steward accounts the raw count. -/
def execTallySample (u : TallyUnit) (n : BitVec 4) (s : State) : Answer :=
  .next (
    if s.tallyReached .steward u n.toNat then
      let x := s.getTally u n.toNat
      s.setTally u n.toNat (x.sample x.count)
    else s)

/-- A 1 written to OVF clears it. -/
def State.clearOvf (s : State) (u : TallyUnit) (n : Nat) (v : BitVec 32) : State :=
  if v.getLsbD 16 && tallyIn s.grade u && n < tallyCount u then
    s.setTally u n (s.getTally u n).clearOvf
  else s

/-- A write into the tallies of a unit that start at `base`: only the low word of TALLY_CFG has a bit to clear. -/
def State.putTally (s : State) (u : TallyUnit) (base off : Nat) (v : BitVec 32) : State :=
  if (off - base) % 32 = 0 then s.clearOvf u ((off - base) / 32) v else s

/-! ## ISLAND_CLK (R63) -/

/-- REF_LOSS and GUARD_FAULT are cleared by a 1. -/
def State.putIsland (s : State) (d : Nat) (v : BitVec 32) : State :=
  s.modIsland d fun x => { x with
    refLoss := x.refLoss && !v.getLsbD 1, guardFault := x.guardFault && !v.getLsbD 2 }

/-! ## The tile block (R136–R140, R180, R238) -/

/-- The bits of a word of the tile block that are not reserved. -/
def tileBits (off : Nat) : BitVec 32 := if off = 0xC || off = 0x34 then 0xFFFF else 0xFFFFFFFF

/-- A word of the tile block: while the tile runs, only parameters and the bits that a 1 clears take a write. -/
def State.writeTile (s : State) (t off : Nat) (v : BitVec 32) : State :=
  let run := (s.tile t).seq.run
  if off = 0x18 then s.modTile t fun x => { x with vec := { x.vec with fpflags := x.vec.fpflags &&& ~~~(v.setWidth 13) } }
  else if off = 0x28 then (if run then s else s.setFallow t (v.setWidth 16))
  else if off = 0x2C then s.modTile t fun x => { x with pad := { x.pad with late := x.pad.late && !v.getLsbD 0 } }
  else if 0x900 ≤ off && off < 0x940 then s.putTally (.tile (BitVec.ofNat 10 t)) 0x900 off v
  else if run && !(0x100 ≤ off && off < 0x200) then s
  else s.putReg (.tile t) off (v &&& tileBits off)

/-! ## The field and die blocks (R18, R19, R254, R330, R346, R377) -/

/-- The two entries of a word of a spine set: reserved bits go, and an entry that R18 refuses is stored not valid. -/
def spineWord (i : Nat) (bad : Nat → BitVec 16 → Bool) (bits : Nat → BitVec 16) (v : BitVec 32) : BitVec 32 :=
  let one (j : Nat) (e : BitVec 16) : BitVec 16 :=
    let e := e &&& bits j
    if bad j e then e &&& 0x7FFF else e
  (one (i + 1) (v.extractLsb' 16 16)).setWidth 32 <<< 16 ||| (one i (v.setWidth 16)).setWidth 32

/-- A word of the field block. -/
def State.writeField (s : State) (f off : Nat) (v : BitVec 32) : State :=
  let n : BitVec 4 := BitVec.ofNat 4 f
  if off = 0x10 then s.putIsland (f / 4 * 8 + f % 4) v
  else if off = 0x20 then s.modField f fun x => { x with err := x.err && !v.getLsbD 16 }
  else if 0x9000 ≤ off && off < 0x9100 then s.putTally (.field n) 0x9000 off v
  else if 0x9100 ≤ off && off < 0x9180 then s.putTally (.fetch n) 0x9100 off v
  else if 0x400 ≤ off && off < 0x700 then (if s.fieldRun f || s.grade = 2 then s else s.putReg (.field f) off v)
  else if 0x1000 ≤ off && off < 0x5000 then
    if s.fieldRun f then s else s.putReg (.field f) off (v &&& maskWord descBits ((off - 0x1000) / 4 % 16))
  else if 0x10000 ≤ off && off < 0x18000 then
    if s.anyRun then s
    else s.putReg (.field f) off
      (spineWord (off % 0x800 / 2) (fun i e => if i < 640 then fieldEntryBad i e else false) fsetBits v)
  else s

/-- A word of the compute-die block. -/
def State.writeDie (s : State) (d off : Nat) (v : BitVec 32) : State :=
  if off = 0 then s.putIsland (d * 8 + 4) v
  else if off = 8 then s.putIsland (d * 8 + 6) v
  else if s.anyRun then s
  else if 0x100000 ≤ off && off < 0x108000 then
    s.putReg (.die d) off (v &&& maskWord rendBits ((off - 0x100000) / 4 % 8))
  else if 0x300000 ≤ off && off < 0x300200 then
    s.putReg (.die d) off (v &&& maskWord rwinBits ((off - 0x300000) / 4 % 8))
  else if 0x400000 ≤ off && off < 0x404000 then
    s.putReg (.die d) off (spineWord (off % 0x400 / 2) (fun _ e => dieEntryBad s.grade e) dsetBits v)
  else s

/-! ## The stack logic die block (R291–R294) -/

/-- A word of the stack logic die block; grade S has no gleaner. -/
def State.writeStack (s : State) (k off : Nat) (v : BitVec 32) : State :=
  let gleans : Bool := s.grade != 2
  if off = 0 then s.modStack k fun x => { x with hotSeen := x.hotSeen && !v.getLsbD 9 }
  else if off = 0xC then s.modStack k fun x => { x with ueSeen := x.ueSeen && !v.getLsbD 0 }
  else if off = 0x1C then s.modStack k fun x => { x with fault := x.fault && !v.getLsbD 2 }
  else if 0x100 ≤ off && off < 0x200 then s.putTally (.stack (BitVec.ofNat 4 k)) 0x100 off v
  else if 0x10000 ≤ off && off < 0x12000 then (if gleans && !s.anyRun then s.putReg (.stack k) off v else s)
  else s

/-! ## The I/O die blocks (R56, R92, R330, R377, R417, R504, R520) -/

/-- TIME_RATE is clamped to ±858,993 (R56). -/
def clampRate (v : BitVec 32) : BitVec 32 :=
  if 858993 < v.toInt then BitVec.ofInt 32 858993 else if v.toInt < -858993 then BitVec.ofInt 32 (-858993) else v

/-- A word of HEATH_ID, ROUTE, DEVMAP or DEVMAP_SEL (R364–R367, R377–R380): what the steward refuses to write, it does
not write. -/
def State.writeHeath (s : State) (w : Writer) (off : Nat) (v : BitVec 32) : State :=
  let h := s.heath
  if off = 0x3000 then { s with heath := { h with id := v.setWidth 12 } }
  else if 0x04000000 ≤ off && off < 0x04004000 then
    if s.anyRun || (w = .steward && !routeOk s.grade v) then s
    else { s with heath := { h with route := Sparse.set 0 h.route ((off - 0x04000000) / 4) v } }
  else if 0x05000000 ≤ off && off < 0x05004000 then
    if s.anyRun && !h.devSel then s
    else { s with heath := { h with devmapA := Sparse.set 0 h.devmapA ((off - 0x05000000) / 4) (v &&& 0x80000FFF) } }
  else if 0x05004000 ≤ off && off < 0x05008000 then
    if s.anyRun && h.devSel then s
    else { s with heath := { h with devmapB := Sparse.set 0 h.devmapB ((off - 0x05004000) / 4) (v &&& 0x80000FFF) } }
  else if off = 0x05008000 then
    if !s.selectFree || (w = .steward && !oneToOne (if v.getLsbD 0 then h.devmapB else h.devmapA)) then s
    else { s with heath := { h with devSel := v.getLsbD 0 } }
  else s

/-- A word of PORT_CFG or of a link's tallies on I/O die `i`. -/
def State.writePorts (s : State) (i off : Nat) (v : BitVec 32) : State :=
  if 0x5800 ≤ off && off < 0x5900 then
    let p : Bool := i = 1
    let n := (off - 0x5800) / 0x40
    let k := BitVec.ofNat 2 n
    let j := off / 4 % 16
    if 2 ≤ j || !s.subIn p k then s
    else s.configPort p k (putWord (s.subPort p k).cfg j (v &&& maskWord (if n = 0 then portBits else portSubBits) j))
  else if 0x9000 ≤ off && off < 0x9500 then
    let k := (off - 0x9000) / 0x80
    s.putTally (.link (BitVec.ofNat 5 (10 * i + k))) (0x9000 + 0x80 * k) off v
  else s

/-- The bits of a word of a table of I/O die 0 that are not reserved. Bits [7:5] of a byte of TREE_t, which R372 neither
defines nor reserves, keep what is written (DESIGN CHOICE, log entry 110). -/
def io0Bits (off : Nat) : BitVec 32 :=
  if 0x01000000 ≤ off && off < 0x010FFFC0 then maskWord chanBits (off / 4 % 16)
  else if 0x5100 ≤ off && off < 0x5500 then maskWord intakeBits (off / 4 % 4)
  else if off = 0x5014 then 0x3FFFFFFF
  else if 0x03000000 ≤ off && off < 0x03008000 then 0x3FFF3FFF
  else 0xFFFFFFFF

/-- A word of the block of I/O die 0. -/
def State.writeIo0 (s : State) (w : Writer) (off : Nat) (v : BitVec 32) : State :=
  if off = 0x1008 then { s with clk := { s.clk with rate := clampRate v } }
  else if off = 0x1018 then { s with clk := { s.clk with stepRefused := s.clk.stepRefused && !v.getLsbD 3 } }
  else if off = 0x2020 then { s with fab := { s.fab with hold := { s.fab.hold with limit := v } } }
  else if off = 0x5000 then { s with house := { s.house with err := s.house.err && !v.getLsbD 23 } }
  else if 0x9800 ≤ off && off < 0x9A00 then s.putTally .house 0x9800 off v
  else if 0x9A00 ≤ off && off < 0x9B00 then s.putTally .steward 0x9A00 off v
  else if (0x5800 ≤ off && off < 0x5900) || (0x9000 ≤ off && off < 0x9500) then s.writePorts 0 off v
  else if off = 0x3000 || (0x04000000 ≤ off && off < 0x06000000) then s.writeHeath w off v
  else if s.anyRun then s
  else s.putReg (.io 0) off (v &&& io0Bits off)

/-- A word of the block of I/O die 1. -/
def State.writeIo1 (s : State) (off : Nat) (v : BitVec 32) : State :=
  if off = 0x7004 then { s with surv := { s.surv with granErr := s.surv.granErr && !v.getLsbD 8 } }
  else if off = 0x8004 then { s with power := { s.power with uvSeen := s.power.uvSeen && !v.getLsbD 8 } }
  else if off = 0x8008 then s.setCap (v.setWidth 16)
  else s.writePorts 1 off v

/-! ## Registers by address (R32–R34) -/

/-- The registers of an absent link, of a sub-port that the mode does not have, and of a tally of an absent unit are holes
(R377, R417, R522). -/
def State.regHole (s : State) (b : RegBlock) (off : Nat) : Bool :=
  match b with
  | .io i =>
    if 0x4000 ≤ off && off < 0x4280 then !linkIn s.grade (10 * i + (off - 0x4000) / 0x40)
    else if 0x5800 ≤ off && off < 0x5900 then !s.subIn (i = 1) (BitVec.ofNat 2 ((off - 0x5800) / 0x40))
    else if 0x9000 ≤ off && off < 0x9500 then !linkIn s.grade (10 * i + (off - 0x9000) / 0x80)
    else false
  | _ => false

/-- The block and offset of a register's address; none where the access meets a hole. -/
def State.regAt (s : State) (a : Nat) : Option (RegBlock × Nat) :=
  (regBlock s.grade a).filter fun x => !s.regHole x.1 x.2

/-- The address lies in a hole for the steward or JTAG (R31, R32): no register, no populated DRAM or scratchpad, and no
till. The till region takes accesses of 4 B only (R301). The image store and the ledger are holes to JTAG (R465, R513). -/
def State.isHole (s : State) (w : Writer) (wide : Bool) (a : Nat) : Bool :=
  if 0x1F0000000000 ≤ a then (s.regAt a).isNone
  else if 0x110000000000 ≤ a && a < 0x110000040000 then wide || 0x8000 ≤ a % 0x10000
  else match place s.grade (w = .jtag) a with
    | .dram _ _ => false
    | .pad _ _ => false
    | _ => true

/-! ## REGISTER_WRITE -/

/-- A 32-bit word written at an offset of a block. -/
def State.writeWord (s : State) (w : Writer) (b : RegBlock) (off : Nat) (v : BitVec 32) : State :=
  match b with
  | .tile t => s.writeTile t off v
  | .field f => s.writeField f off v
  | .die d => s.writeDie d off v
  | .stack k => s.writeStack k off v
  | .io i => if i = 0 then s.writeIo0 w off v else s.writeIo1 off v

/-- REGISTER_WRITE: 4 or 8 bytes at a device address that is a multiple of their number; a write into a hole writes
nothing and reports an address error to its sender alone (R32), and one to memory or a till is no command of this row. Bits
that have rows of their own (HL_CTRL, MEASURE, TIME_STEP, TALLY_LATCH, EVENT, QUAL and CLEAR of TALLY_CFG) are left to
them. -/
def execRegisterWrite (w : Writer) (addr : BitVec 48) (value : BitVec 64) (wide : Bool) (s : State) : Answer :=
  let a := addr.toNat
  .next (
    if !s.reaches w || a % (if wide then 8 else 4) != 0 then s
    else match s.regAt a with
      | none => if s.isHole w wide a then s.emit (.addressError w addr) else s
      | some (b, off) =>
        let s := s.writeWord w b off (value.setWidth 32)
        if wide then s.writeWord w b (off + 4) (value.extractLsb' 32 32) else s)

end Sys2Proof.Machine
end

