-- ==== Sys2Proof/Machine/Vector.lean ====
section
/-!
DEFINITION. The vector engine (R112–R115, R147–R149, R179–R183, R192–R196, R208–R219): the meaning of every V-slot
operation, and the completion of results.
-/
namespace Sys2Proof.Machine

/-! ## The fields of a V slot (R112–R114, R147, R149) -/

/-- What an operation does with the fields of its slot. `srcA` and `dst`: 0 unused, 1 a 512 B end, 2 a 64 B end. -/
structure VForm where
  srcA : Nat := 0
  b : Bool := false
  c : Bool := false
  dst : Nat := 1
  rnd : Bool := false
  fmt : Bool := false
  part : Bool := false
  sh : Bool := false
  xa : Bool := false
  xb : Bool := false
  slice : Bool := false
  deriving DecidableEq, Repr

/-- The parts of the 128 lanes that a format's 64 B words cover (R114). -/
def partsOf (fmt : BitVec 4) : Nat := 128 * fmtBits fmt / 512

/-- The rules of R103, R104, R112, R114 and R147 on the fields of a V slot. -/
def VForm.ok (f : VForm) (v : VSlot) : Bool :=
  v.rsv = 0
  && (if f.srcA = 1 then qeSrcV v.srcA else if f.srcA = 2 then qeSrc64 v.srcA else v.srcA = qeNone)
  && (if v.bp then f.b else if f.b then qeSrcV v.srcB else v.srcB = qeNone)
  && (if f.c then qeSrcV v.srcC else v.srcC = qeNone)
  && (if f.dst = 1 then qeDstV v.dst else if f.dst = 2 then qeDst64 v.dst || v.dst = qeNone else v.dst = qeNone)
  && (f.rnd || v.rnd = 0)
  && (f.fmt || v.fmt = 0)
  && (f.part || v.part = 0)
  && (f.sh || v.sh = 0)
  && (f.xa || v.xa = 0)
  && (f.xb || v.xb = 0)
  && (if f.slice then v.slice.toNat < 10 else v.slice = 0)

/-- The ends of an operation: its destination is claimed, and each popping end that it names is popped once, whatever
fields name it (R105). -/
def Tile.sources (x : Tile) (now : Scc) (f : VForm) (v : VSlot) : Except Failure (Vec × Vec × Vec × Tile) := do
  let x ← x.claimPush 1 v.dst
  x.endsReady now 1 ([v.srcA, if v.bp then qeNone else v.srcB, v.srcC].filter qePops)
  let (a, x) ← if f.srcA = 1 then x.readV now 1 v.srcA else .ok (0, x)
  let (b, x) ←
    if v.bp then .ok (vecOf32 fun _ => (x.param v.srcB).toNat, x)
    else if !f.b then .ok (0, x)
    else if f.srcA = 1 && v.srcB = v.srcA then .ok (a, x)
    else x.readV now 1 v.srcB
  let (c, x) ←
    if !f.c then .ok (0, x)
    else if f.srcA = 1 && v.srcC = v.srcA then .ok (a, x)
    else if f.b && !v.bp && v.srcC = v.srcB then .ok (b, x)
    else x.readV now 1 v.srcC
  .ok (a, b, c, x)

/-- A result enters the pipe (R208): it completes in cycle now + L − 1. -/
def Tile.result (x : Tile) (now : Scc) (lat : Nat) (dst : BitVec 6) (data : Vec) (flags : BitVec 13) : Tile :=
  { x with vec := { x.vec with results := x.vec.results ++
      [{ dst := dst, data := data, due := now + BitVec.ofNat 48 (lat - 1), issued := now, iaddr := x.iaddr, slot := 1,
         flags := flags }] } }

/-! ## Lane-wise operations -/

/-- One V operation over the lanes: its form, its latency and its result with its flags. -/
structure LaneOp where
  form : VForm
  lat : Nat
  run : VSlot → Vec → Vec → Vec → Vec × BitVec 13

/-- The issue of a lane-wise operation. -/
def laneIssue (o : LaneOp) (v : VSlot) (e : IssueEnv) (x : Tile) : Except Failure Tile := do
  check (o.form.ok v) (illegal 1)
  let (a, b, c, x) ← x.sources e.now o.form v
  let r := o.run v a b c
  .ok ((x.result e.now o.lat v.dst r.1 r.2).count 0x05 1)

/-- A 32-bit lane function that may raise FP32 flags. -/
def perLane (f : VSlot → Nat → Nat → Nat → Nat × FpFlags) : VSlot → Vec → Vec → Vec → Vec × BitVec 13 :=
  fun v a b c =>
    let r := lanesFlags 128 fun i => f v (lane32 a i) (lane32 b i) (lane32 c i)
    (vecOfList 32 r.1, r.2.setWidth 13)

/-- A 32-bit lane function without flags. -/
def perLaneI (f : VSlot → Nat → Nat → Nat → Nat) : VSlot → Vec → Vec → Vec → Vec × BitVec 13 :=
  fun v a b c => (vecOf32 fun i => f v (lane32 a i) (lane32 b i) (lane32 c i), 0)

def formA : VForm := { srcA := 1 }
def formAB : VForm := { srcA := 1, b := true }
def formFA : VForm := { srcA := 1, rnd := true }
def formFAB : VForm := { srcA := 1, b := true, rnd := true }
def formFABC : VForm := { srcA := 1, b := true, c := true, rnd := true }
def formSh : VForm := { srcA := 1, sh := true }

/-- Lane i of the result of each operation (R113, R179). -/
def opMov : LaneOp := { form := formA, lat := 2, run := fun _ a _ _ => (a, 0) }
def opFadd : LaneOp := { form := formFAB, lat := 4, run := perLane fun v a b _ => binary32.add v.rnd a b }
def opFsub : LaneOp := { form := formFAB, lat := 4, run := perLane fun v a b _ => binary32.sub v.rnd a b }
def opFmul : LaneOp := { form := formFAB, lat := 4, run := perLane fun v a b _ => binary32.mul v.rnd a b }
def opFma : LaneOp := { form := formFABC, lat := 4, run := perLane fun v a b c => binary32.fma v.rnd a b c }
def opFmax : LaneOp := { form := formFAB, lat := 2, run := perLane fun _ a b _ => binary32.max a b }
def opFmin : LaneOp := { form := formFAB, lat := 2, run := perLane fun _ a b _ => binary32.min a b }
def opFabs : LaneOp := { form := formFA, lat := 2, run := perLaneI fun _ a _ _ => a % 2 ^ 31 }
def opFneg : LaneOp := { form := formFA, lat := 2, run := perLaneI fun _ a _ _ => (a + 2 ^ 31) % 2 ^ 32 }
def opFcmpgt : LaneOp := { form := formFAB, lat := 2, run := perLane fun _ a b _ => fcmpGt32 a b }
def opFcmpeq : LaneOp := { form := formFAB, lat := 2, run := perLane fun _ a b _ => fcmpEq32 a b }
def opSel : LaneOp := { form := formFABC, lat := 2, run := perLaneI fun _ a b c => if c = 0 then b else a }
def opTrans (code : BitVec 8) : LaneOp :=
  { form := formFA, lat := 8, run := perLane fun v a _ _ => trans32 code v.rnd a }
def opIadd : LaneOp := { form := formAB, lat := 2, run := perLaneI fun _ a b _ => (a + b) % 2 ^ 32 }
def opIsub : LaneOp := { form := formAB, lat := 2, run := perLaneI fun _ a b _ => (a + 2 ^ 32 - b) % 2 ^ 32 }
def opImul : LaneOp := { form := formAB, lat := 3, run := perLaneI fun _ a b _ => a * b % 2 ^ 32 }
def opAnd : LaneOp := { form := formAB, lat := 2, run := fun _ a b _ => (a &&& b, 0) }
def opOr : LaneOp := { form := formAB, lat := 2, run := fun _ a b _ => (a ||| b, 0) }
def opXor : LaneOp := { form := formAB, lat := 2, run := fun _ a b _ => (a ^^^ b, 0) }
def opShl : LaneOp :=
  { form := formSh, lat := 2, run := perLaneI fun v a _ _ => a * 2 ^ (v.sh.toNat % 32) % 2 ^ 32 }
def opShr : LaneOp := { form := formSh, lat := 2, run := perLaneI fun v a _ _ => a / 2 ^ (v.sh.toNat % 32) }
def opSar : LaneOp :=
  { form := formSh, lat := 2, run := perLaneI fun v a _ _ =>
      ((BitVec.ofNat 32 a).sshiftRight (v.sh.toNat % 32)).toNat }
def opRot : LaneOp :=
  { form := formSh, lat := 2, run := fun v a _ _ => (vecOf32 fun i => lane32 a ((i + v.sh.toNat) % 128), 0) }

def execMov (t : TileNo) (v : VSlot) (s : State) : Answer := .next (s.issue t 1 (laneIssue opMov v) (vUses v))
def execFadd (t : TileNo) (v : VSlot) (s : State) : Answer := .next (s.issue t 1 (laneIssue opFadd v) (vUses v))
def execFsub (t : TileNo) (v : VSlot) (s : State) : Answer := .next (s.issue t 1 (laneIssue opFsub v) (vUses v))
def execFmul (t : TileNo) (v : VSlot) (s : State) : Answer := .next (s.issue t 1 (laneIssue opFmul v) (vUses v))
def execFma (t : TileNo) (v : VSlot) (s : State) : Answer := .next (s.issue t 1 (laneIssue opFma v) (vUses v))
def execFmax (t : TileNo) (v : VSlot) (s : State) : Answer := .next (s.issue t 1 (laneIssue opFmax v) (vUses v))
def execFmin (t : TileNo) (v : VSlot) (s : State) : Answer := .next (s.issue t 1 (laneIssue opFmin v) (vUses v))
def execFabs (t : TileNo) (v : VSlot) (s : State) : Answer := .next (s.issue t 1 (laneIssue opFabs v) (vUses v))
def execFneg (t : TileNo) (v : VSlot) (s : State) : Answer := .next (s.issue t 1 (laneIssue opFneg v) (vUses v))
def execFcmpgt (t : TileNo) (v : VSlot) (s : State) : Answer := .next (s.issue t 1 (laneIssue opFcmpgt v) (vUses v))
def execFcmpeq (t : TileNo) (v : VSlot) (s : State) : Answer := .next (s.issue t 1 (laneIssue opFcmpeq v) (vUses v))
def execSel (t : TileNo) (v : VSlot) (s : State) : Answer := .next (s.issue t 1 (laneIssue opSel v) (vUses v))
/-- R214: e^A. -/
def execExp (t : TileNo) (v : VSlot) (s : State) : Answer := .next (s.issue t 1 (laneIssue (opTrans 0x10) v) (vUses v))
/-- R214: ln A. -/
def execLog (t : TileNo) (v : VSlot) (s : State) : Answer := .next (s.issue t 1 (laneIssue (opTrans 0x11) v) (vUses v))
/-- R214: tanh A. -/
def execTanh (t : TileNo) (v : VSlot) (s : State) : Answer := .next (s.issue t 1 (laneIssue (opTrans 0x12) v) (vUses v))
/-- R214: the logistic sigmoid of A. -/
def execSigm (t : TileNo) (v : VSlot) (s : State) : Answer := .next (s.issue t 1 (laneIssue (opTrans 0x13) v) (vUses v))
/-- R214: 1/√A. -/
def execRsqrt (t : TileNo) (v : VSlot) (s : State) : Answer := .next (s.issue t 1 (laneIssue (opTrans 0x14) v) (vUses v))
def execIadd (t : TileNo) (v : VSlot) (s : State) : Answer := .next (s.issue t 1 (laneIssue opIadd v) (vUses v))
def execIsub (t : TileNo) (v : VSlot) (s : State) : Answer := .next (s.issue t 1 (laneIssue opIsub v) (vUses v))
def execImul (t : TileNo) (v : VSlot) (s : State) : Answer := .next (s.issue t 1 (laneIssue opImul v) (vUses v))
def execAnd (t : TileNo) (v : VSlot) (s : State) : Answer := .next (s.issue t 1 (laneIssue opAnd v) (vUses v))
def execOr (t : TileNo) (v : VSlot) (s : State) : Answer := .next (s.issue t 1 (laneIssue opOr v) (vUses v))
def execXor (t : TileNo) (v : VSlot) (s : State) : Answer := .next (s.issue t 1 (laneIssue opXor v) (vUses v))
def execShl (t : TileNo) (v : VSlot) (s : State) : Answer := .next (s.issue t 1 (laneIssue opShl v) (vUses v))
def execShr (t : TileNo) (v : VSlot) (s : State) : Answer := .next (s.issue t 1 (laneIssue opShr v) (vUses v))
def execSar (t : TileNo) (v : VSlot) (s : State) : Answer := .next (s.issue t 1 (laneIssue opSar v) (vUses v))
def execRot (t : TileNo) (v : VSlot) (s : State) : Answer := .next (s.issue t 1 (laneIssue opRot v) (vUses v))

/-! ## Conversions (R182, R183) -/

/-- The 64 B word of part `p`: the lanes of the part converted to `fmt` (R114, R182). -/
def cvtnWord (fmt : BitVec 4) (rnd : BitVec 2) (p : Nat) (a : Vec) : Vec :=
  let n := 512 / fmtBits fmt
  let n := if n = 128 then 128 else n
  vecOfList (fmtBits fmt) ((List.range n).map fun i => cvtnLane fmt rnd (lane32 a (p * n + i)))

/-- The lanes of part `p` widened from the 64 B word, the other lanes from B (R183). -/
def cvtwVec (fmt : BitVec 4) (p : Nat) (w : Line) (b : Vec) : Vec :=
  let k := fmtBits fmt
  let n := 512 / k
  vecOf32 fun i =>
    if p * n ≤ i && i < p * n + n then cvtwLane fmt (w.extractLsb' ((i - p * n) * k) k).toNat else lane32 b i

def cvtFmtOk (fmt : BitVec 4) : Bool := fmt.toNat < 11 && fmt != 7

def cvtnIssue (v : VSlot) (e : IssueEnv) (x : Tile) : Except Failure Tile := do
  let f : VForm := { srcA := 1, dst := 2, rnd := true, fmt := true, part := true }
  check (f.ok v && cvtFmtOk v.fmt && v.part.toNat < partsOf v.fmt && (fmtIsInt v.fmt || v.rnd = 0)) (illegal 1)
  let (a, _, _, x) ← x.sources e.now f v
  .ok ((x.result e.now 3 v.dst (cvtnWord v.fmt v.rnd v.part.toNat a) 0).count 0x05 1)

def cvtwIssue (v : VSlot) (e : IssueEnv) (x : Tile) : Except Failure Tile := do
  let f : VForm := { srcA := 2, b := true, fmt := true, part := true }
  check (f.ok v && cvtFmtOk v.fmt && v.part.toNat < partsOf v.fmt) (illegal 1)
  let (_, b, _, x) ← x.sources e.now f v
  let (w, x) ← x.pop64 e.now 1 v.srcA
  .ok ((x.result e.now 3 v.dst (cvtwVec v.fmt v.part.toNat w b) 0).count 0x05 1)

/-- R113, R182. -/
def execCvtn (t : TileNo) (v : VSlot) (s : State) : Answer := .next (s.issue t 1 (cvtnIssue v) (vUses v))
/-- R113, R183. -/
def execCvtw (t : TileNo) (v : VSlot) (s : State) : Answer := .next (s.issue t 1 (cvtwIssue v) (vUses v))

/-! ## The random-number generator (R216, R217) -/

/-- One word of the seed schedule: k[0]–k[3], and k[4] (R216). -/
def rngKey (k : BitVec 128) (i : Nat) : BitVec 32 :=
  if i % 5 = 4 then
    k.extractLsb' 0 32 ^^^ k.extractLsb' 32 32 ^^^ k.extractLsb' 64 32 ^^^ k.extractLsb' 96 32 ^^^ 0x6A5D39E1
  else k.extractLsb' (32 * (i % 5)) 32

def rngRa : List Nat := [11, 19, 7, 25, 14, 3, 28, 9]
def rngRb : List Nat := [23, 5, 17, 12, 30, 21, 6, 15]

/-- One round of R216 on x[0]–x[3]. -/
def rngRound (k : BitVec 128) (x : BitVec 32 × BitVec 32 × BitVec 32 × BitVec 32) (r : Nat) :
    BitVec 32 × BitVec 32 × BitVec 32 × BitVec 32 :=
  let (x0, x1, x2, x3) := x
  let x0 := x0 + x1
  let x1 := x1.rotateLeft (rngRa.getD (r % 8) 0) ^^^ x0
  let x2 := x2 + x3
  let x3 := x3.rotateLeft (rngRb.getD (r % 8) 0) ^^^ x2
  let (x1, x3) := (x3, x1)
  if r % 4 = 3 then
    let n := (r + 1) / 4
    (x0 + rngKey k n, x1 + rngKey k (n + 1), x2 + rngKey k (n + 2), x3 + rngKey k (n + 3) + BitVec.ofNat 32 n)
  else (x0, x1, x2, x3)

/-- The generator function F of R216. -/
def rngF (k x : BitVec 128) : BitVec 128 :=
  let s := (x.extractLsb' 0 32 + rngKey k 0, x.extractLsb' 32 32 + rngKey k 1, x.extractLsb' 64 32 + rngKey k 2,
    x.extractLsb' 96 32 + rngKey k 3)
  let (a, b, c, d) := (List.range 12).foldl (rngRound k) s
  d ++ c ++ b ++ a

/-- The 32 blocks of one RNG operation (R217). -/
def rngBlocks (seed ctr : BitVec 128) (x3 : BitVec 32) : Vec :=
  vecOfList 128 ((List.range 32).map fun j =>
    (rngF seed ((ctr + BitVec.ofNat 128 j) ^^^ (x3 ++ (0 : BitVec 96)))).toNat)

def rngIssue (v : VSlot) (e : IssueEnv) (x : Tile) : Except Failure Tile := do
  let f : VForm := { b := v.bp }
  check (f.ok v) (illegal 1)
  let x ← x.claimPush 1 v.dst
  let d := rngBlocks x.vec.seed x.vec.ctr (if v.bp then x.param v.srcB else 0)
  let x := x.result e.now 4 v.dst d 0
  .ok ({ x with vec := { x.vec with ctr := x.vec.ctr + 32 } }.count 0x05 1)

/-- R217. -/
def execRng (t : TileNo) (v : VSlot) (s : State) : Answer := .next (s.issue t 1 (rngIssue v) (vUses v))

/-! ## Exact accumulators (R147, R148, R192–R196) -/

def Tile.exa (x : Tile) (k : BitVec 2) : BitVec 40960 := Sparse.get 0 x.vec.exa k.toNat
def Tile.setExa (x : Tile) (k : BitVec 2) (v : BitVec 40960) : Tile :=
  { x with vec := { x.vec with exa := Sparse.set 0 x.vec.exa k.toNat v } }

def exaLane (v : BitVec 40960) (i : Nat) : Nat := (v.extractLsb' (320 * i) 320).toNat
def exaOf (f : Nat → Nat) : BitVec 40960 :=
  BitVec.ofNat 40960 ((List.range 128).foldr (fun i acc => f i % 2 ^ 320 + 2 ^ 320 * acc) 0)

/-- The EXA unit is occupied in cycle `now` (R148). -/
def Tile.exaBusy (x : Tile) (now : Scc) : Bool :=
  match x.vec.exaUntil with
  | some c => (c - now).toNat < 4
  | none => false

/-- An EXA operation: its fields, the unit's occupancy of `n` cycles, and its effect (R148). -/
def exaIssue (f : VForm) (extra : Bool) (n : Nat) (v : VSlot)
    (run : IssueEnv → Vec → Tile → Tile) (e : IssueEnv) (x : Tile) : Except Failure Tile := do
  check (f.ok v && extra) (illegal 1)
  check (!x.exaBusy e.now) (inconsistent 1)
  let (a, _, _, x) ← x.sources e.now f v
  let x := run e a x
  .ok ({ x with vec := { x.vec with exaUntil := some (e.now + BitVec.ofNat 48 (n - 1)) } }.count 0x05 1)

/-- EXA_XA[i] := 0. -/
def xclrIssue (v : VSlot) : IssueEnv → Tile → Except Failure Tile :=
  exaIssue { dst := 0, xa := true } true 1 v fun _ _ x => x.setExa v.xa 0

/-- The addend of lane i in XADD: FP32, or SF16 in bits [15:0] (R147, R193). -/
def xaddNum (fmt : BitVec 4) (a : Nat) : Num :=
  if fmt = 5 then shortDecode 5 (a % 2 ^ 16) else binary32.decode a

def xaddIssue (v : VSlot) : IssueEnv → Tile → Except Failure Tile :=
  exaIssue { srcA := 1, dst := 0, fmt := true, xa := true } (v.fmt = 5 || v.fmt = 6) 4 v fun _ a x =>
    let old := x.exa v.xa
    x.setExa v.xa (exaOf fun i => exaAdd (exaLane old i) (xaddNum v.fmt (lane32 a i)))

def xsumIssue (v : VSlot) : IssueEnv → Tile → Except Failure Tile :=
  exaIssue { dst := 0, xa := true, xb := true } true 4 v fun _ _ x =>
    let p := x.exa v.xa
    let q := x.exa v.xb
    x.setExa v.xa (exaOf fun i => exaSum (exaLane p i) (exaLane q i))

def xrdIssue (v : VSlot) : IssueEnv → Tile → Except Failure Tile :=
  exaIssue { rnd := true, xa := true } true 1 v fun e _ x =>
    let p := x.exa v.xa
    let r := lanesFlags 128 fun i => exaRead v.rnd (exaLane p i)
    x.result e.now 4 v.dst (vecOfList 32 r.1) (r.2.setWidth 13)

def xoutIssue (v : VSlot) : IssueEnv → Tile → Except Failure Tile :=
  exaIssue { xa := true, slice := true } true 1 v fun e _ x =>
    let p := x.exa v.xa
    x.result e.now 2 v.dst (vecOf32 fun i => exaLane p i / 2 ^ (32 * v.slice.toNat) % 2 ^ 32) 0

/-- A lane with slice `k` replaced; slice 9 keeps bits [319:313] at 0 (R196). -/
def exaPut (lane k w : Nat) : Nat :=
  let w := if k = 9 then w % 2 ^ 25 else w
  let low := lane % 2 ^ (32 * k)
  let high := lane / 2 ^ (32 * k + 32)
  low + w * 2 ^ (32 * k) + high * 2 ^ (32 * k + 32)

def xinIssue (v : VSlot) : IssueEnv → Tile → Except Failure Tile :=
  exaIssue { srcA := 1, dst := 0, xa := true, slice := true } true 1 v fun _ a x =>
    let p := x.exa v.xa
    x.setExa v.xa (exaOf fun i => exaPut (exaLane p i) v.slice.toNat (lane32 a i))

/-- R147. -/
def execXclr (t : TileNo) (v : VSlot) (s : State) : Answer := .next (s.issue t 1 (xclrIssue v) (vUses v))
/-- R193. -/
def execXadd (t : TileNo) (v : VSlot) (s : State) : Answer := .next (s.issue t 1 (xaddIssue v) (vUses v))
/-- R193. -/
def execXsum (t : TileNo) (v : VSlot) (s : State) : Answer := .next (s.issue t 1 (xsumIssue v) (vUses v))
/-- R195. -/
def execXrd (t : TileNo) (v : VSlot) (s : State) : Answer := .next (s.issue t 1 (xrdIssue v) (vUses v))
/-- R196. -/
def execXout (t : TileNo) (v : VSlot) (s : State) : Answer := .next (s.issue t 1 (xoutIssue v) (vUses v))
/-- R196. -/
def execXin (t : TileNo) (v : VSlot) (s : State) : Answer := .next (s.issue t 1 (xinIssue v) (vUses v))

/-! ## The FP64 pipe (R149, R219) -/

def Tile.fp64Busy (x : Tile) (now : Scc) : Bool :=
  match x.vec.fp64Until with
  | some c => (c - now).toNat < 2
  | none => false

/-- An operation of the FP64 pipe: absent on grades L and S, and one that finds the pipe occupied is inconsistent. -/
def fp64Issue (o : LaneOp) (extra : Bool) (v : VSlot) (e : IssueEnv) (x : Tile) : Except Failure Tile := do
  check (o.form.ok v && extra) (illegal 1)
  check (e.grade = 0) (absentUnit 1 5 0)
  check (!x.fp64Busy e.now) (inconsistent 1)
  let (a, b, c, x) ← x.sources e.now o.form v
  let r := o.run v a b c
  let x := x.result e.now o.lat v.dst r.1 r.2
  .ok ({ x with vec := { x.vec with fp64Until := some (e.now + 1) } }.count 0x05 1)

/-- A 64-bit lane function that may raise FP64 flags. -/
def perLane64 (f : VSlot → Nat → Nat → Nat → Nat × FpFlags) : VSlot → Vec → Vec → Vec → Vec × BitVec 13 :=
  fun v a b c =>
    let r := lanesFlags 64 fun j => f v (lane64 a j) (lane64 b j) (lane64 c j)
    (vecOfList 64 r.1, r.2.setWidth 13 <<< 8)

def opDadd : LaneOp := { form := formFAB, lat := 6, run := perLane64 fun v a b _ => binary64.add v.rnd a b }
def opDsub : LaneOp := { form := formFAB, lat := 6, run := perLane64 fun v a b _ => binary64.sub v.rnd a b }
def opDmul : LaneOp := { form := formFAB, lat := 6, run := perLane64 fun v a b _ => binary64.mul v.rnd a b }
def opDfma : LaneOp := { form := formFABC, lat := 6, run := perLane64 fun v a b c => binary64.fma v.rnd a b c }
/-- F2D: the 64 FP32 lanes of part PART widened (R149, R183). -/
def opF2d : LaneOp :=
  { form := { srcA := 1, part := true }, lat := 4, run := fun v a _ _ =>
      let r := lanesFlags 64 fun j => binary64.convert 0 (binary32.decode (lane32 a (v.part.toNat * 64 + j)))
      (vecOfList 64 r.1, r.2.setWidth 13 <<< 8) }
/-- D2F: 64 lanes rounded into part PART, the other lanes from B (R149, R183). -/
def opD2f : LaneOp :=
  { form := { srcA := 1, b := true, rnd := true, part := true }, lat := 4, run := fun v a b _ =>
      let r := lanesFlags 64 fun j => binary32.convert v.rnd (binary64.decode (lane64 a j))
      let p := v.part.toNat * 64
      (vecOf32 fun i => if p ≤ i && i < p + 64 then r.1.getD (i - p) 0 else lane32 b i, r.2.setWidth 13 <<< 8) }

/-- R149. -/
def execDadd (t : TileNo) (v : VSlot) (s : State) : Answer := .next (s.issue t 1 (fp64Issue opDadd true v) (vUses v))
/-- R149. -/
def execDsub (t : TileNo) (v : VSlot) (s : State) : Answer := .next (s.issue t 1 (fp64Issue opDsub true v) (vUses v))
/-- R149. -/
def execDmul (t : TileNo) (v : VSlot) (s : State) : Answer := .next (s.issue t 1 (fp64Issue opDmul true v) (vUses v))
/-- R149. -/
def execDfma (t : TileNo) (v : VSlot) (s : State) : Answer := .next (s.issue t 1 (fp64Issue opDfma true v) (vUses v))
/-- R149, R183. -/
def execF2d (t : TileNo) (v : VSlot) (s : State) : Answer :=
  .next (s.issue t 1 (fp64Issue opF2d (v.part.toNat < 2) v) (vUses v))
/-- R149, R183. -/
def execD2f (t : TileNo) (v : VSlot) (s : State) : Answer :=
  .next (s.issue t 1 (fp64Issue opD2f (v.part.toNat < 2) v) (vUses v))

/-! ## Completion (R115, R208, R210) -/

/-- The results due in cycle `now` for one destination arrive at it. -/
def Tile.completeDst (x : Tile) (now : Scc) (dst : BitVec 6) : Tile :=
  { x with
    vec := { x.vec with results := x.vec.results.filter fun r => !(r.dst = dst && r.due = now) }
    arrived := x.arrived ++ x.vec.results.filter fun r => r.dst = dst && r.due = now }

/-- V_RESULT_COMPLETE: the results due in this cycle for one destination arrive; they enter it, and raise their flags,
at the end of the cycle (R107, R115, R180). -/
def State.completeResults (s : State) (t : Nat) (dst : BitVec 6) : State :=
  s.modTile t fun x => x.completeDst s.fab.scc dst

/-- R115, R208, R210. -/
def execVResultComplete (t : TileNo) (dst : BitVec 6) (s : State) : Answer :=
  .next (if s.running && tileIn s.grade t.toNat then s.completeResults t.toNat dst else s)

end Sys2Proof.Machine
end

