-- ==== Sys2Proof/Machine/Dispatch.lean ====
section
/-!
DEFINITION. The dispatch of a command to its meaning: one arm for each row of spec/opcode_table.json.
-/
namespace Sys2Proof.Machine

def exec (i : Instr) (s : State) : Host.Outcome State Fault Refusal :=
  match i with
  | .mma t m => Sys2Proof.Machine.execMma t m s
  | .ldw t m => Sys2Proof.Machine.execLdw t m s
  | .weightLoadComplete t plane => Sys2Proof.Machine.execWeightLoadComplete t plane s
  | .passSettle t bank => Sys2Proof.Machine.execPassSettle t bank s
  | .mov t v => Sys2Proof.Machine.execMov t v s
  | .fadd t v => Sys2Proof.Machine.execFadd t v s
  | .fsub t v => Sys2Proof.Machine.execFsub t v s
  | .fmul t v => Sys2Proof.Machine.execFmul t v s
  | .fma t v => Sys2Proof.Machine.execFma t v s
  | .fmax t v => Sys2Proof.Machine.execFmax t v s
  | .fmin t v => Sys2Proof.Machine.execFmin t v s
  | .fabs t v => Sys2Proof.Machine.execFabs t v s
  | .fneg t v => Sys2Proof.Machine.execFneg t v s
  | .fcmpgt t v => Sys2Proof.Machine.execFcmpgt t v s
  | .fcmpeq t v => Sys2Proof.Machine.execFcmpeq t v s
  | .sel t v => Sys2Proof.Machine.execSel t v s
  | .exp t v => Sys2Proof.Machine.execExp t v s
  | .log t v => Sys2Proof.Machine.execLog t v s
  | .tanh t v => Sys2Proof.Machine.execTanh t v s
  | .sigm t v => Sys2Proof.Machine.execSigm t v s
  | .rsqrt t v => Sys2Proof.Machine.execRsqrt t v s
  | .iadd t v => Sys2Proof.Machine.execIadd t v s
  | .isub t v => Sys2Proof.Machine.execIsub t v s
  | .imul t v => Sys2Proof.Machine.execImul t v s
  | .and_ t v => Sys2Proof.Machine.execAnd t v s
  | .or_ t v => Sys2Proof.Machine.execOr t v s
  | .xor t v => Sys2Proof.Machine.execXor t v s
  | .shl t v => Sys2Proof.Machine.execShl t v s
  | .shr t v => Sys2Proof.Machine.execShr t v s
  | .sar t v => Sys2Proof.Machine.execSar t v s
  | .rot t v => Sys2Proof.Machine.execRot t v s
  | .cvtn t v => Sys2Proof.Machine.execCvtn t v s
  | .cvtw t v => Sys2Proof.Machine.execCvtw t v s
  | .rng t v => Sys2Proof.Machine.execRng t v s
  | .xclr t v => Sys2Proof.Machine.execXclr t v s
  | .xadd t v => Sys2Proof.Machine.execXadd t v s
  | .xsum t v => Sys2Proof.Machine.execXsum t v s
  | .xrd t v => Sys2Proof.Machine.execXrd t v s
  | .xout t v => Sys2Proof.Machine.execXout t v s
  | .xin t v => Sys2Proof.Machine.execXin t v s
  | .dadd t v => Sys2Proof.Machine.execDadd t v s
  | .dsub t v => Sys2Proof.Machine.execDsub t v s
  | .dmul t v => Sys2Proof.Machine.execDmul t v s
  | .dfma t v => Sys2Proof.Machine.execDfma t v s
  | .f2d t v => Sys2Proof.Machine.execF2d t v s
  | .d2f t v => Sys2Proof.Machine.execD2f t v s
  | .vResultComplete t dst => Sys2Proof.Machine.execVResultComplete t dst s
  | .ld t l => Sys2Proof.Machine.execLd t l s
  | .st t l => Sys2Proof.Machine.execSt t l s
  | .ldv t l => Sys2Proof.Machine.execLdv t l s
  | .stv t l => Sys2Proof.Machine.execStv t l s
  | .ocw t l => Sys2Proof.Machine.execOcw t l s
  | .scratchpadWriteLand t => Sys2Proof.Machine.execScratchpadWriteLand t s
  | .pget t l => Sys2Proof.Machine.execPget t l s
  | .pput t l => Sys2Proof.Machine.execPput t l s
  | .gpost t l => Sys2Proof.Machine.execGpost t l s
  | .requestLineRead t => Sys2Proof.Machine.execRequestLineRead t s
  | .take t x => Sys2Proof.Machine.execTake t x s
  | .tap t x => Sys2Proof.Machine.execTap t x s
  | .drive t x => Sys2Proof.Machine.execDrive t x s
  | .move t x => Sys2Proof.Machine.execMove t x s
  | .streamWordArrival t west track => Sys2Proof.Machine.execStreamWordArrival t west track s
  | .loop t c => Sys2Proof.Machine.execLoop t c s
  | .loopEnd t level rsv => Sys2Proof.Machine.execLoopEnd t level rsv s
  | .jump t c => Sys2Proof.Machine.execJump t c s
  | .idle t c => Sys2Proof.Machine.execIdle t c s
  | .idleExpiry t => Sys2Proof.Machine.execIdleExpiry t s
  | .endProgram t c => Sys2Proof.Machine.execEndProgram t c s
  | .tadd t c => Sys2Proof.Machine.execTadd t c s
  | .tsub t c => Sys2Proof.Machine.execTsub t c s
  | .wait t c => Sys2Proof.Machine.execWait t c s
  | .waitSample t => Sys2Proof.Machine.execWaitSample t s
  | .drain t c => Sys2Proof.Machine.execDrain t c s
  | .drainSample => Sys2Proof.Machine.execDrainSample s
  | .spineSetSwitch => Sys2Proof.Machine.execSpineSetSwitch s
  | .fallowBankPowerDown t bank => Sys2Proof.Machine.execFallowBankPowerDown t bank s
  | .bankWakeComplete t bank => Sys2Proof.Machine.execBankWakeComplete t bank s
  | .farm t c => Sys2Proof.Machine.execFarm t c s
  | .agset t c => Sys2Proof.Machine.execAgset t c s
  | .agadd t c => Sys2Proof.Machine.execAgadd t c s
  | .eopen t c => Sys2Proof.Machine.execEopen t c s
  | .eres t c => Sys2Proof.Machine.execEres t c s
  | .vbr t c => Sys2Proof.Machine.execVbr t c s
  | .escrowSwap f row g => Sys2Proof.Machine.execEscrowSwap f row g s
  | .heldOperationRelease t => Sys2Proof.Machine.execHeldOperationRelease t s
  | .capturedWordRelease t west track => Sys2Proof.Machine.execCapturedWordRelease t west track s
  | .tsig t c => Sys2Proof.Machine.execTsig t c s
  | .gen t c => Sys2Proof.Machine.execGen t c s
  | .holdStop => Sys2Proof.Machine.execHoldStop s
  | .holdRestart => Sys2Proof.Machine.execHoldRestart s
  | .holdTimeout => Sys2Proof.Machine.execHoldTimeout s
  | .stretch domain units => Sys2Proof.Machine.execStretch domain units s
  | .referenceLoss domain => Sys2Proof.Machine.execReferenceLoss domain s
  | .relockComplete => Sys2Proof.Machine.execRelockComplete s
  | .measure w domain => Sys2Proof.Machine.execMeasure w domain s
  | .measureComplete domain margin => Sys2Proof.Machine.execMeasureComplete domain margin s
  | .beacon full missed => Sys2Proof.Machine.execBeacon full missed s
  | .beaconTimeout consumer => Sys2Proof.Machine.execBeaconTimeout consumer s
  | .timeStep w offset => Sys2Proof.Machine.execTimeStep w offset s
  | .ptpEventMessage port sub kind sent oneStep locked => Sys2Proof.Machine.execPtpEventMessage port sub kind sent oneStep locked s
  | .tillOperationApply src die => Sys2Proof.Machine.execTillOperationApply src die s
  | .tillWriteJtag n v => Sys2Proof.Machine.execTillWriteJtag n v s
  | .farmArrival t => Sys2Proof.Machine.execFarmArrival t s
  | .blockIssue f desc => Sys2Proof.Machine.execBlockIssue f desc s
  | .tagHome f desc block => Sys2Proof.Machine.execTagHome f desc block s
  | .shadowActivation f desc => Sys2Proof.Machine.execShadowActivation f desc s
  | .pgetReply t n => Sys2Proof.Machine.execPgetReply t n s
  | .pputAck t n => Sys2Proof.Machine.execPputAck t n s
  | .unscheduledAccessGrant t bank write => Sys2Proof.Machine.execUnscheduledAccessGrant t bank write s
  | .scrub t line => Sys2Proof.Machine.execScrub t line s
  | .dramScrub k offset => Sys2Proof.Machine.execDramScrub k offset s
  | .refresh k pc => Sys2Proof.Machine.execRefresh k pc s
  | .tempSample k temp => Sys2Proof.Machine.execTempSample k temp s
  | .hotClear k => Sys2Proof.Machine.execHotClear k s
  | .postActivate k => Sys2Proof.Machine.execPostActivate k s
  | .itemStart k post => Sys2Proof.Machine.execItemStart k post s
  | .scriptNop k post item o => Sys2Proof.Machine.execScriptNop k post item o s
  | .scriptLi k post item o => Sys2Proof.Machine.execScriptLi k post item o s
  | .scriptLih k post item o => Sys2Proof.Machine.execScriptLih k post item o s
  | .scriptAdd k post item o => Sys2Proof.Machine.execScriptAdd k post item o s
  | .scriptSub k post item o => Sys2Proof.Machine.execScriptSub k post item o s
  | .scriptMuli k post item o => Sys2Proof.Machine.execScriptMuli k post item o s
  | .scriptAnd k post item o => Sys2Proof.Machine.execScriptAnd k post item o s
  | .scriptShl k post item o => Sys2Proof.Machine.execScriptShl k post item o s
  | .scriptShr k post item o => Sys2Proof.Machine.execScriptShr k post item o s
  | .scriptModu k post item o => Sys2Proof.Machine.execScriptModu k post item o s
  | .scriptHash k post item o => Sys2Proof.Machine.execScriptHash k post item o s
  | .scriptLd8 k post item o => Sys2Proof.Machine.execScriptLd8 k post item o s
  | .scriptLdrow k post item o => Sys2Proof.Machine.execScriptLdrow k post item o s
  | .scriptProbe k post item o => Sys2Proof.Machine.execScriptProbe k post item o s
  | .scriptXw k post item o => Sys2Proof.Machine.execScriptXw k post item o s
  | .scriptNsamp k post item o => Sys2Proof.Machine.execScriptNsamp k post item o s
  | .scriptSetrow k post item o => Sys2Proof.Machine.execScriptSetrow k post item o s
  | .scriptBclr k post item o => Sys2Proof.Machine.execScriptBclr k post item o s
  | .scriptBadd k post item o => Sys2Proof.Machine.execScriptBadd k post item o s
  | .scriptBmax k post item o => Sys2Proof.Machine.execScriptBmax k post item o s
  | .scriptBdiv k post item o => Sys2Proof.Machine.execScriptBdiv k post item o s
  | .scriptEmitb k post item o => Sys2Proof.Machine.execScriptEmitb k post item o s
  | .scriptEmitw k post item o => Sys2Proof.Machine.execScriptEmitw k post item o s
  | .scriptEmitx k post item o => Sys2Proof.Machine.execScriptEmitx k post item o s
  | .scriptSt8 k post item o => Sys2Proof.Machine.execScriptSt8 k post item o s
  | .scriptRadd k post item o => Sys2Proof.Machine.execScriptRadd k post item o s
  | .scriptBeq k post item o => Sys2Proof.Machine.execScriptBeq k post item o s
  | .scriptBne k post item o => Sys2Proof.Machine.execScriptBne k post item o s
  | .scriptBltu k post item o => Sys2Proof.Machine.execScriptBltu k post item o s
  | .scriptJmp k post item o => Sys2Proof.Machine.execScriptJmp k post item o s
  | .scriptEnd k post item o => Sys2Proof.Machine.execScriptEnd k post item o s
  | .scriptAccessComplete k post item second => Sys2Proof.Machine.execScriptAccessComplete k post item second s
  | .postResultDelivery k post => Sys2Proof.Machine.execPostResultDelivery k post s
  | .postComplete k post => Sys2Proof.Machine.execPostComplete k post s
  | .ringMessageSend chan => Sys2Proof.Machine.execRingMessageSend chan s
  | .spillDepart chan => Sys2Proof.Machine.execSpillDepart chan s
  | .atillApply die index => Sys2Proof.Machine.execAtillApply die index s
  | .signalApply x => Sys2Proof.Machine.execSignalApply x s
  | .coinCount => Sys2Proof.Machine.execCoinCount s
  | .flitReceive k x => Sys2Proof.Machine.execFlitReceive k x s
  | .retryTimeout k => Sys2Proof.Machine.execRetryTimeout k s
  | .linkDown k fecLost => Sys2Proof.Machine.execLinkDown k fecLost s
  | .linkTraining k peer => Sys2Proof.Machine.execLinkTraining k peer s
  | .write k p => Sys2Proof.Machine.execWrite k p s
  | .readReq k p => Sys2Proof.Machine.execReadReq k p s
  | .readReply k p => Sys2Proof.Machine.execReadReply k p s
  | .ring k p => Sys2Proof.Machine.execRing k p s
  | .signal k p => Sys2Proof.Machine.execSignal k p s
  | .ack k p => Sys2Proof.Machine.execAck k p s
  | .ret k p => Sys2Proof.Machine.execRet k p s
  | .refuse k p => Sys2Proof.Machine.execRefuse k p s
  | .mcast k p => Sys2Proof.Machine.execMcast k p s
  | .heartbeat k p => Sys2Proof.Machine.execHeartbeat k p s
  | .packetForward k ty p => Sys2Proof.Machine.execPacketForward k ty p s
  | .linkNonce c nonce => Sys2Proof.Machine.execLinkNonce c nonce s
  | .linkProof c owner chain signature => Sys2Proof.Machine.execLinkProof c owner chain signature s
  | .death c phys logical image time => Sys2Proof.Machine.execDeath c phys logical image time s
  | .expelled c logical image => Sys2Proof.Machine.execExpelled c logical image s
  | .planCheck c plan image grade feed => Sys2Proof.Machine.execPlanCheck c plan image grade feed s
  | .planAnswer c refuses reason cofated => Sys2Proof.Machine.execPlanAnswer c refuses reason cofated s
  | .report c step logical copied ended => Sys2Proof.Machine.execReport c step logical copied ended s
  | .commit c step loss snapshot => Sys2Proof.Machine.execCommit c step loss snapshot s
  | .coinHalf c chan die index ringHalf spillEmpty coins returned => Sys2Proof.Machine.execCoinHalf c chan die index ringHalf spillEmpty coins returned s
  | .reconcileAsk c chan first count => Sys2Proof.Machine.execReconcileAsk c chan first count s
  | .reconcileAnswer c chan first done returned => Sys2Proof.Machine.execReconcileAnswer c chan first done returned s
  | .ringEndCheck c chan die index rcoins matching answer => Sys2Proof.Machine.execRingEndCheck c chan die index rcoins matching answer s
  | .map c logical phys image step => Sys2Proof.Machine.execMap c logical phys image step s
  | .spareJoin c logical image step plan => Sys2Proof.Machine.execSpareJoin c logical image step plan s
  | .resume c step what => Sys2Proof.Machine.execResume c step what s
  | .sealReport c epoch last head => Sys2Proof.Machine.execSealReport c epoch last head s
  | .heartbeatSend k => Sys2Proof.Machine.execHeartbeatSend k s
  | .deathDeclaration phys => Sys2Proof.Machine.execDeathDeclaration phys s
  | .isolation => Sys2Proof.Machine.execIsolation s
  | .frameReceive port sub x => Sys2Proof.Machine.execFrameReceive port sub x s
  | .pauseFrame port sub prio quanta => Sys2Proof.Machine.execPauseFrame port sub prio quanta s
  | .init x => Sys2Proof.Machine.execInit x s
  | .finish session control x signature => Sys2Proof.Machine.execFinish session control x signature s
  | .handshakeTimeout session control => Sys2Proof.Machine.execHandshakeTimeout session control s
  | .sessionTimeout session control => Sys2Proof.Machine.execSessionTimeout session control s
  | .request h x => Sys2Proof.Machine.execRequest h x s
  | .keepalive h => Sys2Proof.Machine.execKeepalive h s
  | .close h => Sys2Proof.Machine.execClose h s
  | .ledger h start => Sys2Proof.Machine.execLedger h start s
  | .patchMessage h x => Sys2Proof.Machine.execPatchMessage h x s
  | .outboxMessage n => Sys2Proof.Machine.execOutboxMessage n s
  | .programEndTickets => Sys2Proof.Machine.execProgramEndTickets s
  | .query f => Sys2Proof.Machine.execQuery f s
  | .lastResult f offset => Sys2Proof.Machine.execLastResult f offset s
  | .readHalt f => Sys2Proof.Machine.execReadHalt f s
  | .stage f addr data => Sys2Proof.Machine.execStage f addr data s
  | .loadImage f addr length logical digest => Sys2Proof.Machine.execLoadImage f addr length logical digest s
  | .arm f => Sys2Proof.Machine.execArm f s
  | .start f time => Sys2Proof.Machine.execStart f time s
  | .replay f count => Sys2Proof.Machine.execReplay f count s
  | .replayStart => Sys2Proof.Machine.execReplayStart s
  | .patch f x => Sys2Proof.Machine.execPatch f x s
  | .patchAssemblyTimeout => Sys2Proof.Machine.execPatchAssemblyTimeout s
  | .stop f reset => Sys2Proof.Machine.execStop f reset s
  | .hold f hold => Sys2Proof.Machine.execHold f hold s
  | .setStep f step => Sys2Proof.Machine.execSetStep f step s
  | .setHeathId f phys => Sys2Proof.Machine.execSetHeathId f phys s
  | .setPort f port sub cfg ipv4 ipv6 => Sys2Proof.Machine.execSetPort f port sub cfg ipv4 ipv6 s
  | .heathTablesRoute f first entries => Sys2Proof.Machine.execHeathTablesRoute f first entries s
  | .heathTablesDevmap f first entries => Sys2Proof.Machine.execHeathTablesDevmap f first entries s
  | .heathTablesSelect f bank => Sys2Proof.Machine.execHeathTablesSelect f bank s
  | .channelOpen f chan entry remote => Sys2Proof.Machine.execChannelOpen f chan entry remote s
  | .channelClose f chan => Sys2Proof.Machine.execChannelClose f chan s
  | .ringEndOpen f index entry => Sys2Proof.Machine.execRingEndOpen f index entry s
  | .ringEndClose f index remoteClosed => Sys2Proof.Machine.execRingEndClose f index remoteClosed s
  | .fallow f tile mask => Sys2Proof.Machine.execFallow f tile mask s
  | .tillsRead f till count => Sys2Proof.Machine.execTillsRead f till count s
  | .tillsSet f till value => Sys2Proof.Machine.execTillsSet f till value s
  | .readTallies f => Sys2Proof.Machine.execReadTallies f s
  | .snapshotPlan f plan => Sys2Proof.Machine.execSnapshotPlan f plan s
  | .snapshotTake f => Sys2Proof.Machine.execSnapshotTake f s
  | .snapshotList f => Sys2Proof.Machine.execSnapshotList f s
  | .snapshotSpare f addr length digest => Sys2Proof.Machine.execSnapshotSpare f addr length digest s
  | .snapshotTwin f twin => Sys2Proof.Machine.execSnapshotTwin f twin s
  | .restore f step => Sys2Proof.Machine.execRestore f step s
  | .attest f nonce part => Sys2Proof.Machine.execAttest f nonce part s
  | .enrolOwner f x osigA osigB => Sys2Proof.Machine.execEnrolOwner f x osigA osigB s
  | .enrolBind f x => Sys2Proof.Machine.execEnrolBind f x s
  | .enrolUnbind f x => Sys2Proof.Machine.execEnrolUnbind f x s
  | .enrolClient f x => Sys2Proof.Machine.execEnrolClient f x s
  | .enrolRevoke f x => Sys2Proof.Machine.execEnrolRevoke f x s
  | .updateFw f addr length esig osig => Sys2Proof.Machine.execUpdateFw f addr length esig osig s
  | .zeroise f => Sys2Proof.Machine.execZeroise f s
  | .prepareReturn f reason rma note => Sys2Proof.Machine.execPrepareReturn f reason rma note s
  | .reset f code => Sys2Proof.Machine.execReset f code s
  | .longOperationComplete ok => Sys2Proof.Machine.execLongOperationComplete ok s
  | .firmwareAbort cause => Sys2Proof.Machine.execFirmwareAbort cause s
  | .lockstepMismatch => Sys2Proof.Machine.execLockstepMismatch s
  | .sealDue => Sys2Proof.Machine.execSealDue s
  | .sealComplete => Sys2Proof.Machine.execSealComplete s
  | .bulkCopy => Sys2Proof.Machine.execBulkCopy s
  | .bulkCopyComplete => Sys2Proof.Machine.execBulkCopyComplete s
  | .snapshotDrainComplete => Sys2Proof.Machine.execSnapshotDrainComplete s
  | .enumId => Sys2Proof.Machine.execEnumId s
  | .enumAssign w => Sys2Proof.Machine.execEnumAssign w s
  | .smbCap => Sys2Proof.Machine.execSmbCap s
  | .smbHalt => Sys2Proof.Machine.execSmbHalt s
  | .smbStatus => Sys2Proof.Machine.execSmbStatus s
  | .pwr => Sys2Proof.Machine.execPwr s
  | .temps => Sys2Proof.Machine.execTemps s
  | .capWrite watts => Sys2Proof.Machine.execCapWrite watts s
  | .warm code => Sys2Proof.Machine.execWarm code s
  | .smbState => Sys2Proof.Machine.execSmbState s
  | .powerOn o => Sys2Proof.Machine.execPowerOn o s
  | .powerLoss => Sys2Proof.Machine.execPowerLoss s
  | .pgoodTimeout => Sys2Proof.Machine.execPgoodTimeout s
  | .strapSample board feed pins => Sys2Proof.Machine.execStrapSample board feed pins s
  | .bringupTimeout => Sys2Proof.Machine.execBringupTimeout s
  | .warmReset o => Sys2Proof.Machine.execWarmReset o s
  | .programReset => Sys2Proof.Machine.execProgramReset s
  | .linkReset k => Sys2Proof.Machine.execLinkReset k s
  | .lreset w k => Sys2Proof.Machine.execLreset w k s
  | .enable w k on => Sys2Proof.Machine.execEnable w k on s
  | .powerCapStep average => Sys2Proof.Machine.execPowerCapStep average s
  | .thermalStepDown sensor reading => Sys2Proof.Machine.execThermalStepDown sensor reading s
  | .thermalStepUp sensor reading => Sys2Proof.Machine.execThermalStepUp sensor reading s
  | .thermalHold sensor reading => Sys2Proof.Machine.execThermalHold sensor reading s
  | .thermalHoldRelease sensor reading => Sys2Proof.Machine.execThermalHoldRelease sensor reading s
  | .trip sensor reading => Sys2Proof.Machine.execTrip sensor reading s
  | .clear w u n => Sys2Proof.Machine.execClear w u n s
  | .tallyEventSelect w u n event qual => Sys2Proof.Machine.execTallyEventSelect w u n event qual s
  | .tallyLatch w => Sys2Proof.Machine.execTallyLatch w s
  | .tallySample u n => Sys2Proof.Machine.execTallySample u n s
  | .registerWrite w addr value wide => Sys2Proof.Machine.execRegisterWrite w addr value wide s
  | .nop t hdr => Sys2Proof.Machine.execNop t hdr s
  | .reservedOpcodeIssue t slot => Sys2Proof.Machine.execReservedOpcodeIssue t slot s
  | .spareCopyComplete => Sys2Proof.Machine.execSpareCopyComplete s
  | .undervoltageDip => Sys2Proof.Machine.execUndervoltageDip s
  | .portDown port sub back => Sys2Proof.Machine.execPortDown port sub back s

end Sys2Proof.Machine
end

