-- ==== Sys2Proof/Machine/Tick.lean ====
section
/-!
DEFINITION. What the block does when no command waits: one period of the step in force passes (log entry 1).
-/
namespace Sys2Proof.Machine

/-- Events of the current cycle, the stop that the islands have reached, or a beacon wait for their commands, so no time
passes. -/
def State.waitsForEvents (s : State) : Bool := s.beaconDue || s.stopDue || (s.running && s.cycleDue)

/-- The schedule cycle ends, and with it the cycle of the tallies (R528, R531); the next one begins, unless the fabric stops before
it (R71, R76). -/
def State.nextCycle (s : State) : State :=
  let s := s.endCycle.endTallies
  if s.running then s.beginCycle.repayDebt else s

/-- The scratchpad banks end a cycle, which they do while the fabric is held as well (R230): partial writes land. -/
def State.endBeat (s : State) : State :=
  let s := s.countPortWaits.landPartials
  { s with fab := { s.fab with beat := s.fab.beat + 1 } }

/-- A steward whose processors run refreshes its liveness word (R480); it runs on without its reference (R59). -/
def State.refreshAlive (s : State) : State :=
  if s.stew.booted then { s with stew := { s.stew with alive := s.clk.clk } } else s

/-- The asynchronous agents work for one period and the gleaner threads run; the steward refreshes its liveness word, selects a
redrawn map, reads its messages and goes on with a zeroisation, and the links send what they owe. -/
def State.background (s : State) : State := s.refreshAlive.selectRedrawn.runScripts.asyncWork.readInbox.sendIdle.retryCommit.zeroiseStep

/-- One period passes: a schedule cycle if the fabric runs, then time, the asynchronous agents, the conditions of a hold,
the ports and the end of a replay. -/
def State.tick (s : State) : State :=
  if !s.power.pgood then { s with clk := { s.clk with clk := s.clk.clk + s.period } }
  else if s.waitsForEvents then s
  else
    let u := s.period
    let s := s.endBeat
    let s := if s.running then s.nextCycle else if s.begun then s.endTallies else s.endTallies.repayDebt
    let s := ((s.passTime u).background.watchHold).drainPorts
    if s.endDue then s.replayEnded else s

end Sys2Proof.Machine
end

