-- ==== Sys2Proof/Machine/Step.lean ====
section
/-!
DEFINITION. One step of the block: the command at the front of the queue, or, with none, the bundle that a tile issues next, or
one period of the step in force (log entries 1 and 15).
-/
namespace Sys2Proof.Machine

/-- The command at the front of the queue runs on the state with the rest of the queue. With an empty queue, a tile whose turn
it is to issue puts the commands of its bundle into the queue; where none is due, one period passes. -/
def step (s : State) : Host.Outcome State Fault Refusal :=
  match s.pending with
  | [] => .next (match s.bundleNext with
    | some cs => { s with pending := cs }
    | none => s.tick)
  | c :: rest => exec c { s with pending := rest }

/-- The state with the command that a word spells at the front of its queue; no row of the table has bits, so no
word spells one and the state is unchanged. -/
def State.withFetchWord (s : State) (nbits w : Nat) : State :=
  match Sys2Proof.decodeTableWord nbits w with
  | some c => { s with pending := c :: s.pending }
  | none => s

end Sys2Proof.Machine
end

