-- ==== Sys2Proof/Machine/Reads.lean ====
section
/-!
DEFINITION. What a read of a register returns (R8, R9, R32–R34): every register of the blocks of R33, with its fields in their
places; and the identity and the scan cells of the test access port (R534, R542). No row of the command table is a read, and a
read changes no state.
-/
namespace Sys2Proof.Machine

/-! ## Tile (R136–R139, R161, R180, R220, R238, R242) -/

/-- Word `i` of a wide register. -/
def wordOf (v i : Nat) : BitVec 32 := BitVec.ofNat 32 (v / 2 ^ (32 * i))

/-- TALLY_CFG, TALLY_VAL and TALLY_SNAP (R525), as one number of 32 bytes. -/
def Tally.image (x : Tally) : Nat :=
  x.event.toNat + x.qual.toNat * 2 ^ 8 + x.ovf.toNat * 2 ^ 16 + x.count.toNat * 2 ^ 64 + x.snap.toNat * 2 ^ 128

/-- A word of the tallies of a unit whose first lies at `base`; beyond the last one stands nothing. -/
def State.tallyWord (s : State) (u : TallyUnit) (base off : Nat) : BitVec 32 :=
  let n := (off - base) / 32
  if n < tallyCount u then wordOf (s.getTally u n).image ((off - base) / 4 % 8) else 0

/-- TILE_STATE (R137). -/
def Tile.stateWord (x : Tile) : BitVec 32 :=
  BitVec.ofNat 32 (x.seq.pc.toNat + x.seq.run.toNat * 2 ^ 16 + x.seq.ended.toNat * 2 ^ 17 + x.seq.idling.toNat * 2 ^ 18)

/-- TILE_EXT (R161). -/
def Tile.extWord (x : Tile) (now : Scc) : BitVec 32 :=
  BitVec.ofNat 32 (x.seq.genEn.toNat + x.seq.gen.toNat * 2 + x.pettyOut * 2 ^ 4 + x.postOut * 2 ^ 12
    + (x.exaBusy now).toNat * 2 ^ 17 + x.esc.openedAt.isSome.toNat * 2 ^ 18
    + x.esc.group.toNat * 2 ^ 19)

/-- TILE_BANKS (R238). -/
def Tile.banksWord (x : Tile) : Nat :=
  x.pad.fallow.toNat + x.pad.waking.toNat * 2 ^ 16 + x.pad.late.toNat * 2 ^ 32

/-- LOOP_k (R138). -/
def Loop.image (l : Loop) : Nat :=
  l.index.toNat + l.active.toNat * 2 ^ 24 + l.start.toNat * 2 ^ 25 + l.count.toNat * 2 ^ 36

/-- A parameter register reads the last value written, also while that waits in its shadow (R135). -/
def Tile.paramRead (x : Tile) (n : Nat) : BitVec 32 :=
  (Sparse.find? n x.seq.shadow).getD (Sparse.get 0 x.seq.param n)

/-- A word of the tile block. -/
def State.readTile (s : State) (t off : Nat) : BitVec 32 :=
  let x := s.tile t
  let now := s.fab.scc
  if off = 0 then x.stateWord
  else if off = 0x8 || off = 0xC then wordOf x.seq.trackEnd.toNat (off / 4 - 2)
  else if off = 0x10 then x.extWord now
  else if off = 0x18 then x.vec.fpflags.setWidth 32
  else if off = 0x20 then x.tileMx s.grade now
  else if off = 0x28 || off = 0x2C then wordOf x.banksWord (off / 4 - 10)
  else if off = 0x30 || off = 0x34 then wordOf x.seq.trackEndW.toNat (off / 4 - 12)
  else if 0x100 ≤ off && off < 0x200 then x.paramRead ((off - 0x100) / 4)
  else if 0x200 ≤ off && off < 0x400 then Sparse.get 0 x.seq.agLoad ((off - 0x200) / 4)
  else if 0x400 ≤ off && off < 0x600 then Sparse.get 0 x.seq.ag ((off - 0x400) / 4)
  else if 0x600 ≤ off && off < 0x630 then
    wordOf (Sparse.get ({} : Loop) x.seq.loops ((off - 0x600) / 8)).image (off / 4 % 2)
  else if 0x800 ≤ off && off < 0x810 then wordOf x.vec.seed.toNat ((off - 0x800) / 4)
  else if 0x810 ≤ off && off < 0x820 then wordOf x.vec.ctrLoad.toNat ((off - 0x810) / 4)
  else if 0x820 ≤ off && off < 0x830 then wordOf x.vec.ctr.toNat ((off - 0x820) / 4)
  else if 0x900 ≤ off && off < 0x940 then s.tallyWord (.tile (BitVec.ofNat 10 t)) 0x900 off
  else if 0xA00 ≤ off && off < 0xA20 then wordOf x.seq.farmMap.toNat ((off - 0xA00) / 4)
  else if 0x4000 ≤ off && off < 0x10000 then
    wordOf (Sparse.get 0 x.seq.imem ((off - 0x4000) / 32)).toNat ((off - 0x4000) / 4 % 8)
  else 0

/-! ## Field (R19, R26, R63, R254–R257, R306, R346–R348) -/

/-- ISLAND_CLK (R63); MEASURE reads zero. -/
def Island.word (x : Island) : BitVec 32 :=
  BitVec.ofNat 32 (x.locked.toNat + x.refLoss.toNat * 2 + x.guardFault.toNat * 4 + min x.debt 255 * 2 ^ 4
    + x.margin.toNat * 2 ^ 16 + x.marginValid.toNat * 2 ^ 22)

/-- FETCH_STATUS (R255). -/
def Field.fetchStatus (x : Field) : BitVec 32 :=
  BitVec.ofNat 32 (x.tagsOut + x.err.toNat * 2 ^ 16 + x.errDesc.toNat * 2 ^ 24)

/-- DSTATE_n (R257). -/
def DescDyn.image (x : DescDyn) : Nat :=
  x.st.toNat + x.next.toNat * 2 ^ 2 + x.flying * 2 ^ 27 + x.arms.toNat * 2 ^ 32 + x.r0.toNat * 2 ^ 64

/-- ESC_STATE_r (R348). -/
def State.escState (s : State) (f r : Nat) : BitVec 64 :=
  let xs := (List.range 8).map fun t => (t, s.tile (linear f r t))
  let opens (g : Nat) : Bool := xs.any fun x => x.2.esc.openedAt.isSome && x.2.esc.group.toNat = g
  let swaps (t : Nat) : Bool := xs.any fun x => x.1 = t && x.2.inSwap s.fab.scc
  BitVec.ofNat 64 (bitsOf 16 opens + bitsOf 8 swaps * 2 ^ 16 + (xs.map fun x => x.2.esc.capEast.length).sum * 2 ^ 24
    + (xs.map fun x => x.2.esc.capWest.length).sum * 2 ^ 34)

/-- Two 16-bit entries of a table as a word. -/
def halvesAt (m : SMap (BitVec 16)) (n : Nat) : BitVec 32 :=
  (Sparse.get 0 m (n + 1)).setWidth 32 <<< 16 ||| (Sparse.get 0 m n).setWidth 32

/-- A word of the field block. -/
def State.readField (s : State) (f off : Nat) : BitVec 32 :=
  let x := s.field f
  let n : BitVec 4 := BitVec.ofNat 4 f
  if off = 0 then x.rowmap
  else if off = 0x10 then (s.island (f / 4 * 8 + f % 4)).word
  else if off = 0x20 then x.fetchStatus
  else if off = 0x28 || off = 0x2C then wordOf x.fetchErr.toNat (off / 4 - 10)
  else if off = 0x30 then x.spineCur.setWidth 32
  else if 0x400 ≤ off && off < 0x700 then
    if off % 8 = 0 then (Sparse.get 0 x.escDef ((off - 0x400) / 8)).setWidth 32 else 0
  else if 0x800 ≤ off && off < 0x830 then wordOf (s.escState f ((off - 0x800) / 8)).toNat (off / 4 % 2)
  else if 0x1000 ≤ off && off < 0x5000 then wordOf (Sparse.get 0 x.desc ((off - 0x1000) / 64)).toNat (off / 4 % 16)
  else if 0x8000 ≤ off && off < 0x9000 then wordOf (x.descDyn ((off - 0x8000) / 16)).image (off / 4 % 4)
  else if 0x9000 ≤ off && off < 0x9100 then s.tallyWord (.field n) 0x9000 off
  else if 0x9100 ≤ off && off < 0x9180 then s.tallyWord (.fetch n) 0x9100 off
  else if 0x10000 ≤ off && off < 0x18000 then halvesAt x.fset (1024 * ((off - 0x10000) / 0x800) + off % 0x800 / 2)
  else if 0x20000 ≤ off && off < 0x30000 then
    let c := (off - 0x20000) / 4
    if c = localChan then 1 else Sparse.get 0 x.ckmap c
  else 0

/-! ## Compute die (R19, R63, R330, R332, R377) -/

/-- RING_STATE_n (R332). -/
def RingEnd.image (x : RingEnd) : Nat :=
  x.lodged.toNat + x.retpos.toNat * 2 ^ 24 + x.err.toNat * 2 ^ 48 + x.retout.toNat * 2 ^ 64 + x.arrived.toNat * 2 ^ 96

/-- A word of the compute-die block. -/
def State.readDie (s : State) (d off : Nat) : BitVec 32 :=
  let x := s.die d
  if off = 0 then (s.island (d * 8 + 4)).word
  else if off = 8 then (s.island (d * 8 + 6)).word
  else if 0x100000 ≤ off && off < 0x108000 then
    wordOf (s.ringEnd d ((off - 0x100000) / 32)).entry.toNat ((off - 0x100000) / 4 % 8)
  else if 0x200000 ≤ off && off < 0x204000 then wordOf (s.ringEnd d ((off - 0x200000) / 16)).image (off / 4 % 4)
  else if 0x300000 ≤ off && off < 0x300200 then
    wordOf (Sparse.get 0 x.rwins ((off - 0x300000) / 32)).toNat ((off - 0x300000) / 4 % 8)
  else if 0x400000 ≤ off && off < 0x404000 then halvesAt x.dset (512 * ((off - 0x400000) / 0x400) + off % 0x400 / 2)
  else 0

/-! ## Stack logic die (R291–R295) -/

/-- STACK_STATUS (R292). -/
def Stack.status (x : Stack) : BitVec 32 :=
  BitVec.ofNat 32 (x.temp.toNat + x.hot.toNat * 2 ^ 8 + x.hotSeen.toNat * 2 ^ 9)

/-- GLEAN_STATUS (R294). -/
def Stack.gleanStatus (x : Stack) : Nat :=
  x.threadCount + x.active.length * 2 ^ 13 + x.intake.length * 2 ^ 20 + x.fault.toNat * 2 ^ 34

/-- A word of the stack logic die block; the gleaner's registers read zero on grade S, which has none. -/
def State.readStack (s : State) (k off : Nat) : BitVec 32 :=
  let x := s.stack k
  let gleans : Bool := s.grade != 2
  if off = 0 then x.status
  else if off = 8 then x.corrected
  else if off = 0xC then BitVec.ofNat 32 x.ueSeen.toNat
  else if off = 0x10 || off = 0x14 then wordOf x.ueAddr.toNat (off / 4 - 4)
  else if off = 0x18 || off = 0x1C then (if gleans then wordOf x.gleanStatus (off / 4 - 6) else 0)
  else if off = 0x20 || off = 0x24 then (if gleans then wordOf x.gleanErr.toNat (off / 4 - 8) else 0)
  else if 0x100 ≤ off && off < 0x200 then s.tallyWord (.stack (BitVec.ofNat 4 k)) 0x100 off
  else if 0x10000 ≤ off && off < 0x12000 then
    (if gleans then wordOf (Sparse.get 0 x.script ((off - 0x10000) / 8)).toNat (off / 4 % 2) else 0)
  else 0

/-! ## I/O dies (R48, R56, R57, R92–R95, R330, R331, R377–R380, R417–R419, R476, R477, R502–R504, R520, R521) -/

/-- TIME_STATUS (R57). -/
def Clocks.timeStatus (c : Clocks) : BitVec 32 :=
  BitVec.ofNat 32 (c.valid.toNat + c.ptpLocked.toNat * 2 + c.monotonic.toNat * 4 + c.stepRefused.toNat * 8)

/-- HL_STATUS (R378). -/
def Link.status (x : Link) : BitVec 32 :=
  BitVec.ofNat 32 (x.st.toNat + x.peerOk.toNat * 2 ^ 3 + x.peer.toNat * 2 ^ 4 + x.txseq.toNat * 2 ^ 16)

/-- CHAN_STATE_n (R331). -/
def Channel.image (x : Channel) : Nat :=
  x.held.toNat + x.head.toNat * 2 ^ 24 + x.err.toNat * 2 ^ 48 + x.retin.toNat * 2 ^ 64 + x.spillu.toNat * 2 ^ 96

/-- Pending tickets of the receipt book. -/
def House.pendingTickets (h : House) : Nat := (h.receipts.filter fun x => x.2.any fun r => r.pending).length

/-- CH_STATUS (R419): SESSIONS counts the data sessions and the handshakes. -/
def State.chStatus (s : State) : BitVec 64 :=
  let h := s.house
  BitVec.ofNat 64 (s.dataSessions + s.handshakes * 2 ^ 13 + s.serving.toNat * 2 ^ 22 + h.err.toNat * 2 ^ 23
    + h.errCause.toNat * 2 ^ 24 + h.pendingTickets * 2 ^ 32)

/-- VAULT_STATUS (R477). -/
def State.vaultStatus (s : State) : BitVec 32 :=
  let v := s.vault
  BitVec.ofNat 32 (v.pufOk.toNat + s.owned.toNat * 2 + v.gen.toNat * 2 ^ 2 + v.rollback.toNat * 2 ^ 8
    + v.returnMode.toNat * 2 ^ 15 + v.slotB.toNat * 2 ^ 16 + v.zpend.toNat * 2 ^ 17 + v.signing.length * 2 ^ 18)

/-- SURV_STATUS (R503). -/
def State.survStatus (s : State) : BitVec 64 :=
  let v := s.surv
  BitVec.ofNat 64 (v.plan.isSome.toNat + v.cofated.toNat * 2 + (v.plan.isSome && s.leads).toNat * 4
    + v.spare.isSome.toNat * 8 + v.twin.isSome.toNat * 2 ^ 4 + v.recovering.toNat * 2 ^ 5
    + (v.verify || v.verifying).toNat * 2 ^ 6 + v.lost.toNat * 2 ^ 7 + s.drainRuns.toNat * 2 ^ 8
    + v.granA.record.isSome.toNat * 2 ^ 9 + v.granB.record.isSome.toNat * 2 ^ 10 + v.interval.toNat * 2 ^ 16
    + v.partnerPhys.toNat * 2 ^ 32 + (if v.plan.isSome then s.leader.toNat else 0) * 2 ^ 48)

/-- GRAN_STATUS (R504). -/
def Survival.granStatus (v : Survival) : BitVec 64 :=
  BitVec.ofNat 64 (v.granChan.toNat + v.granRate.toNat * 2 ^ 32 + v.granErr.toNat * 2 ^ 40)

/-- A word of a link, a sub-port or a link's tallies on I/O die `i`. -/
def State.readPorts (s : State) (i off : Nat) : BitVec 32 :=
  if 0x4000 ≤ off && off < 0x4280 then
    let x := s.link (10 * i + (off - 0x4000) / 0x40)
    if off % 0x40 = 0 then BitVec.ofNat 32 x.enable.toNat else if off % 0x40 = 8 then x.status else 0
  else if 0x5800 ≤ off && off < 0x5900 then
    let j := off / 4 % 16
    if j < 2 then wordOf (s.subPort (i = 1) (BitVec.ofNat 2 ((off - 0x5800) / 0x40))).cfg.toNat j else 0
  else if 0x9000 ≤ off && off < 0x9500 then
    let k := (off - 0x9000) / 0x80
    s.tallyWord (.link (BitVec.ofNat 5 (10 * i + k))) (0x9000 + 0x80 * k) off
  else 0

/-- A word of the time, halt and hold registers. -/
def State.readHold (s : State) (off : Nat) : BitVec 32 :=
  let h := s.fab.haltRec
  if off = 0x200 then s.clk.step.setWidth 32
  else if off = 0x1000 || off = 0x1004 then wordOf s.now.toNat (off / 4 % 2)
  else if off = 0x1008 then s.clk.rate
  else if off = 0x1018 then s.clk.timeStatus
  else if off = 0x2000 || off = 0x2004 then wordOf h.status.toNat (off / 4 % 2)
  else if off = 0x2008 || off = 0x200C then wordOf h.source.toNat (off / 4 % 2)
  else if off = 0x2010 || off = 0x2014 then wordOf h.scc.toNat (off / 4 % 2)
  else if off = 0x2018 then h.detail
  else if off = 0x2020 then s.fab.hold.limit
  else if off = 0x2028 then s.holdStatus
  else 0

/-- A word of the counting house, vault and survival registers. -/
def State.readHouse (s : State) (off : Nat) : BitVec 32 :=
  if off = 0x5000 || off = 0x5004 then wordOf s.chStatus.toNat (off / 4 % 2)
  else if off = 0x5010 || off = 0x5014 then wordOf s.house.receiptCfg.toNat (off / 4 % 2)
  else if 0x5100 ≤ off && off < 0x5500 then
    wordOf (Sparse.get 0 s.house.intakes ((off - 0x5100) / 16)).toNat (off / 4 % 4)
  else if 0x5500 ≤ off && off < 0x5700 then
    wordOf (Sparse.get 0 s.house.outboxes ((off - 0x5500) / 8)).toNat (off / 4 % 2)
  else if off = 0x6000 then s.vaultStatus
  else if off = 0x6008 || off = 0x600C then wordOf s.vault.seq.toNat (off / 4 % 2)
  else if off = 0x6010 then s.vault.epoch
  else if off = 0x7000 || off = 0x7004 then wordOf s.survStatus.toNat (off / 4 % 2)
  else if off = 0x7008 || off = 0x700C then wordOf s.surv.commit.toNat (off / 4 % 2)
  else if 0x9800 ≤ off && off < 0x9A00 then s.tallyWord .house 0x9800 off
  else if 0x9A00 ≤ off && off < 0x9B00 then s.tallyWord .steward 0x9A00 off
  else 0

/-- A word of the tables of I/O die 0. -/
def State.readTables (s : State) (off : Nat) : BitVec 32 :=
  let h := s.heath
  if off = 0x3000 then h.id.setWidth 32
  else if 0x01000000 ≤ off && off < 0x010FFFC0 then wordOf (s.chan ((off - 0x01000000) / 64)).entry.toNat (off / 4 % 16)
  else if 0x02000000 ≤ off && off < 0x0203FFF0 then wordOf (s.chan ((off - 0x02000000) / 16)).image (off / 4 % 4)
  else if 0x03000000 ≤ off && off < 0x03008000 then halvesAt h.mlist ((off - 0x03000000) / 2)
  else if 0x04000000 ≤ off && off < 0x04004000 then Sparse.get 0 h.route ((off - 0x04000000) / 4)
  else if 0x05000000 ≤ off && off < 0x05004000 then Sparse.get 0 h.devmapA ((off - 0x05000000) / 4)
  else if 0x05004000 ≤ off && off < 0x05008000 then Sparse.get 0 h.devmapB ((off - 0x05004000) / 4)
  else if off = 0x05008000 then BitVec.ofNat 32 h.devSel.toNat
  else if 0x06000000 ≤ off && off < 0x06010000 then
    wordOf (Sparse.get treeReset h.tree ((off - 0x06000000) / 64)).toNat (off / 4 % 16)
  else 0

/-- The offset belongs to a link or a sub-port of I/O die `i`. -/
def portOffset (off : Nat) : Bool :=
  (0x4000 ≤ off && off < 0x4280) || (0x5800 ≤ off && off < 0x5900) || (0x9000 ≤ off && off < 0x9500)

/-- A word of the block of an I/O die. -/
def State.readIo (s : State) (i off : Nat) : BitVec 32 :=
  if portOffset off then s.readPorts i off
  else if i = 0 then
    (if off < 0x3000 then s.readHold off else if off = 0x3000 || 0x01000000 ≤ off then s.readTables off
      else s.readHouse off)
  else if off = 0x7000 || off = 0x7004 then wordOf s.surv.granStatus.toNat (off / 4 % 2)
  else if off = 0x8000 || off = 0x8004 then wordOf s.pwrStatus.toNat (off / 4 % 2)
  else if off = 0x8008 then s.power.cap.setWidth 32
  else if 0x8100 ≤ off && off < 0x8150 then (s.temperature ((off - 0x8100) / 4)).setWidth 32
  else 0

/-! ## Reads by address -/

/-- The word at an offset of a block. -/
def State.readWord (s : State) (b : RegBlock) (off : Nat) : BitVec 32 :=
  match b with
  | .tile t => s.readTile t off
  | .field f => s.readField f off
  | .die d => s.readDie d off
  | .stack k => s.readStack k off
  | .io i => s.readIo i off

/-- The number of the till whose 4 bytes stand at a device address (R31, R301). -/
def tillAt (a : Nat) : Option (BitVec 15) :=
  if 0x110000000000 ≤ a && a < 0x110000040000 && a % 0x10000 < 0x8000 then
    some (BitVec.ofNat 15 ((a - 0x110000000000) / 0x10000 * 8192 + a % 0x10000 / 4))
  else none

/-- What the steward or JTAG reads in the 4 bytes at the address of a register or a till (R301), and whether the access meets an
address error (R32): a hole reads zero. -/
def State.readReg (s : State) (a : Nat) : BitVec 32 × Bool :=
  match s.regAt a, tillAt a with
  | some x, _ => (s.readWord x.1 (x.2 / 4 * 4), false)
  | none, some n => (s.tillRead n, false)
  | none, none => (0, true)

/-! ## The test access port (R534, R542) -/

/-- The part number of a grade. -/
def partNumber (grade : BitVec 2) : BitVec 16 :=
  if grade = 0 then 0x5346 else if grade = 1 then 0x534C else 0x5353

/-- IDCODE: version 1, the part number, 0x6B3 and a 1. -/
def idcode (grade : BitVec 2) : BitVec 32 :=
  (1 : BitVec 4) ++ partNumber grade ++ (0x6B3 : BitVec 11) ++ (1 : BitVec 1)

/-- The lands of the signal groups of R533 that can bear a boundary-scan cell. -/
inductive ScanLand where
  /-- A land of the granary channels: its channel and its place among the channel's 24 lands. -/
  | granary (chan : Nat) (land : Nat)
  /-- A low-speed land: management, straps and firmware flash, in the order of R533. -/
  | lowSpeed (land : Nat)
  /-- A leg of a lane of a hedge link. -/
  | hedge (link : Nat) (leg : Nat)
  /-- A leg of a lane of an Ethernet port. -/
  | ethernet (port : Nat) (leg : Nat)
  deriving DecidableEq, Repr

/-- The standard that the cell of a land follows (R542): false IEEE 1149.1, true IEEE 1149.6. The cells of absent links are
omitted (R534). -/
def scanCell (grade : BitVec 2) : ScanLand → Option Bool
  | .granary c n => if c < 24 && n < 24 then some false else none
  | .lowSpeed n => if n < 28 then some false else none
  | .hedge k n => if linkIn grade k && n < 32 then some true else none
  | .ethernet p n => if p < 2 && n < 16 then some true else none

end Sys2Proof.Machine
end

