-- ==== Sys2Proof/WellFormed.lean ====
section
/-!
DEFINITION. The commands whose operands name units inside the ranges of the spec's tables. A command outside them names
nothing of the block; the meanings leave the state unchanged there or treat the unit as absent.
-/
namespace Sys2Proof

/-- A tile number (R5): 4 dies, 4 fields, 6 rows, 8 tiles. -/
def tileOk (t : TileNo) : Bool := t.toNat < 768
/-- A stack number (R30). -/
def stackOk (k : BitVec 4) : Bool := k.toNat < 12
/-- A hedge-link number (R349). -/
def linkOk (k : BitVec 5) : Bool := k.toNat < 20
/-- A clock domain (R35). -/
def domainOk (d : BitVec 7) : Bool := d.toNat < 100
/-- A track of a row (R11). -/
def trackOk (n : BitVec 6) : Bool := n.toNat < 48
/-- A logical row (R5). -/
def rowOk (r : BitVec 3) : Bool := r.toNat < 6
/-- A line of a slice (R221). -/
def lineOk (n : BitVec 15) : Bool := n.toNat < 20480
/-- The data of a packet (R360). -/
def packetOk (p : Packet) : Bool := p.data.length ≤ 256

def signalOk : SignalOf → Bool
  | .petty t _ => tileOk t
  | .received _ _ _ => true

def tillSourceOk : TillSource → Bool
  | .tile t => tileOk t
  | .fetch _ => true
  | .ringEnd _ _ => true
  | .remote _ _ => true
  | .house => true

def abortSourceOk : AbortSource → Bool
  | .fetch _ => true
  | .gleaner k => stackOk k
  | .channel _ => true
  | .ringEnd _ _ => true
  | .route _ => true
  | .outbox => true

def unitOk : TallyUnit → Bool
  | .tile t => tileOk t
  | .field _ => true
  | .fetch _ => true
  | .stack k => stackOk k
  | .link k => linkOk k
  | .house => true
  | .steward => true

/-- Every operand of the command names a unit that the tables of the spec number. -/
def Instr.wellFormed : Instr → Bool
  | .mma t _ => tileOk t
  | .ldw t _ => tileOk t
  | .weightLoadComplete t _ => tileOk t
  | .passSettle t _ => tileOk t
  | .mov t _ => tileOk t
  | .fadd t _ => tileOk t
  | .fsub t _ => tileOk t
  | .fmul t _ => tileOk t
  | .fma t _ => tileOk t
  | .fmax t _ => tileOk t
  | .fmin t _ => tileOk t
  | .fabs t _ => tileOk t
  | .fneg t _ => tileOk t
  | .fcmpgt t _ => tileOk t
  | .fcmpeq t _ => tileOk t
  | .sel t _ => tileOk t
  | .exp t _ => tileOk t
  | .log t _ => tileOk t
  | .tanh t _ => tileOk t
  | .sigm t _ => tileOk t
  | .rsqrt t _ => tileOk t
  | .iadd t _ => tileOk t
  | .isub t _ => tileOk t
  | .imul t _ => tileOk t
  | .and_ t _ => tileOk t
  | .or_ t _ => tileOk t
  | .xor t _ => tileOk t
  | .shl t _ => tileOk t
  | .shr t _ => tileOk t
  | .sar t _ => tileOk t
  | .rot t _ => tileOk t
  | .cvtn t _ => tileOk t
  | .cvtw t _ => tileOk t
  | .rng t _ => tileOk t
  | .xclr t _ => tileOk t
  | .xadd t _ => tileOk t
  | .xsum t _ => tileOk t
  | .xrd t _ => tileOk t
  | .xout t _ => tileOk t
  | .xin t _ => tileOk t
  | .dadd t _ => tileOk t
  | .dsub t _ => tileOk t
  | .dmul t _ => tileOk t
  | .dfma t _ => tileOk t
  | .f2d t _ => tileOk t
  | .d2f t _ => tileOk t
  | .vResultComplete t _ => tileOk t
  | .ld t _ => tileOk t
  | .st t _ => tileOk t
  | .ldv t _ => tileOk t
  | .stv t _ => tileOk t
  | .ocw t _ => tileOk t
  | .scratchpadWriteLand t => tileOk t
  | .pget t _ => tileOk t
  | .pput t _ => tileOk t
  | .gpost t _ => tileOk t
  | .requestLineRead t => tileOk t
  | .take t _ => tileOk t
  | .tap t _ => tileOk t
  | .drive t _ => tileOk t
  | .move t _ => tileOk t
  | .streamWordArrival t _ track => tileOk t && trackOk track
  | .loop t _ => tileOk t
  | .loopEnd t _ _ => tileOk t
  | .jump t _ => tileOk t
  | .idle t _ => tileOk t
  | .idleExpiry t => tileOk t
  | .endProgram t _ => tileOk t
  | .tadd t _ => tileOk t
  | .tsub t _ => tileOk t
  | .wait t _ => tileOk t
  | .waitSample t => tileOk t
  | .drain t _ => tileOk t
  | .drainSample => true
  | .spineSetSwitch => true
  | .fallowBankPowerDown t _ => tileOk t
  | .bankWakeComplete t _ => tileOk t
  | .farm t _ => tileOk t
  | .agset t _ => tileOk t
  | .agadd t _ => tileOk t
  | .eopen t _ => tileOk t
  | .eres t _ => tileOk t
  | .vbr t _ => tileOk t
  | .escrowSwap _ row _ => rowOk row
  | .heldOperationRelease t => tileOk t
  | .capturedWordRelease t _ track => tileOk t && trackOk track
  | .tsig t _ => tileOk t
  | .gen t _ => tileOk t
  | .holdStop => true
  | .holdRestart => true
  | .holdTimeout => true
  | .stretch domain _ => domainOk domain
  | .referenceLoss domain => domainOk domain
  | .relockComplete => true
  | .measure _ domain => domainOk domain
  | .measureComplete domain _ => domainOk domain
  | .beacon _ missed => missed.all domainOk
  | .beaconTimeout consumer => domainOk consumer
  | .timeStep _ _ => true
  | .ptpEventMessage _ _ _ _ _ _ => true
  | .tillOperationApply src _ => tillSourceOk src
  | .tillWriteJtag _ _ => true
  | .farmArrival t => tileOk t
  | .blockIssue _ _ => true
  | .tagHome _ _ _ => true
  | .shadowActivation _ _ => true
  | .pgetReply t _ => tileOk t
  | .pputAck t _ => tileOk t
  | .unscheduledAccessGrant t _ _ => tileOk t
  | .scrub t line => tileOk t && lineOk line
  | .dramScrub s _ => stackOk s
  | .refresh s _ => stackOk s
  | .tempSample s _ => stackOk s
  | .hotClear s => stackOk s
  | .postActivate s => stackOk s
  | .itemStart s _ => stackOk s
  | .scriptNop s _ _ _ => stackOk s
  | .scriptLi s _ _ _ => stackOk s
  | .scriptLih s _ _ _ => stackOk s
  | .scriptAdd s _ _ _ => stackOk s
  | .scriptSub s _ _ _ => stackOk s
  | .scriptMuli s _ _ _ => stackOk s
  | .scriptAnd s _ _ _ => stackOk s
  | .scriptShl s _ _ _ => stackOk s
  | .scriptShr s _ _ _ => stackOk s
  | .scriptModu s _ _ _ => stackOk s
  | .scriptHash s _ _ _ => stackOk s
  | .scriptLd8 s _ _ _ => stackOk s
  | .scriptLdrow s _ _ _ => stackOk s
  | .scriptProbe s _ _ _ => stackOk s
  | .scriptXw s _ _ _ => stackOk s
  | .scriptNsamp s _ _ _ => stackOk s
  | .scriptSetrow s _ _ _ => stackOk s
  | .scriptBclr s _ _ _ => stackOk s
  | .scriptBadd s _ _ _ => stackOk s
  | .scriptBmax s _ _ _ => stackOk s
  | .scriptBdiv s _ _ _ => stackOk s
  | .scriptEmitb s _ _ _ => stackOk s
  | .scriptEmitw s _ _ _ => stackOk s
  | .scriptEmitx s _ _ _ => stackOk s
  | .scriptSt8 s _ _ _ => stackOk s
  | .scriptRadd s _ _ _ => stackOk s
  | .scriptBeq s _ _ _ => stackOk s
  | .scriptBne s _ _ _ => stackOk s
  | .scriptBltu s _ _ _ => stackOk s
  | .scriptJmp s _ _ _ => stackOk s
  | .scriptEnd s _ _ _ => stackOk s
  | .scriptAccessComplete s _ _ _ => stackOk s
  | .postResultDelivery s _ => stackOk s
  | .postComplete s _ => stackOk s
  | .ringMessageSend _ => true
  | .spillDepart _ => true
  | .atillApply _ _ => true
  | .signalApply x => signalOk x
  | .coinCount => true
  | .flitReceive k _ => linkOk k
  | .retryTimeout k => linkOk k
  | .linkDown k _ => linkOk k
  | .linkTraining k _ => linkOk k
  | .write k p => linkOk k && packetOk p
  | .readReq k p => linkOk k && packetOk p
  | .readReply k p => linkOk k && packetOk p
  | .ring k p => linkOk k && packetOk p
  | .signal k p => linkOk k && packetOk p
  | .ack k p => linkOk k && packetOk p
  | .ret k p => linkOk k && packetOk p
  | .refuse k p => linkOk k && packetOk p
  | .mcast k p => linkOk k && packetOk p
  | .heartbeat k p => linkOk k && packetOk p
  | .packetForward k _ p => linkOk k && packetOk p
  | .linkNonce c _ => linkOk c.link
  | .linkProof c _ _ _ => linkOk c.link
  | .death c _ _ _ _ => linkOk c.link
  | .expelled c _ _ => linkOk c.link
  | .planCheck c _ _ _ _ => linkOk c.link
  | .planAnswer c _ _ _ => linkOk c.link
  | .report c _ _ _ _ => linkOk c.link
  | .commit c _ _ _ => linkOk c.link
  | .coinHalf c _ _ _ _ _ _ _ => linkOk c.link
  | .reconcileAsk c _ _ _ => linkOk c.link
  | .reconcileAnswer c _ _ _ _ => linkOk c.link
  | .ringEndCheck c _ _ _ _ _ _ => linkOk c.link
  | .map c _ _ _ _ => linkOk c.link
  | .spareJoin c _ _ _ _ => linkOk c.link
  | .resume c _ _ => linkOk c.link
  | .sealReport c _ _ _ => linkOk c.link
  | .heartbeatSend k => linkOk k
  | .deathDeclaration _ => true
  | .isolation => true
  | .frameReceive _ _ _ => true
  | .pauseFrame _ _ _ _ => true
  | .init _ => true
  | .finish _ _ _ _ => true
  | .handshakeTimeout _ _ => true
  | .sessionTimeout _ _ => true
  | .request _ _ => true
  | .keepalive _ => true
  | .close _ => true
  | .ledger _ _ => true
  | .patchMessage _ _ => true
  | .outboxMessage _ => true
  | .programEndTickets => true
  | .query _ => true
  | .lastResult _ _ => true
  | .readHalt _ => true
  | .stage _ _ _ => true
  | .loadImage _ _ _ _ _ => true
  | .arm _ => true
  | .start _ _ => true
  | .replay _ _ => true
  | .replayStart => true
  | .patch _ _ => true
  | .patchAssemblyTimeout => true
  | .stop _ _ => true
  | .hold _ _ => true
  | .setStep _ _ => true
  | .setHeathId _ _ => true
  | .setPort _ _ _ _ _ _ => true
  | .heathTablesRoute _ _ _ => true
  | .heathTablesDevmap _ _ _ => true
  | .heathTablesSelect _ _ => true
  | .channelOpen _ _ _ _ => true
  | .channelClose _ _ => true
  | .ringEndOpen _ _ _ => true
  | .ringEndClose _ _ _ => true
  | .fallow _ _ _ => true
  | .tillsRead _ _ _ => true
  | .tillsSet _ _ _ => true
  | .readTallies _ => true
  | .snapshotPlan _ _ => true
  | .snapshotTake _ => true
  | .snapshotList _ => true
  | .snapshotSpare _ _ _ _ => true
  | .snapshotTwin _ _ => true
  | .restore _ _ => true
  | .attest _ _ _ => true
  | .enrolOwner _ _ _ _ => true
  | .enrolBind _ _ => true
  | .enrolUnbind _ _ => true
  | .enrolClient _ _ => true
  | .enrolRevoke _ _ => true
  | .updateFw _ _ _ _ _ => true
  | .zeroise _ => true
  | .prepareReturn _ _ _ _ => true
  | .reset _ _ => true
  | .longOperationComplete _ => true
  | .firmwareAbort cause => abortSourceOk cause
  | .lockstepMismatch => true
  | .sealDue => true
  | .sealComplete => true
  | .bulkCopy => true
  | .bulkCopyComplete => true
  | .snapshotDrainComplete => true
  | .enumId => true
  | .enumAssign _ => true
  | .smbCap => true
  | .smbHalt => true
  | .smbStatus => true
  | .pwr => true
  | .temps => true
  | .capWrite _ => true
  | .warm _ => true
  | .smbState => true
  | .powerOn _ => true
  | .powerLoss => true
  | .pgoodTimeout => true
  | .strapSample _ _ _ => true
  | .bringupTimeout => true
  | .warmReset _ => true
  | .programReset => true
  | .linkReset k => linkOk k
  | .lreset _ k => linkOk k
  | .enable _ k _ => linkOk k
  | .powerCapStep _ => true
  | .thermalStepDown _ _ => true
  | .thermalStepUp _ _ => true
  | .thermalHold _ _ => true
  | .thermalHoldRelease _ _ => true
  | .trip _ _ => true
  | .clear _ u _ => unitOk u
  | .tallyEventSelect _ u _ _ _ => unitOk u
  | .tallyLatch _ => true
  | .tallySample u _ => unitOk u
  | .registerWrite _ _ _ _ => true
  | .nop t _ => tileOk t
  | .reservedOpcodeIssue t _ => tileOk t
  | .spareCopyComplete => true
  | .undervoltageDip => true
  | .portDown _ _ _ => true

end Sys2Proof
end

