-- ==== Sys2Proof/Safety.lean ====
section
/-!
DEFINITION. The terms that the claims use: a command that runs to a next state, a slot that can take an operation, a queue
end that can be popped, and the well-formed waiting commands.
-/
namespace Sys2Proof.Machine

/-- The command answers the next state `t`. -/
abbrev Runs (c : Instr) (s t : State) : Prop := exec c s = .next t

/-- The slot of tile `t` can take an operation in the current cycle: the cycle runs, the tile is present, issues, and has
the slot free, and its bundle is readable (R99, R126, R137, R141). -/
structure SlotOpen (s : State) (t : TileNo) (slot : Nat) : Prop where
  running : s.running = true
  present : tileIn s.grade t.toNat = true
  goes : (s.tile t.toNat).seq.stopped = false
  issues : ((s.tile t.toNat).bundleIn s.fab.scc).isSome = true ∨ (s.tile t.toNat).issues s.fab.scc = true
  free : ((s.tile t.toNat).openBundle s.fab.scc).slotFree slot = true
  readable : (s.slotTile t.toNat slot).mark 4 (s.slotTile t.toNat slot).iaddr.toNat ≠ 2

/-- The state after a slot operation that leaves its tile as `y`. -/
def State.afterSlot (s : State) (t : TileNo) (y : Tile) : State := (s.openSlot t.toNat).endSlot t.toNat y

/-- Slot operation `c` of tile `t` completes, and leaves the tile as `y`. -/
abbrev Issues (c : Instr) (s : State) (t : TileNo) (y : Tile) : Prop := Runs c s (s.afterSlot t y)

/-- The 64 B queue end holds a word that can be popped in cycle `now`: `e` at its head, `es` behind it (R68, R105). -/
structure Tile.CanPop (x : Tile) (now : Scc) (q : BitVec 6) (e : Entry) (es : List Entry) : Prop where
  first : x.popped q = false
  head : x.end64 q = e :: es
  older : (e.cyc = now) = False
  clean : e.mark ≠ 2

/-- The tile after the pop of `e`, a correctable error of which is counted. -/
def Tile.afterPop (x : Tile) (q : BitVec 6) (e : Entry) (es : List Entry) : Tile :=
  ((x.setEnd64 q es).popMark e.mark).modBundle fun b => { b with pops := q.toNat :: b.pops }

/-- Item `item` of a post on stack `k` can run an instruction that needs `n`: its post runs, its registers, row slots and
accesses are free, and its PC and count are in range (R277, R279, R280). -/
structure ScriptOpen (s : State) (k : BitVec 4) (post : BitVec 32) (item : BitVec 20) (o : ScriptOp) (n : Needs)
    (p : Post) (t : Thread) : Prop where
  post : s.postOf k.toNat post = some p
  runs : p.faulted = false ∧ p.cancelled = false
  thread : Sparse.find? item.toNat p.threads = some t
  ready : t.ready n = true
  inRange : t.pc ≤ 1023 ∧ t.count < 65536
  reserved : o.rsv = 0

/-- The state after an instruction of an item that leaves its thread as `t`. -/
def State.afterScript (s : State) (k : BitVec 4) (post : BitVec 32) (item : BitVec 20) (t : Thread) : State :=
  (s.modPost k.toNat post fun q => { q with threads := Sparse.put item.toNat t q.threads }).endItem k.toNat post
    item.toNat

/-- The state in which the body of an accepted command runs: the session has taken its datagram (R399, R401). -/
def State.heard (s : State) (f : Frame) (y : Session) : State := s.modSession y.number fun _ => y.take f.d s.clk.clk

/-- A mailbox frame's datagram is accepted on session `y` of its mailbox: it comes on a sub-port that hears, with TYPE SEALED,
its tag holds and its PN is new (R395, R398, R399, R424). -/
structure Hears (s : State) (f : Frame) (y : Session) : Prop where
  session : s.boxSession f.mb = some y
  number : f.d.session = y.number
  arrives : s.hears f.d.port f.d.sub = true
  header : f.d.ver = 1 ∧ f.d.type = 4 ∧ f.d.frag = 0
  window : y.admits f.d = true

/-- A mailbox frame is accepted for command `c`: its datagram is accepted, it fits, no long operation runs and no change of step
is to complete, its FKIND is a request's and its reserved bytes are zero, its CMD is the row's, its TAG is new, and neither the
role nor the device's state bars it (R422, R423, R425, R429–R433). -/
structure Accepts (s : State) (f : Frame) (c : Command) (y : Session) : Prop where
  hears : Hears s f y
  fits : s.frameFits f = true
  idle : s.stew.longOp = none ∧ s.stew.stepReplies = []
  reserved : f.fkind = 1 ∧ f.rsv = 0
  listed : f.stray = none
  fresh : c.code = 0x02 ∨ (s.mailbox f.mb).tag ≠ some f.tag
  free : (s.heard f y).bars f c = none

/-- The state after the reply with status OK and a result. -/
def State.answers (s : State) (f : Frame) (code : BitVec 8) (data : List Byte) : State :=
  (s.count .steward 0xA6 0 1).complete f.mb f.tag code (0, 0) data

/-- The state after a long operation has begun and its BUSY reply has left. -/
def State.begins (s : State) (f : Frame) (code : BitVec 8) (w : LongWork) : State :=
  let op : LongOp := { cmd := code, mailbox := f.mb, tag := f.tag, work := w }
  ({ s with stew := { s.stew with longOp := some op } }.count .steward 0xA6 0 1).busyReply f code op 0

/-- Every waiting command is well formed. -/
def State.QueueOk (s : State) : Prop := ∀ c ∈ s.pending, c.wellFormed = true

/-- The state's memory has its canonical form. -/
def State.MemoryOk (s : State) : Prop := Memory.wf s.mem = true

end Sys2Proof.Machine
end

