-- ==== Sys2Proof/Certificates/Slice0/Obligations.lean ====
section
/-!
DEFINITION. The statements for the provers. A statement "completes" says which next state a command answers, under
hypotheses on the state and the operands alone.
-/
open Sys2Proof Sys2Proof.Machine

/-! ## The step -/

/-- A step takes the command at the front of the queue and runs it on the state with the rest of the queue. -/
def Obligations.StepRunsFrontCommand : Prop :=
  ∀ (s : State) (c : Instr) (rest : List Instr), s.pending = c :: rest →
    step s = exec c { s with pending := rest }

/-- With an empty queue the block either puts the commands of the bundle that a tile issues next into the queue, or one
period of the step in force passes (the model's choice): the elapsed time of a block without power moves on by that period,
and no time passes while events of the cycle wait for their commands. Choices of the model in it: log entries 1, 3, 15, 81, 109. -/
def Obligations.EmptyQueueTicks : Prop :=
  ∀ s : State, s.pending = [] →
    (∀ cs, s.bundleNext = some cs → step s = .next { s with pending := cs })
    ∧ (s.bundleNext = none → step s = .next s.tick)
    ∧ (s.power.pgood = false → s.tick.clk.clk = s.clk.clk + stepPeriod s.clk.step)
    ∧ (s.power.pgood = true → s.waitsForEvents = true → s.tick = s)

/-- A tile whose turn it is to issue in a running cycle gives the commands of the bundle at its PC: those of its slots in the
order M, V, L, S, C, then its loop end; a bundle of NOPs is one command with its header (R98, R99, R101, R102). -/
def Obligations.BundlesSpellCommands : Prop :=
  (∀ (s : State) (t : Nat), s.running = true → s.issuesNext = some t →
    s.bundleNext = some (decodeBundle (BitVec.ofNat 10 t)
      (Sparse.get 0 (s.tile t).seq.imem (s.tile t).seq.pc.toNat)))
  ∧ ∀ (t : TileNo) (hdr : BitVec 8) (m : BitVec 40) (v : BitVec 64) (l : BitVec 48) (a b : BitVec 24) (c : BitVec 48),
    let w : BitVec 256 := c ++ b ++ a ++ l ++ v ++ m ++ hdr
    (w.extractLsb' 8 248 = 0 → decodeBundle t w = [.nop t hdr])
    ∧ (w.extractLsb' 8 248 ≠ 0 → (hdr.getLsbD 0 = true ∨ hdr = 0) →
      decodeBundle t w = slotCommand t .m decodeM m ++ slotCommand t .v decodeV v ++ slotCommand t .l decodeL l
        ++ slotCommand t .s decodeS a ++ slotCommand t .s decodeS b ++ slotCommand t .c decodeC c
        ++ (if hdr.getLsbD 0 then [.loopEnd t (hdr.extractLsb' 1 3) (hdr.extractLsb' 4 4)] else []))

/-- The words of the slots, field by field (R108, R112, R116, R120, R123). -/
def mWord (op : BitVec 5) (m : MSlot) : BitVec 40 :=
  m.rsv ++ m.off ++ m.ag ++ BitVec.ofBool m.plane ++ BitVec.ofBool m.acc ++ m.bank ++ m.fmt ++ op
def vWord (op : BitVec 8) (v : VSlot) : BitVec 64 :=
  v.rsv ++ v.slice ++ v.xb ++ v.xa ++ v.sh ++ v.part ++ v.fmt ++ BitVec.ofBool v.bp ++ v.rnd ++ v.srcC ++ v.srcB ++ v.srcA
    ++ v.dst ++ op
def lWord (op : BitVec 5) (l : LSlot) : BitVec 48 :=
  l.rsv ++ BitVec.ofBool l.chk ++ l.off2 ++ l.ag2 ++ l.qe ++ l.off ++ l.ag ++ op
def sWord (act : BitVec 3) (x : SSub) : BitVec 24 :=
  x.rsv ++ x.lat ++ x.fin ++ x.track ++ BitVec.ofBool x.west ++ act
def cWord (op : BitVec 6) (c : CSlot) : BitVec 48 :=
  c.arg ++ c.imm ++ c.pidx ++ BitVec.ofBool c.p ++ c.lvl ++ op

/-- The word of an operation, with every field at every value, decodes to that operation: the operations of the M, V, L and C
slots and the takes, taps and drives of the S slot (R108, R109, R112, R113, R116, R117, R120, R123, R124). -/
def Obligations.SlotWordsDecode : Prop :=
  ∀ t : TileNo,
    (∀ m, decodeM t (mWord 1 m) = some (.mma t m) ∧ decodeM t (mWord 2 m) = some (.ldw t m))
    ∧ (∀ op f v, vCommand op.toNat = some f → decodeV t (vWord op v) = some (f t v))
    ∧ (∀ l, decodeL t (lWord 0x01 l) = some (.ld t l) ∧ decodeL t (lWord 0x02 l) = some (.st t l)
      ∧ decodeL t (lWord 0x03 l) = some (.ldv t l) ∧ decodeL t (lWord 0x04 l) = some (.stv t l)
      ∧ decodeL t (lWord 0x05 l) = some (.ocw t l) ∧ decodeL t (lWord 0x08 l) = some (.pget t l)
      ∧ decodeL t (lWord 0x09 l) = some (.pput t l) ∧ decodeL t (lWord 0x0A l) = some (.gpost t l))
    ∧ (∀ x, decodeS t (sWord 1 x) = some (.take t x) ∧ decodeS t (sWord 2 x) = some (.tap t x)
      ∧ decodeS t (sWord 3 x) = some (.drive t x))
    ∧ (∀ op f c, cCommand op.toNat = some f → decodeC t (cWord op c) = some (f t c))

/-! ## The vector engine -/

/-- The lane-wise operations of R113, R179 and R214 with the latency L of each (R208). -/
def laneTable : List ((TileNo → VSlot → Instr) × LaneOp × Nat) :=
  [(.mov, opMov, 2), (.fadd, opFadd, 4), (.fsub, opFsub, 4), (.fmul, opFmul, 4), (.fma, opFma, 4), (.fmax, opFmax, 2),
   (.fmin, opFmin, 2), (.fabs, opFabs, 2), (.fneg, opFneg, 2), (.fcmpgt, opFcmpgt, 2), (.fcmpeq, opFcmpeq, 2),
   (.sel, opSel, 2), (.exp, opTrans 0x10, 8), (.log, opTrans 0x11, 8), (.tanh, opTrans 0x12, 8),
   (.sigm, opTrans 0x13, 8), (.rsqrt, opTrans 0x14, 8), (.iadd, opIadd, 2), (.isub, opIsub, 2), (.imul, opImul, 3),
   (.and_, opAnd, 2), (.or_, opOr, 2), (.xor, opXor, 2), (.shl, opShl, 2), (.shr, opShr, 2), (.sar, opSar, 2),
   (.rot, opRot, 2)]

/-- A lane-wise operation whose fields are legal and whose sources can be read completes: it computes its lanes from
the source values and puts the result in the pipe, due in cycle issue + L − 1 (R113, R208). -/
def Clause.LaneOperationsComplete : Prop :=
  ∀ p ∈ laneTable, ∀ (s : State) (t : TileNo) (v : VSlot) (a b c : Vec) (y : Tile),
    SlotOpen s t 1 → p.2.1.form.ok v = true →
    (s.slotTile t.toNat 1).sources s.fab.scc p.2.1.form v = .ok (a, b, c, y) →
    Issues (p.1 t v) s t
      ((y.result s.fab.scc p.2.2 v.dst (p.2.1.run v a b c).1 (p.2.1.run v a b c).2).count 0x05 1)

/-- CVTN and CVTW complete with latency 3, and RNG with latency 4 and its counter advanced by 32 (R182, R183, R217). -/
def Obligations.ConversionsAndRngComplete : Prop :=
  ∀ (s : State) (t : TileNo) (v : VSlot), SlotOpen s t 1 →
    let z := s.slotTile t.toNat 1
    let now := s.fab.scc
    (∀ (a b c : Vec) (y : Tile),
      ({ srcA := 1, dst := 2, rnd := true, fmt := true, part := true } : VForm).ok v = true →
      cvtFmtOk v.fmt = true → v.part.toNat < partsOf v.fmt → (fmtIsInt v.fmt || v.rnd = 0) = true →
      z.sources now { srcA := 1, dst := 2, rnd := true, fmt := true, part := true } v = .ok (a, b, c, y) →
      Issues (.cvtn t v) s t ((y.result now 3 v.dst (cvtnWord v.fmt v.rnd v.part.toNat a) 0).count 0x05 1))
    ∧ (∀ (a b c : Vec) (w : Line) (y x : Tile),
      ({ srcA := 2, b := true, fmt := true, part := true } : VForm).ok v = true →
      cvtFmtOk v.fmt = true → v.part.toNat < partsOf v.fmt →
      z.sources now { srcA := 2, b := true, fmt := true, part := true } v = .ok (a, b, c, y) →
      y.pop64 now 1 v.srcA = .ok (w, x) →
      Issues (.cvtw t v) s t ((x.result now 3 v.dst (cvtwVec v.fmt v.part.toNat w b) 0).count 0x05 1))
    ∧ (∀ y : Tile, ({ b := v.bp } : VForm).ok v = true → z.claimPush 1 v.dst = .ok y →
      let y' := y.result now 4 v.dst (rngBlocks y.vec.seed y.vec.ctr (if v.bp then y.param v.srcB else 0)) 0
      Issues (.rng t v) s t ({ y' with vec := { y'.vec with ctr := y'.vec.ctr + 32 } }.count 0x05 1))

/-- The operations on the exact accumulators complete: XCLR, XADD, XSUM and XIN change EXA_XA, XRD and XOUT put a
result in the pipe, and the EXA unit is occupied for 4 cycles by XADD and XSUM and for 1 by the others (R147, R148,
R193, R195, R196). -/
def Obligations.ExactAccumulatorsComplete : Prop :=
  ∀ (s : State) (t : TileNo) (v : VSlot) (f : VForm) (a b c : Vec) (y : Tile), SlotOpen s t 1 →
    let now := s.fab.scc
    f.ok v = true → (s.slotTile t.toNat 1).exaBusy now = false →
    (s.slotTile t.toNat 1).sources now f v = .ok (a, b, c, y) →
    let busy (x : Tile) (n : Scc) : Tile :=
      { x with vec := { x.vec with exaUntil := some (now + n) } }.count 0x05 1
    (f = { dst := 0, xa := true } → Issues (.xclr t v) s t (busy (y.setExa v.xa 0) 0))
    ∧ (f = { srcA := 1, dst := 0, fmt := true, xa := true } → (v.fmt = 5 ∨ v.fmt = 6) →
      Issues (.xadd t v) s t (busy (y.setExa v.xa
        (exaOf fun i => exaAdd (exaLane (y.exa v.xa) i) (xaddNum v.fmt (lane32 a i)))) 3))
    ∧ (f = { dst := 0, xa := true, xb := true } →
      Issues (.xsum t v) s t (busy (y.setExa v.xa
        (exaOf fun i => exaSum (exaLane (y.exa v.xa) i) (exaLane (y.exa v.xb) i))) 3))
    ∧ (f = { rnd := true, xa := true } →
      let r := lanesFlags 128 fun i => exaRead v.rnd (exaLane (y.exa v.xa) i)
      Issues (.xrd t v) s t (busy (y.result now 4 v.dst (vecOfList 32 r.1) (r.2.setWidth 13)) 0))
    ∧ (f = { xa := true, slice := true } →
      Issues (.xout t v) s t (busy (y.result now 2 v.dst
        (vecOf32 fun i => exaLane (y.exa v.xa) i / 2 ^ (32 * v.slice.toNat) % 2 ^ 32) 0) 0))
    ∧ (f = { srcA := 1, dst := 0, xa := true, slice := true } →
      Issues (.xin t v) s t (busy (y.setExa v.xa
        (exaOf fun i => exaPut (exaLane (y.exa v.xa) i) v.slice.toNat (lane32 a i))) 0))

/-- The operations of the FP64 pipe (R149). -/
def fp64Table : List ((TileNo → VSlot → Instr) × LaneOp × Nat) :=
  [(.dadd, opDadd, 6), (.dsub, opDsub, 6), (.dmul, opDmul, 6), (.dfma, opDfma, 6), (.f2d, opF2d, 4), (.d2f, opD2f, 4)]

/-- On grade F an operation of the FP64 pipe completes: its result enters the pipe and the FP64 pipe is occupied in the
next cycle too (R149). -/
def Clause.Fp64OperationsComplete : Prop :=
  ∀ p ∈ fp64Table, ∀ (s : State) (t : TileNo) (v : VSlot) (a b c : Vec) (y : Tile),
    SlotOpen s t 1 → s.grade = 0 → p.2.1.form.ok v = true → v.part.toNat < 2 →
    (s.slotTile t.toNat 1).fp64Busy s.fab.scc = false →
    (s.slotTile t.toNat 1).sources s.fab.scc p.2.1.form v = .ok (a, b, c, y) →
    let x := y.result s.fab.scc p.2.2 v.dst (p.2.1.run v a b c).1 (p.2.1.run v a b c).2
    Issues (p.1 t v) s t ({ x with vec := { x.vec with fp64Until := some (s.fab.scc + 1) } }.count 0x05 1)

/-- Every lane operation of the V slot and every FP64 operation completes. Choices of the model in it: log entry 4. -/
def Obligations.VectorOperationsComplete : Prop := Clause.LaneOperationsComplete ∧ Clause.Fp64OperationsComplete

/-- V_RESULT_COMPLETE completes in a running cycle at a present tile: the results due in the cycle for a destination leave the pipe
and have arrived. At the end of the cycle a single arrival raises its flags and enters the vector register, or the queue end, or
overflows an end that is full; of two or more for one register or end none enters, none raises a flag, and the bundle of the
later-issued one is inconsistent (R69, R107, R115, R180, R208, R210). -/
def Obligations.ResultsReachTheirEnds : Prop :=
  (∀ (s : State) (t : TileNo) (dst : BitVec 6), s.running = true → tileIn s.grade t.toNat = true →
    Runs (.vResultComplete t dst) s (s.modTile t.toNat fun x => { x with
      vec := { x.vec with results := x.vec.results.filter fun q => !(q.dst = dst && q.due = s.fab.scc) }
      arrived := x.arrived ++ x.vec.results.filter fun q => q.dst = dst && q.due = s.fab.scc }))
  ∧ (∀ (x : Tile) (now : Scc) (r : Result),
    let y := x.raise r.flags
    let done (z : Tile) : Prop := x.enterDst now r.dst [r] = (z, none)
    (r.dst = qeNone → done y)
    ∧ (qeIsReg r.dst = true → done (y.setVreg r.dst r.data))
    ∧ (qeIsVQ r.dst = true → (x.vq r.dst).length < qeDepth r.dst →
      done (y.setVq r.dst (x.vq r.dst ++ [{ data := r.data, cyc := now, mark := r.mark }])))
    ∧ (qeDst64 r.dst = true → r.dst ≠ qeNone → (x.end64 r.dst).length < qeDepth r.dst →
      done (y.setEnd64 r.dst (x.end64 r.dst ++ [{ data := r.data.setWidth 512, cyc := now, mark := r.mark }])))
    ∧ (qeIsVQ r.dst = true → qeDepth r.dst ≤ (x.vq r.dst).length →
      x.enterDst now r.dst [r] = (y, some (r.iaddr, qOver r.slot r.dst.toNat (x.vq r.dst).length)))
    ∧ (qeDst64 r.dst = true → r.dst ≠ qeNone → qeDepth r.dst ≤ (x.end64 r.dst).length →
      x.enterDst now r.dst [r] = (y, some (r.iaddr, qOver r.slot r.dst.toNat (x.end64 r.dst).length))))
  ∧ (∀ (x : Tile) (now : Scc) (dst : BitVec 6) (a b : Result) (rest : List Result), dst ≠ qeNone →
    let later := (b :: rest).foldl Result.later a
    x.enterDst now dst (a :: b :: rest) = (x, some (later.iaddr, inconsistent later.slot)))
  ∧ ∀ (x : Tile) (now : Scc) (dst : BitVec 6), x.arrived ≠ [] → (∀ r ∈ x.arrived, r.dst = dst) →
    let y := { x with arrived := [] }.enterDst now dst x.arrived
    x.enterAll now = (y.1, y.2.toList)

/-! ## The matrix unit, the scratchpad and the streams -/

/-- MMA pops an activation word and starts a pass that settles in cycle issue + A + 3; LDW starts a 32-cycle load of a
plane, whose words stand in MW on their way; the load's last cycle puts the plane in its buffer; a pass that settles gives its
bank the pass value (R67, R111, R188, R200, R202, R203). -/
def Obligations.MatrixUnitCompletes : Prop :=
  ∀ (s : State) (t : TileNo) (m : MSlot),
    let z := s.slotTile t.toNat 0
    let now := s.fab.scc
    (∀ (e : Entry) (es : List Entry) (y x : Tile), SlotOpen s t 0 →
      m.rsv = 0 → m.ag = 0 → m.off = 0 → m.fmt.toNat < 8 → z.arrayBusy now = false → z.loading now m.plane = false →
      z.CanPop now qeMA e es → (z.afterPop qeMA e es).readMark 6 m.plane.toNat 0 m.plane.toNat = .ok y →
      (if m.acc then y.readMark 6 (2 + m.bank.toNat) 0 (2 + m.bank.toNat) else .ok y) = .ok x →
      let p : Pass := { bank := m.bank, fmt := m.fmt, acc := m.acc, act := e.data, plane := (x.plane m.plane).data,
                        scales := (x.plane m.plane).scales, settle := now + BitVec.ofNat 48 (passA m.fmt + 3) }
      Issues (.mma t m) s t ({ x with mx := { x.mx with
        passes := x.mx.passes ++ [p]
        arrayUntil := some (now + BitVec.ofNat 48 (passA m.fmt - 1), m.plane) } }.count 0x04 1))
    ∧ (∀ y : Tile, SlotOpen s t 0 → m.rsv = 0 → m.bank = 0 → m.acc = false → m.fmt.toNat < 8 → z.arrayBusy now = false →
      z.loading now false = false → z.loading now true = false →
      let a := (z.agAddr m.ag m.off).toNat % 65536 / 64 * 64
      z.readLines (planeLines m.fmt a).dedup = .ok y →
      let x := y.setPlane m.plane { y.plane m.plane with fmt := m.fmt }
      Issues (.ldw t m) s t { x with mx := { x.mx with
        load := some { plane := m.plane, data := planeAt x.mx.opcache m.fmt a, last := now + 31 } } })
    ∧ (∀ (l : Load), s.running = true → tileIn s.grade t.toNat = true → (s.tile t.toNat).mx.load = some l →
      l.last = now →
      Runs (.weightLoadComplete t l.plane) s (s.modTile t.toNat fun x => x.finishLoad now l.plane)
      ∧ (((s.tile t.toNat).finishLoad now l.plane).plane l.plane) = l.data
      ∧ ((s.tile t.toNat).finishLoad now l.plane).mx.load = none)
    ∧ (∀ (x : Tile) (l : Load), x.mx.load = some l →
      (x.fillMw now).mx.mw = l.mw now ∧ (now = l.last → (x.fillMw now).mx.mw = []))
    ∧ (∀ (p : Pass), s.running = true → tileIn s.grade t.toNat = true →
      ((s.tile t.toNat).mx.passes.find? fun q => q.bank = p.bank && q.settle = now) = some p →
      Runs (.passSettle t p.bank) s (s.modTile t.toNat fun x => x.settle now p.bank)
      ∧ ((s.tile t.toNat).settle now p.bank).bankVals p.bank.toNat
        = (p.settleInto (((s.tile t.toNat).bankVals p.bank.toNat).headD {})
            :: (s.tile t.toNat).bankVals p.bank.toNat).take 4)

/-- LD, LDV and OCW put a read of one or eight lines in flight, and ST and STV a write that lands at the end of
issue + 2; SCRATCHPAD_WRITE_LAND writes the lines (R117, R119, R227). -/
def Clause.ScheduledAccessesComplete : Prop :=
  ∀ (s : State) (t : TileNo) (l : LSlot),
    let z := s.slotTile t.toNat 2
    let e := s.issueEnv t.toNat
    let now := s.fab.scc
    let read (x : Tile) (wide : Bool) (oc : Option (BitVec 7)) : Tile :=
      let a := padAlign wide (x.agAddr l.ag l.off)
      let y := (x.noteAccess now false wide a).count 0x06 1
      { y with pad := { y.pad with reads := y.pad.reads ++
        [{ addr := BitVec.ofNat 21 a, wide := wide, oc := oc, dst := l.qe, chk := l.chk, issued := now,
           iaddr := y.iaddr }] } }
    let write (x : Tile) (wide : Bool) (a : Nat) (d : Vec) : Tile :=
      let y := (x.noteAccess now true wide a).count 0x06 1
      { y with pad := { y.pad with writes := y.pad.writes ++
        [{ addr := BitVec.ofNat 21 a, wide := wide, data := d, due := now + 2, gen := y.seq.gen, spec := false }] } }
    let readOk (x : Tile) (wide : Bool) : Prop :=
      l.rsv = 0 ∧ chkOk l z true = true ∧ z.claimPush 2 l.qe = .ok x
      ∧ escrowCheck e x (padAlign wide (x.agAddr l.ag l.off)) = .ok ()
      ∧ bankCheck e x false wide (padAlign wide (x.agAddr l.ag l.off)) = .ok ()
    let storeOk (wide : Bool) (a : Nat) : Prop :=
      l.rsv = 0 ∧ l.ag2 = 0 ∧ l.off2 = 0 ∧ l.chk = false ∧ a = padAlign wide (z.agAddr l.ag l.off)
      ∧ z.speculative now = false ∧ escrowCheck e z a = .ok ()
    (SlotOpen s t 2 →
      (∀ x, qeDst64 l.qe = true → l.ag2 = 0 → l.off2 = 0 → readOk x false →
        Issues (.ld t l) s t (read x false none))
      ∧ (∀ x, (qeIsVQ l.qe || qeIsReg l.qe) = true → l.ag2 = 0 → l.off2 = 0 → readOk x true →
        Issues (.ldv t l) s t (read x true none))
      ∧ (∀ x, l.qe = qeNone → readOk x true →
        Issues (.ocw t l) s t
          (read x true (some (BitVec.ofNat 7 ((x.agAddr l.ag2 l.off2).toNat % 65536 / 512)))))
      ∧ (∀ a w x, qeSrc64 l.qe = true → storeOk false a → z.pop64 now 2 l.qe = .ok (w, x) →
        bankCheck e x true false a = .ok () → Issues (.st t l) s t (write x false a (w.setWidth 4096)))
      ∧ (∀ a v x, qeIsVQ l.qe = true → storeOk true a → z.popV now 2 l.qe = .ok (v, x) →
        bankCheck e x true true a = .ok () → Issues (.stv t l) s t (write x true a v))
      ∧ (∀ a x, qeIsReg l.qe = true → z.readMark 3 (l.qe.toNat - 0x20) 2 (l.qe.toNat - 0x20) = .ok x → storeOk true a →
        bankCheck e z true true a = .ok () → Issues (.stv t l) s t (write x true a (x.vreg l.qe))))
    ∧ (∀ w, s.running = true → ((s.tile t.toNat).pad.writes.find? fun v => v.due = now) = some w →
      Runs (.scratchpadWriteLand t) s
        ((s.modTile t.toNat fun y => { y with pad := { y.pad with
          writes := y.pad.writes.filter fun v => v != w } }).landWrite t.toNat w))

/-- In an open escrow group ST and STV write the escrow lines that stand for the home lines (R233). -/
def Clause.SpeculativeStoresRedirect : Prop :=
  ∀ (s : State) (t : TileNo) (l : LSlot) (wide : Bool) (y : Tile),
    let z := s.slotTile t.toNat 2
    let e := s.issueEnv t.toNat
    let a := padAlign wide (z.agAddr l.ag l.off)
    SlotOpen s t 2 → l.rsv = 0 → l.ag2 = 0 → l.off2 = 0 → l.chk = false → escrowCheck e z a = .ok () →
    z.speculative s.fab.scc = true → a < padTop → z.redirectAll z.esc.group (padLines wide a) = .ok y →
    let write (x : Tile) (d : Vec) : Tile :=
      let v := (x.noteAccess s.fab.scc true wide a).count 0x06 1
      { v with pad := { v.pad with writes := v.pad.writes ++
        [{ addr := BitVec.ofNat 21 a, wide := wide, data := d, due := s.fab.scc + 2, gen := v.seq.gen, spec := true }] } }
    (∀ w x, wide = false → qeSrc64 l.qe = true → y.pop64 s.fab.scc 2 l.qe = .ok (w, x) →
      bankCheck e x true false a = .ok () → Issues (.st t l) s t (write x (w.setWidth 4096)))
    ∧ (∀ v x, wide = true → qeIsVQ l.qe = true → y.popV s.fab.scc 2 l.qe = .ok (v, x) →
      bankCheck e x true true a = .ok () → Issues (.stv t l) s t (write x v))
    ∧ (∀ x, wide = true → qeIsReg l.qe = true → y.readMark 3 (l.qe.toNat - 0x20) 2 (l.qe.toNat - 0x20) = .ok x →
      bankCheck e y true true a = .ok () → Issues (.stv t l) s t (write x (x.vreg l.qe)))

/-- Scheduled reads and stores of the scratchpad complete, speculative stores into escrow lines. -/
def Obligations.ScratchpadAccessesComplete : Prop := Clause.ScheduledAccessesComplete ∧ Clause.SpeculativeStoresRedirect

/-- PGET, PPUT and GPOST put their request line in flight and take their number; REQUEST_LINE_READ in cycle issue + 3
starts the post or the transfer, unless the tile still holds an earlier post to the same stack (R150, R151, R153, R154, R156,
R273). -/
def Obligations.PettyRequestsComplete : Prop :=
  ∀ (s : State) (t : TileNo) (l : LSlot),
    let z := s.slotTile t.toNat 2
    let e := s.issueEnv t.toNat
    let now := s.fab.scc
    let a := padAlign false (z.agAddr l.ag l.off)
    let sent (x : Tile) (k : ReqKind) (n : BitVec 32) (d : Vec) : Tile :=
      let y := (x.noteAccess now false false a).count 0x06 1
      { y with petty := { y.petty with
        reqs := y.petty.reqs ++ [{ kind := k, addr := BitVec.ofNat 21 a, qe := l.qe, issued := now, iaddr := y.iaddr,
                                   number := n, line := none, data := d, spec := z.speculative now }] } }
    let legal : Prop := l.rsv = 0 ∧ l.ag2 = 0 ∧ l.off2 = 0 ∧ l.chk = false ∧ escrowCheck e z a = .ok ()
    (SlotOpen s t 2 → legal →
      (l.qe = qePQ → z.pettyOut < 64 → bankCheck e z false false a = .ok () →
        let y := sent z .pget z.petty.nextPetty 0
        Issues (.pget t l) s t { y with petty := { y.petty with nextPetty := y.petty.nextPetty + 1 } })
      ∧ (∀ x, qeIsReg l.qe = true → (z.speculative now = true → z.heldCount < 64) →
        z.readMark 3 (l.qe.toNat - 0x20) 2 (l.qe.toNat - 0x20) = .ok x → z.pettyOut < 64 →
        bankCheck e z false false a = .ok () →
        let y := sent x .pput x.petty.nextPetty (x.vreg l.qe)
        Issues (.pput t l) s t { y with petty := { y.petty with nextPetty := y.petty.nextPetty + 1 } })
      ∧ (∀ d x, qeIsVQ l.qe = true → (z.speculative now = true → z.heldCount < 64) →
        z.popV now 2 l.qe = .ok (d, x) → z.pettyOut < 64 → bankCheck e z false false a = .ok () →
        let y := sent x .pput x.petty.nextPetty d
        Issues (.pput t l) s t { y with petty := { y.petty with nextPetty := y.petty.nextPetty + 1 } })
      ∧ ((qeIsFQ l.qe || l.qe = qeNone) = true → s.grade ≠ 2 → z.postOut < 16 →
        bankCheck e z false false a = .ok () →
        let y := sent z .gpost z.petty.nextPost 0
        Issues (.gpost t l) s t { y with petty := { y.petty with nextPost := y.petty.nextPost + 1 } }))
    ∧ (∀ r d, s.running = true → ((s.tile t.toNat).petty.reqs.find? fun q => q.issued + 3 = now) = some r →
      r.line = some d →
      let s' := s.modTile t.toNat fun x => { x with petty := { x.petty with
        reqs := x.petty.reqs.filter fun q => q != r } }
      let post : LatePost := { number := r.number, stack := BitVec.ofNat 4 (postStack d), line := d, qe := r.qe
                               spec := r.spec && (s'.tile t.toNat).esc.openedAt.isSome }
      (r.kind = .gpost → postLineOk r.qe d = true → stackIn s'.grade (postStack d) = true →
        (s'.tile t.toNat).discarded r = false →
        ((r.spec && postWr d) = false →
          ((s'.tile t.toNat).earlierHeld post.stack r.number = false ∨ post.spec = true →
            Runs (.requestLineRead t) s (s'.startPost t.toNat post))
          ∧ ((s'.tile t.toNat).earlierHeld post.stack r.number = true → post.spec = false →
            Runs (.requestLineRead t) s (s'.modTile t.toNat fun x => { x with petty := { x.petty with
              latePosts := x.petty.latePosts ++ [post] } })))
        ∧ ((r.spec && postWr d) = true → (s'.tile t.toNat).heldCount < 64 →
          Runs (.requestLineRead t) s (s'.modTile t.toNat fun x => { x with esc := { x.esc with
            held := holdAt r.issued (.gpost r.number post.stack d r.qe) x.esc.held } })))
      ∧ (r.kind ≠ .gpost → Runs (.requestLineRead t) s (s'.pettyRead t.toNat r d)))

/-- TAKE, TAP, DRIVE and MOVE complete: a take removes the word at the tile, and so does a tap where the route ends; a tap
elsewhere leaves it; both push it to their SI end; a drive puts the popped word on its track, at the end of the cycle, with
the cycle's stamp; a move pushes the popped word. The arrival of a word at the end of its route is noted, and a word that
meets a spine input without a valid entry halts the fabric as untaken (R13, R73, R121, R122). Choices of the model in it: log entry 24. -/
def Obligations.StreamOperationsComplete : Prop :=
  ∀ (s : State) (t : TileNo),
    let z := s.slotTile t.toNat 3
    let now := s.fab.scc
    (SlotOpen s t 3 → ∀ (v : SSub), v.rsv = 0 → v.track.toNat < 48 →
      let key := trackKey v.west v.track
      (∀ (w : Word) (x : Tile), v.lat ≠ 0 → (z.bundle.any fun b => b.taken.contains key) = false →
        (z.modBundle fun b => { b with taken := key :: b.taken }).claimPush 3 (v.fin.setWidth 6) = .ok x →
        (x.wordAt v.west v.track.toNat) = some w →
        w.stamp = (now - v.lat.setWidth 48).setWidth 3 →
        let y := x.put64 now 3 (v.fin.setWidth 6) w.data w.mark
        Issues (.take t v) s t (y.setWord v.west v.track.toNat none)
        ∧ (y.marked v.west v.track.toNat = true → Issues (.tap t v) s t (y.setWord v.west v.track.toNat none))
        ∧ (y.marked v.west v.track.toNat = false →
          Issues (.tap t v) s t { y with taps := (key, v.fin.setWidth 6) :: y.taps }))
      ∧ (∀ (e : Entry) (es : List Entry), v.lat = 0 → (z.bundle.any fun b => b.driven.contains key) = false →
        (s.issueEnv t.toNat).window = false →
        let x := z.modBundle fun b => { b with driven := key :: b.driven }
        x.CanPop now (8 + v.fin.setWidth 6) e es →
        let y := x.afterPop (8 + v.fin.setWidth 6) e es
        Issues (.drive t v) s t { y with drives := y.drives ++ [(key,
          { data := e.data, stamp := now.setWidth 3, set := s.setInForce t.toNat,
            spec := if y.speculative now then 1 else 0 })] }))
    ∧ (SlotOpen s t 3 → ∀ (m : SMove) (x : Tile) (e : Entry) (es : List Entry), m.rsv = 0 → qeSrc64 m.src = true →
      qeDst64 m.dst = true → z.claimPush 3 m.dst = .ok x → x.CanPop now m.src e es →
      Issues (.move t m) s t ((x.afterPop m.src e es).put64 now 3 m.dst e.data))
    ∧ (∀ (west : Bool) (track : BitVec 6), s.running = true → tileIn s.grade t.toNat = true →
      let noted := s.modTile t.toNat fun y =>
        match y.wordAt west track.toNat with
        | some w => y.setWord west track.toNat (some { w with noted := true })
        | none => y
      (noted.strayOf t.toNat west track = none → Runs (.streamWordArrival t west track) s noted)
      ∧ ∀ x, noted.strayOf t.toNat west track = some x →
        Runs (.streamWordArrival t west track) s
          ({ noted with fab := { noted.fab with transits := noted.fab.transits.filter fun z => z != x } }.tileHalt
            t.toNat noted.fab.scc (noted.tile t.toNat).iaddr (stampFail 2 0 x.word.stamp track.toNat west)))

/-! ## The sequencer -/

/-- LOOP activates its level with its count and start; JUMP sets the next PC; IDLE suspends issue until cycle issue + n;
its expiry lets the tile issue again; END stops the tile and sets ENDED; a bundle of NOPs only moves the PC on; a
reserved opcode halts with ILLEGAL_OP, subcode 1 (R99, R103, R126, R127, R130, R141, R144). -/
def Obligations.SequencerCompletes : Prop :=
  ∀ (s : State) (t : TileNo) (c : CSlot),
    let z := s.slotTile t.toNat 4
    let now := s.fab.scc
    (SlotOpen s t 4 →
      (∀ n, c.lvl.toNat < 6 → c.arg.toNat < 16 → c.valueForm = true → (c.p || c.imm != 0) = true →
        z.iaddr.toNat + 1 + c.arg.toNat ≤ 1535 →
        ((List.range 6).all fun j => j < c.lvl.toNat || !(z.loop j).active) = true → c.count z = .ok n →
        Issues (.loop t c) s t
          ((z.setLoop c.lvl.toNat
            { active := true, index := 0, start := BitVec.ofNat 11 (z.iaddr.toNat + 1 + c.arg.toNat), count := n }).setCop 1))
      ∧ (c.bare = true → c.arg.toNat ≤ 1535 → z.anyLoop = false →
        Issues (.jump t c) s t ({ z with seq := { z.seq with pc := c.arg.setWidth 11 } }.setCop 2))
      ∧ (∀ n, c.lvl = 0 → c.arg = 0 → c.valueForm = true → (c.p || c.imm != 0) = true → c.count z = .ok n →
        Issues (.idle t c) s t
          ({ z with seq := { z.seq with idling := true, resumeAt := some (now + n.setWidth 48 + 1) } }.setCop 3))
      ∧ (c.bare = true → c.arg = 0 →
        Issues (.endProgram t c) s t ({ z with seq := { z.seq with ended := true, run := false } }.setCop 4)))
    ∧ (∀ hdr : BitVec 8, SlotOpen s t 6 → (s.tile t.toNat).bundleIn now = none →
      hdr.extractLsb' 4 4 = 0 → hdr.getLsbD 0 = false → hdr.extractLsb' 1 3 = 0 →
      Issues (.nop t hdr) s t ((s.slotTile t.toNat 6).modBundle fun b => { b with closed := true }))
    ∧ (s.running = true → (s.tile t.toNat).seq.idling = true → (s.tile t.toNat).seq.resumeAt = some (now + 1) →
      Runs (.idleExpiry t) s (s.modTile t.toNat fun y => { y with seq := { y.seq with idling := false } }))
    ∧ (∀ k : Slot, SlotOpen s t (slotNumber k) →
      Runs (.reservedOpcodeIssue t k) s ((s.openSlot t.toNat).failIssue t.toNat (s.slotTile t.toNat (slotNumber k))
        { slot := slotNumber k, reason := 7, subcode := 1, detail := BitVec.ofNat 32 (slotNumber k) }))

/-- LOOP_END, as R131 says it: from level 5 down to LEVEL an active level with iterations left counts its index up and
goes back to its start, the deeper ones that finished on the way stay active with index 0, and nothing else changes; if
none has iterations left, the PC goes on and every level from LEVEL on closes. A level outside LEVEL is never touched. -/
def Obligations.LoopEndCompletes : Prop :=
  ∀ (s : State) (t : TileNo) (level : BitVec 3) (b : Bundle), SlotOpen s t 5 →
    let z := s.slotTile t.toNat 5
    let k := level.toNat
    let y := z.closeLoops k [5, 4, 3, 2, 1, 0]
    let left (j : Nat) : Prop := (z.loop j).index.toNat + 1 < (z.loop j).count.toNat
    let finished (j : Nat) : Loop := if (z.loop j).active = true then { z.loop j with index := 0 } else z.loop j
    k < 6 → z.bundle = some b → b.active.getLsbD k = true →
    ([2, 4, 0x21, 0x22, 0x23] : List Nat).contains b.cop = false →
    Issues (.loopEnd t level 0) s t (y.modBundle fun b => { b with closed := true })
    ∧ (∀ j, j < k → y.loop j = z.loop j)
    ∧ (∀ a, k ≤ a → a ≤ 5 → (z.loop a).active = true → left a →
      (∀ j, a < j → j ≤ 5 → (z.loop j).active = true → ¬ left j) →
      y.seq.pc = (z.loop a).start ∧ y.loop a = { z.loop a with index := (z.loop a).index + 1 }
      ∧ (∀ j, k ≤ j → j < a → y.loop j = z.loop j)
      ∧ (∀ j, a < j → j ≤ 5 → y.loop j = finished j))
    ∧ ((∀ j, k ≤ j → j ≤ 5 → (z.loop j).active = true → ¬ left j) →
      y.seq.pc = z.seq.pc ∧ ∀ j, k ≤ j → j ≤ 5 → y.loop j = { finished j with active := false })

/-- TADD, TSUB, TSIG and FARM post their operation: outside an open group it sets out for its block, and in one it waits
in the member's operation escrow queue, but for a FARM whose fetch a discard can undo, which sets out at once (R128, R157,
R241, R249, R337). Choices of the model in it: log entry 15. -/
def Obligations.PostedOperationsComplete : Prop :=
  ∀ (s : State) (t : TileNo) (c : CSlot), SlotOpen s t 4 →
    let z := s.slotTile t.toNat 4
    let e := s.issueEnv t.toNat
    let now := s.fab.scc
    let posted (i : Instr) (p : Posted) (y : Tile) : Prop :=
      (z.speculative now = false → Issues i s t y)
      ∧ (z.speculative now = true → z.heldCount < 64 →
        Issues i s t { z with esc := { z.esc with held := z.esc.held ++ [(now, p)] } })
    let till (sub : Bool) : Posted := .till (c.arg.setWidth 15) (c.value z) sub
    let signal : Posted := .signal (c.arg.setWidth 14) (c.value z) (c.arg.getLsbD 15) now
    (c.lvl = 0 → c.valueForm = true → c.arg.getLsbD 15 = false →
      posted (.tadd t c) (till false) { z with petty := { z.petty with tillOut := z.petty.tillOut ++ [(now, till false)] } }
      ∧ posted (.tsub t c) (till true)
        { z with petty := { z.petty with tillOut := z.petty.tillOut ++ [(now, till true)] } })
    ∧ (c.lvl = 0 → c.valueForm = true → c.arg.getLsbD 14 = false → e.field.ckKind (c.arg.toNat % 16384) = 2 →
      s.absentLink (c.arg.toNat % 16384) = none →
      posted (.tsig t c) signal { z with petty := { z.petty with sigOut := z.petty.sigOut ++ [(now, signal)] } })
    ∧ (∀ d, c.bare = true → c.arg.toNat < 256 → z.seq.farmMap.getLsbD c.arg.toNat = true →
      d = Sparse.get 0 e.field.desc c.arg.toNat → descChanOk e.field d = true →
      (descKind d = 0 ∨ s.absentLink (descChan d) = none) →
      let out (spec : Bool) : Tile :=
        { z with petty := { z.petty with farmOut := z.petty.farmOut ++ [(now, .farm (c.arg.setWidth 8) spec)] } }
      (farmLeaves e z d = false → posted (.farm t c) (.farm (c.arg.setWidth 8) false) (out false))
      ∧ (farmLeaves e z d = true → z.speculative now = false → Issues (.farm t c) s t (out false))
      ∧ (farmLeaves e z d = true → z.speculative now = true → Issues (.farm t c) s t (out true)))

/-- AGSET and AGADD write a word of an address generator's working copy, which takes its value at the end of the cycle; GEN counts the generation up; VBR and ERES pop
their verdict word, go on or branch, and ERES resolves the group; EOPEN enters a group (R133, R145, R146, R159, R334,
R335). Choices of the model in it: log entries 28, 29. -/
def Obligations.GeneratorsAndForksComplete : Prop :=
  ∀ (s : State) (t : TileNo) (c : CSlot), SlotOpen s t 4 →
    let z := s.slotTile t.toNat 4
    let e := s.issueEnv t.toNat
    let now := s.fab.scc
    let ag (k : Nat) (v : BitVec 32) : Tile := z.modBundle fun b => { b with agw := some (k, v) }
    let k := 8 * (c.arg.toNat % 16) + c.arg.toNat / 16
    let q := c.arg.extractLsb' 4 6
    let popped (w : Entry) (ws : List Entry) : Tile :=
      if w.data.getLsbD 0 then z.afterPop q w ws
      else { z.afterPop q w ws with seq := { (z.afterPop q w ws).seq with pc := c.imm.setWidth 11 } }
    (c.lvl = 0 → c.valueForm = true → c.arg.toNat < 112 →
      Issues (.agset t c) s t (ag k (c.value z))
      ∧ Issues (.agadd t c) s t (ag k (Sparse.get 0 z.seq.ag k + c.value z))
      ∧ (∀ (x : Tile) b v, x.bundle = some b → b.agw = some (k, v) →
        (x.settleAg.seq.ag = Sparse.set 0 x.seq.ag k v) ∧ x.settleAg.bundle = some { b with agw := none }))
    ∧ (∀ b, c.bare = true → c.arg = 0 → z.seq.genEn = true → z.bundle = some b → b.mvop = 0 → b.lop = false →
      b.sop = 0 → Issues (.gen t c) s t ({ z with seq := { z.seq with gen := z.seq.gen + 1 } }.setCop 0x23))
    ∧ (∀ w ws, forkForm c = true → c.arg.toNat % 16 = 0 → z.anyLoop = false → z.CanPop now q w ws →
      (w.data.getLsbD 0 = true → z.iaddr ≠ 1535) → Issues (.vbr t c) s t ((popped w ws).setCop 0x22))
    ∧ (∀ w ws b, forkForm c = true → s.grade ≠ 2 → z.anyLoop = false → z.bundle = some b → b.lop = false → b.sop = 0 →
      z.speculative now = true → z.esc.group = c.arg.setWidth 4 → z.CanPop now q w ws →
      (w.data.getLsbD 0 = true → z.iaddr ≠ 1535) →
      let y := popped w ws
      Issues (.eres t c) s t
        ({ y with esc := { y.esc with resolvedAt := some now, committed := w.data.getLsbD 0 } }.setCop 0x21))
    ∧ (c.bare = true → c.arg.toNat < 16 → s.grade ≠ 2 → e.escrow = true →
      (e.field.members t.toNat (c.arg.setWidth 4)).getLsbD (tileCol t.toNat) = true → z.esc.openedAt = none →
      z.afterEres now = false →
      Issues (.eopen t c) s t
        ({ z with esc := { z.esc with openedAt := some now, group := c.arg.setWidth 4 } }.setCop 0x20))

/-- WAIT schedules its sample; WAIT_SAMPLE in cycle w + 8 goes on if the condition holds and else requests a hold; DRAIN
joins the cycle's drain; DRAIN_SAMPLE in cycle D + 8 checks PQ and FQ or requests a hold; the named spine set comes into
force at the end of D + 31, when its fallow banks power down; a waking bank becomes ready (R80, R84–R86, R158, R234,
R235). Choices of the model in it: log entries 25, 94. -/
def Obligations.WaitsAndDrainsComplete : Prop :=
  ∀ (s : State) (t : TileNo) (c : CSlot),
    let z := s.slotTile t.toNat 4
    let now := s.fab.scc
    (SlotOpen s t 4 →
      (∀ q : BitVec 6, c.lvl = 0 → c.valueForm = true → c.arg = q.setWidth 16 → (q = qePQ || qeIsFQ q) = true →
        1 ≤ (c.value z).toNat → (c.value z).toNat ≤ qeDepth q →
        Issues (.wait t c) s t { z with waits := z.waits ++
          [{ issued := now, iaddr := z.iaddr, kind := 0, n := c.value z, arg := c.arg }] })
      ∧ (c.lvl = 1 → c.valueForm = true → c.arg.getLsbD 15 = false →
        Issues (.wait t c) s t { z with waits := z.waits ++
          [{ issued := now, iaddr := z.iaddr, kind := 1, n := c.value z, arg := c.arg }] })
      ∧ (c.p = false → c.pidx = 0 →
        (c.lvl = 2 ∧ c.imm = 0 ∧ c.arg.toNat < 256 ∨ c.lvl = 3 ∧ c.imm.toNat ≤ 63 ∧ c.arg = 0
          ∨ c.lvl = 4 ∧ c.imm.toNat ≤ 15 ∧ c.arg = 0) →
        Issues (.wait t c) s t { z with waits := z.waits ++
          [{ issued := now, iaddr := z.iaddr, kind := c.lvl, n := c.value z, arg := c.arg }] })
      ∧ (c.bare = true → c.arg.toNat < 32 →
        let d : TileDrain := { cyc := now, iaddr := z.iaddr, set := c.arg.setWidth 4, count := c.arg.getLsbD 4 }
        Issues (.drain t c) s t { z with drains := z.drains ++ [d] }))
    ∧ (∀ w, s.running = true → ((s.tile t.toNat).waits.find? fun w => w.issued + 8 = now) = some w →
      let drop (s : State) : State := s.modTile t.toNat fun x => { x with waits := x.waits.filter fun v => v != w }
      (s.waitMet t.toNat w = true → Runs (.waitSample t) s (drop s))
      ∧ (s.waitMet t.toNat w = false →
        let s' : State := (drop s).modTile t.toNat fun x => x.count 0x07 1
        let held : HeldWait := { tile := t, wait := w, metAt := none }
        Runs (.waitSample t) s ({ s' with fab := { s'.fab with hold := { s'.fab.hold with
          waits := s'.fab.hold.waits ++ [held] } } }.requestHold .wait now)))
    ∧ (∀ d, s.running = true → s.sampleDue = some d →
      let s' := s.modDrain d.cyc fun x => { x with sampled := true }
      let counted (s : State) : State := if d.count then s.requestHold .steward now else s
      (s'.drainUnmet = none → Runs .drainSample s (counted (s'.drainCheck d.cyc)))
      ∧ (s'.drainUnmet ≠ none → Runs .drainSample s (counted (s'.requestHold .drain now))))
    ∧ (∀ k, s.running = true → s.setDue = some k →
      Runs .spineSetSwitch s (s.presentFields.foldl (fun s f => s.modField f fun y => { y with spineCur := k }) s))
    ∧ (∀ (bank : BitVec 4) (k : BitVec 4), s.running = true → s.setDue = some k →
      tileIn s.grade t.toNat = true →
      ((s.field (tileField t.toNat)).fallowMask k t.toNat).getLsbD bank.toNat = true →
      (s.tile t.toNat).pad.fallow.getLsbD bank.toNat = false →
      Runs (.fallowBankPowerDown t bank) s ((s.clearBank t.toNat bank.toNat).modTile t.toNat fun x => { x with
        pad := { x.pad with
          fallow := x.pad.fallow ||| ((1 : BitVec 16) <<< bank.toNat)
          waking := x.pad.waking &&& ~~~((1 : BitVec 16) <<< bank.toNat)
          wakeAt := Sparse.erase bank.toNat x.pad.wakeAt } }))
    ∧ (∀ (bank : BitVec 4) (w : Scc), Sparse.find? bank.toNat (s.tile t.toNat).pad.wakeAt = some w →
      (s.tile t.toNat).pad.waking.getLsbD bank.toNat = true → sccGe (now + 1) w = true →
      Runs (.bankWakeComplete t bank) s ((s.clearBank t.toNat bank.toNat).modTile t.toNat fun x => { x with
        pad := { x.pad with
          waking := x.pad.waking &&& ~~~((1 : BitVec 16) <<< bank.toNat)
          wakeAt := Sparse.erase bank.toNat x.pad.wakeAt } }))

/-- After a commit in cycle E, ESCROW_SWAP in E + 4 makes the escrow lines of every member's slice their home lines; the k-th held
operation of a member is due in cycle E + 5 + k, and HELD_OPERATION_RELEASE in that cycle lets it set out; CAPTURED_WORD_RELEASE
drives the word that is due on its track, with the stamp of the cycle. Each completes in a running cycle (R339, R340). Choices of the model in it: log entries 28, 29. -/
def Obligations.EscrowReleasesComplete : Prop :=
  ∀ (s : State) (t : TileNo), s.running = true →
    let now := s.fab.scc
    let driven (d : Line) : Word := { data := d, stamp := now.setWidth 3, set := s.setInForce t.toNat }
    (∀ (x : Tile) (e : Scc) (k : Nat) (h : Scc × Posted), x.esc.committed = true → x.esc.resolvedAt = some e →
      x.esc.held[k]? = some h →
      (x.planReleases (e + 4)).esc.held = []
      ∧ (e + 5 + BitVec.ofNat 48 k, h.2) ∈ (x.planReleases (e + 4)).esc.releasing)
    ∧ ((s.swapTile t.toNat).tile t.toNat).esc.redirects = [] ∧ ((s.swapTile t.toNat).tile t.toNat).esc.reserved = []
    ∧ (∀ home line, (s.tile t.toNat).esc.redirects = [(home, line)] →
      Mem.line (s.swapTile t.toNat).mem (padAddr t.toNat (64 * home)) = Mem.line s.mem (padAddr t.toNat (64 * line)))
    ∧ (∀ (f : BitVec 4) (row : BitVec 3) (g : BitVec 4), fieldIn s.grade f.toNat = true → row.toNat < 6 →
      Runs (.escrowSwap f row g) s
        ((s.groupTiles (linear f.toNat row.toNat 0) g).foldl (fun s t =>
          if (s.tile t).esc.group = g && (s.tile t).esc.committed && (s.tile t).esc.resolvedAt = some (s.fab.scc - 4) then
            s.swapTile t else s) s))
    ∧ (∀ r, ((s.tile t.toNat).esc.releasing.find? fun r => r.1 = now) = some r →
      Runs (.heldOperationRelease t) s ((s.modTile t.toNat fun x => { x with
        esc := { x.esc with releasing := x.esc.releasing.erase r } }).releaseOp t.toNat r.2))
    ∧ (∀ (track : BitVec 6) r, ((s.tile t.toNat).esc.relEast.find? fun r => r.1 = now && r.2.1 = track) = some r →
      Runs (.capturedWordRelease t false track) s (s.modTile t.toNat fun x => { x with
        esc := { x.esc with relEast := x.esc.relEast.erase r }
        drives := x.drives ++ [(trackKey false track, driven r.2.2)] }))
    ∧ (∀ (track : BitVec 6) r, ((s.tile t.toNat).esc.relWest.find? fun r => r.1 = now && r.2.1 = track) = some r →
      Runs (.capturedWordRelease t true track) s (s.modTile t.toNat fun x => { x with
        esc := { x.esc with relWest := x.esc.relWest.erase r }
        drives := x.drives ++ [(trackKey true track, driven r.2.2)] }))


/-! ## Clocks and holds -/

/-- The fabric stops before the cycle that a hold names; it restarts once every cause lets it, with no debt left in any
island; a hold longer than HOLD_LIMIT halts the first tile that waits; a step change completes 2 µs after the stop; its step is
then in force, or with a program armed from the restart of the hold on (R44, R45, R48, R78, R82, R441). Choices of the model in it: log entries 52, 57, 58, 104. -/
def Obligations.HoldsStopAndRestart : Prop :=
  ∀ s : State,
    let h := s.fab.hold
    (h.held = false → h.stopAt = some s.fab.scc →
      let at_ := s.clk.clk + s.period * s.maxDebt / 64
      let s' : State := { s with fab := { s.fab with hold := { h with
        held := true, stoppedAt := at_, stepAt := if h.step then at_ else h.stepAt, measured := 0, timedOut := false } } }
      (h.halt = false → Runs .holdStop s s') ∧ (h.halt = true → Runs .holdStop s s'.stopRun))
    ∧ (s.mayRestart = true →
      let s' := { s with
        fab := { s.fab with hold := { limit := h.limit } }
        clk := { s.clk with islands := s.clk.islands.map fun (x : Nat × Island) =>
          (x.1, { x.2 with debt := 0, slipAsked := false }) } }.applyStep
      (s.begun = false → Runs .holdRestart s s') ∧ (s.begun = true → Runs .holdRestart s s'.beginCycle))
    ∧ (∀ w, h.held = true → h.timedOut = false → h.limit ≠ 0 → h.unmet = true →
      h.limit.toNat * usUnits ≤ h.measured → firstWait (h.waits.filter fun w => w.metAt.isNone) = some w →
      Runs .holdTimeout s ({ s with fab := { s.fab with hold := { h with timedOut := true } } }.requestHalt
        w.tile.toNat (tileSource w.tile.toNat 4 w.wait.iaddr) s.fab.scc 0x13 0 (w.wait.kind.setWidth 32)))
    ∧ (h.held = true → h.step = true → h.stepAt + 2 * usUnits ≤ s.clk.clk →
      let n := s.clk.target.getD s.clk.step
      let z := { s with fab := { s.fab with hold := { h with step := false } } }
      (s.stew.program.armed = false → Runs .relockComplete s (z.relock n).answerSteps)
      ∧ (s.stew.program.armed = true →
        Runs .relockComplete s { z with clk := { z.clk with target := none, relocked := some n } }))
    ∧ (∀ n, (s.relock n).clk.step = n ∧ (s.relock n).clk.target = none ∧ (s.relock n).clk.relocked = none
      ∧ (s.relock n).mem = s.mem ∧ (s.relock n).fab.hold = s.fab.hold
      ∧ (s.clk.relocked = some n → s.applyStep = s.relock n))
    ∧ (s.clk.relocked = none → s.applyStep = s)

/-- A stretch adds to its island's debt, which asks for a slip above 96/64 of a period and ends the program above 128/64;
a lost reference is noted in its island and does what its domain says; a margin is measured while no program runs, and
its result is valid after 10 µs (R42–R46, R58–R63). Choices of the model in it: log entry 57. -/
def Obligations.ClocksStretchAndFail : Prop :=
  ∀ (s : State) (d : BitVec 7),
    (∀ u : BitVec 6, islandIn s.grade d.toNat = true → s.fab.hold.held = false → s.power.trip = false → u.toNat ≤ 32 →
      s.power.pgood = true →
      ∃ s1 s2 : State, Runs (.stretch d u) s s2 ∧ s1.clk.islands = (s.modIsland d.toNat fun x =>
          { x with debt := x.debt + u.toNat }).clk.islands ∧ s1.mem = s.mem
        ∧ ((s.island d.toNat).debt + u.toNat ≤ 96 → s2 = s1)
        ∧ (96 < (s.island d.toNat).debt + u.toNat → (s.island d.toNat).debt + u.toNat ≤ 128 →
            s2 = s1.requestSlip d.toNat)
        ∧ (128 < (s.island d.toNat).debt + u.toNat →
            s2 = (s1.modIsland d.toNat fun x => { x with guardFault := true }).refLost d.toNat true))
    ∧ (domainIn s.grade d.toNat = true → (s.island d.toNat).lost = false →
      (islandIn s.grade d.toNat = true →
        Runs (.referenceLoss d) s ((s.modIsland d.toNat fun x =>
          { x with lost := true, refLoss := true, locked := false }).lossIn d.toNat))
      ∧ (islandIn s.grade d.toNat = false →
        Runs (.referenceLoss d) s ((s.modIsland d.toNat fun x => { x with lost := true }).lossIn d.toNat)))
    ∧ (∀ w, s.reaches w = true → islandIn s.grade d.toNat = true → s.anyRun = false →
      Runs (.measure w d) s (s.modIsland d.toNat fun x => { x with measuring := some s.clk.clk }))
    ∧ (∀ (m : BitVec 6) (at_ : Nat), (s.island d.toNat).measuring = some at_ → at_ + 10 * usUnits ≤ s.clk.clk →
      Runs (.measureComplete d m) s (s.setIsland d.toNat
        { s.island d.toNat with margin := m, marginValid := true, measuring := none }))

/-- The beacon that is due goes to every consumer that does not miss it: a full one, every 2^20 ns, gives it a valid value,
a short one rebuilds a valid value, each within 4 ns of the time counter; a consumer without a beacon for 2^31 ns loses its
value; TIME_STEP adds its offset to the time, but is refused a negative offset
once the ledger has a record; a PTP event message is timestamped, less the PHY latency of its port's mode; the timestamp of a received one goes to the steward,
and that of a sent one joins its port's queue or, in a one-step Pdelay_Resp, goes into the message
(R51–R57, R397). -/
def Clause.TimeIsDistributed : Prop :=
  ∀ s : State,
    (∀ missed : List (BitVec 7), s.beaconDue = true → ∃ s' : State, Runs (.beacon s.beaconFull missed) s s'
      ∧ s'.clk.beacons = s.clk.clk / (64 * nsUnits) ∧ s'.clk.time = s.clk.time ∧ s'.mem = s.mem ∧ s'.fab = s.fab
      ∧ s'.house = s.house
      ∧ ∀ d : BitVec 7, isConsumer s.grade d.toNat = true →
        let c : Consumer := Sparse.get {} s.clk.consumers d.toNat
        let c' : Consumer := Sparse.get {} s'.clk.consumers d.toNat
        (d ∈ missed → c' = c)
        ∧ (d ∉ missed → ∃ e : Int, -4 ≤ e ∧ e ≤ 4 ∧
          let t := s.now + BitVec.ofInt 64 e
          (s.beaconFull = true → c' = { value := t, valid := true, lastBeacon := s.clk.clk })
          ∧ (s.beaconFull = false → c.valid = true →
            c' = { c with value := rebuild c.value (t.setWidth 32), lastBeacon := s.clk.clk })
          ∧ (s.beaconFull = false → c.valid = false → c' = c)))
    ∧ (∀ d : BitVec 7, (Sparse.get ({} : Consumer) s.clk.consumers d.toNat).valid = true →
      (Sparse.get ({} : Consumer) s.clk.consumers d.toNat).lastBeacon + 2 ^ 31 * nsUnits ≤ s.clk.clk →
      let c := { Sparse.get ({} : Consumer) s.clk.consumers d.toNat with valid := false }
      Runs (.beaconTimeout d) s
        { s with clk := { s.clk with consumers := Sparse.set {} s.clk.consumers d.toNat c } })
    ∧ (∀ w (o : BitVec 64), s.reaches w = true →
      ((s.clk.monotonic && o.msb) = false → Runs (.timeStep w o) s
        { s with clk := { s.clk with time := s.clk.time + (o.setWidth 96 <<< 32), valid := true } })
      ∧ ((s.clk.monotonic && o.msb) = true → Runs (.timeStep w o) s
        { s with clk := { s.clk with stepRefused := true } }))
    ∧ (∀ port sub kind (oneStep locked : Bool), s.subIn port sub = true → (s.subPort port sub).up = true →
      let c : Consumer := Sparse.get {} s.clk.consumers (90 + port.toNat)
      let q := Sparse.get [] s.house.ptpQueue port.toNat
      let lock (s : State) : State := { s with clk := { s.clk with ptpLocked := locked, valid := s.clk.valid || locked } }
      let stamp := c.value - (Sparse.get 0 s.house.phy (portMode (s.subPort port 0).cfg)).setWidth 64
      c.valid = true →
      Runs (.ptpEventMessage port sub kind false oneStep locked) s (lock (s.emit (.ptp port sub kind stamp)))
      ∧ (oneStep = true → Runs (.ptpEventMessage port sub .pdelayResp true oneStep locked) s
        (lock (s.emit (.ptpOneStep port sub stamp))))
      ∧ ((oneStep = false ∨ kind ≠ .pdelayResp) → q.length < 64 →
        Runs (.ptpEventMessage port sub kind true oneStep locked) s (lock { s with house := { s.house with
          ptpQueue := Sparse.set [] s.house.ptpQueue port.toNat (q ++ [stamp]) } })))

/-! ## Tills -/

/-- A till operation changes its till by its value in signed arithmetic, a result outside 32 signed bits leaves the till
and halts with TILL_OVF, and an operation on a return till returns coins; a posted TADD or TSUB does so once it has left
its bundle, and a JTAG write sets a till that is not a return till (R297–R299, R317). -/
def Clause.TillsCount : Prop :=
  ∀ s : State,
    (∀ (n : BitVec 15) (v : BitVec 32) (sub : Bool), s.returnTill n = none →
      let new := if sub then (s.till n.toNat).toInt - v.toInt else (s.till n.toNat).toInt + v.toInt
      (-(2 ^ 31) ≤ new → new < 2 ^ 31 →
        s.applyTill n v sub = (s.setTill n.toNat (BitVec.ofInt 32 new), false)
        ∧ ((s.setTill n.toNat (BitVec.ofInt 32 new)).till n.toNat).toInt = new)
      ∧ ((new < -(2 ^ 31) ∨ 2 ^ 31 ≤ new) → s.applyTill n v sub
        = (s.unitHalt 4 (n.toNat / 8192) 9 0 (BitVec.ofNat 32 (n.toNat + sub.toNat * 32768)), true)))
    ∧ (∀ (t : TileNo) (die : BitVec 2) c n v sub rest, (s.tile t.toNat).petty.tillOut = (c, .till n v sub) :: rest →
      blockOf n = die → s.posted c = true →
      Runs (.tillOperationApply (.tile t) die) s
        ((s.modTile t.toNat fun x => { x with petty := { x.petty with
          tillOut := dropFirst (fun o => o.2.tillAt die) x.petty.tillOut } }).applyTill n v sub).1)
    ∧ (∀ (src : TillSource) (die : BitVec 2) (o : TillOp) rest, (∀ t, src ≠ .tile t) →
      s.fab.tillQueue = (src, o) :: rest → blockOf o.till = die →
      Runs (.tillOperationApply src die) s
        ({ s with fab := { s.fab with tillQueue := rest } }.applyTill o.till o.value false).1)
    ∧ (∀ (n : BitVec 15) (v : BitVec 32), s.reaches .jtag = true → s.returnTill n = none →
      Runs (.tillWriteJtag n v) s (s.setByHand n v 0 0x4000))

/-- The message at the next position of a ring, or behind the skip marker that stands there, raises the ring's arrival till, or
goes to the counting house where the ring end is an outbox, and nothing happens before it has landed; a signal raises its till once its transfer is written and every earlier one of its channel is complete (R298, R316, R323, R332, R407). -/
def Clause.ArrivalsApply : Prop :=
  ∀ s : State,
    (∀ (die : BitVec 2) (index : BitVec 10) (c : BitVec 24),
      let r := s.ringEnd die.toNat index.toNat
      let at_ (p : BitVec 24) := r.landed.find? fun l => l.1 = p
      let after (p n : BitVec 24) : BitVec 24 := BitVec.ofNat 24 ((p.toNat + n.toNat) % rendCoins r.entry)
      let applies (p : BitVec 24) (gone : List (BitVec 24)) : Prop :=
        let rest := r.landed.filter fun l => l.1 != p && !gone.contains l.1
        (s.outboxEnd die.toNat index.toNat = false → Runs (.atillApply die index) s
          (let z := (s.setRingEnd die.toNat index.toNat { r with nextPos := after p c, landed := rest }).applyTill
            (rendAtill r.entry) 1 false
          if z.2 then z.1 else
            let e := z.1.ringEnd die.toNat index.toNat
            z.1.setRingEnd die.toNat index.toNat { e with arrived := e.arrived + 1 }))
        ∧ (s.outboxEnd die.toNat index.toNat = true →
          let s' := s.setRingEnd die.toNat index.toNat { r with nextPos := after p c, landed := rest }
          Runs (.atillApply die index) s { s' with house := { s'.house with
            arrivals := s'.house.arrivals ++ [{ die := die, index := index, pos := p, coins := c }] } })
      rendCoins r.entry ≠ 0 → r.nextPos ∉ r.refused →
      (at_ r.nextPos = some (r.nextPos, c, false) → applies r.nextPos [])
      ∧ (∀ skip, at_ r.nextPos = some (r.nextPos, skip, true) → at_ (after r.nextPos skip) = some (after r.nextPos skip, c, false) →
        after r.nextPos skip ∉ r.refused → applies (after r.nextPos skip) [r.nextPos])
      ∧ ((at_ r.nextPos).isNone = true → Runs (.atillApply die index) s s))
    ∧ (∀ (t : TileNo) (n : BitVec 32) (p : Petty) till v, s.pettyOf t.toNat n = some p → p.sig = some (till, v) →
      p.put = true → p.phase = 1 → p.chan.toNat = localChan → p.left = 0 → p.err = none →
      Runs (.signalApply (.petty t n)) s
        ((s.modPetty t.toNat n fun q => { q with sig := none }).applyTill till v false).1)
    ∧ (∀ (src : BitVec 12) (chan : BitVec 14) (tid : BitVec 32) (p : Partial) till v n,
      let w : Flow := { src := src, chan := chan, member := 0, tid := tid }
      s.partOf w = some p → p.sig = some (till, v) → p.total = some n → n ≤ p.got → p.waits = 0 → p.refused = none →
      tid = (s.recv w.key).oldest →
      Runs (.signalApply (.received src chan tid)) s
        (if (s.applyTill till v false).2 then (s.applyTill till v false).1.refuseFlow w 3 0
          else (s.applyTill till v false).1.acknowledge w))

/-- Till blocks apply operations, and arrivals apply theirs. Choices of the model in it: log entry 55. -/
def Obligations.TillsAndArrivalsComplete : Prop := Clause.TillsCount ∧ Clause.ArrivalsApply

/-! ## Fetch engines and petty transfers -/

/-- A FARM that reaches an idle descriptor activates its arm, and its shadow when the descriptor is active; a permitted
block sets out under a tag while fewer than 768 are out; a shadow takes the place of an arm that is complete; a block
that is home returns its tag (R243, R244, R247). Choices of the model in it: log entries 22, 85, 121. -/
def Obligations.FetchBlocksGoHome : Prop :=
  ∀ s : State,
    (∀ (t : TileNo) c (d : BitVec 8) spec rest, (s.tile t.toNat).petty.farmOut = (c, .farm d spec) :: rest →
      s.posted c = true →
      Runs (.farmArrival t) s ((s.modTile t.toNat fun y => { y with petty := { y.petty with
        farmOut := y.petty.farmOut.drop 1 } }).farmReaches (tileField t.toNat) d.toNat t.toNat c spec))
    ∧ (∀ (f : BitVec 4) (n : BitVec 8),
      let x := s.desc f.toNat n.toNat
      (fieldIn s.grade f.toNat = true → s.permitted x = true →
        (768 ≤ (s.field f.toNat).tagsOut → Runs (.blockIssue f n) s
          (s.setDesc f.toNat n.toNat { x with waitingSince := some (x.waitingSince.getD s.clk.clk) }))
        ∧ ((s.field f.toNat).tagsOut < 768 → s.olderWaiter f.toNat n.toNat = false → x.spec = none →
          let s' := (s.setDesc f.toNat n.toNat { x with
            next := x.next + 1, waitingSince := none
            out := x.out ++ [{ index := x.next, left := 0, words := [], spec := false, done := false }] }).count
              (.fetch f) 0x40 0 1
          (descChan x.copy = localChan → Runs (.blockIssue f n) s
            (s'.issueLocal f.toNat n.toNat x.next (x.daddr x.next.toNat) (64 * descBlk x.copy)))
          ∧ (descChan x.copy ≠ localChan → Runs (.blockIssue f n) s
            (s'.issueRemote f.toNat n.toNat (descChan x.copy) x.next (x.daddr x.next.toNat) (64 * descBlk x.copy)))))
      ∧ (x.st = 2 → s.armComplete x = true → Runs (.shadowActivation f n) s
        ((s.setDesc f.toNat n.toNat { x.activate x.shadow (x.arms + 1) (x.r0 + BitVec.ofNat 32 (descCount x.copy)) with
          farmer := x.shadowFarmer, shadowFarmer := none }).count (.fetch (BitVec.ofNat 4 f.toNat)) 0x45 0 1))
      ∧ (∀ i, x.burned.contains i = true → s.burning f.toNat n.toNat i = false → Runs (.tagHome f n i) s
        ((s.setDesc f.toNat n.toNat { x with burned := x.burned.erase i }).count (.fetch f) 0x44 0 1))
      ∧ (∀ i b, x.burned.contains i = false → (x.out.find? fun b => b.index = i && !b.done) = some b → b.left = 0 →
        (descKind x.copy = 1 → Runs (.tagHome f n i) s (s.blockHome f.toNat n.toNat i))
        ∧ (descKind x.copy = 2 → i = x.home → Runs (.tagHome f n i) s (s.fillFq f.toNat n.toNat b))
        ∧ (∀ k d, descKind x.copy = 3 → place s.grade true (x.daddr i.toNat).toNat = .dram k d →
          Runs (.tagHome f n i) s ((s.dramWrite k d ((List.range (descBlk x.copy)).flatMap fun j =>
            bytesOf (Sparse.get 0 b.words j).toNat 64)).blockHome f.toNat n.toNat i))))

/-- The reply of a PGET on the local channel enters PQ behind the replies before it, one that was burned is dropped, and
a PPUT whose write and signal are done is no longer outstanding, as is one refused at a fallow bank; any other error halts the
tile: a hole, an absent unit or link, an uncorrectable codeword, a fallow bank at a PGET (R32, R154–R156, R167, R224, R237). Choices of the model in it: log entries 22, 122, 123, 124. -/
def Obligations.PettyTransfersComplete : Prop :=
  ∀ (s : State) (t : TileNo) (n : BitVec 32) (p : Petty), s.pettyOf t.toNat n = some p →
    (p.put = false → p.phase = 1 →
      (p.burn = true → p.left = 0 → Runs (.pgetReply t n) s (s.pettyDone t.toNat n true))
      ∧ (p.burn = false → p.err = none → p.left = 0 →
        (p.chan.toNat ≠ localChan → Runs (.pgetReply t n) s (s.getReplied t.toNat n p.lineBytes))
        ∧ (∀ u o, p.chan.toNat = localChan → place s.grade true p.addr.toNat = .pad u o →
          Runs (.pgetReply t n) s (s.getReplied t.toNat n p.lineBytes))
        ∧ (∀ k b s' bs, p.chan.toNat = localChan → place s.grade true p.addr.toNat = .dram k b →
          s.dramRead k b p.len.toNat = (s', some bs) → Runs (.pgetReply t n) s (s'.getReplied t.toNat n bs)))
      ∧ (∀ e, p.burn = false → p.err = some e → Runs (.pgetReply t n) s
        ((s.pettyDone t.toNat n false).tileHalt t.toNat s.fab.scc p.iaddr (s.pettyFailure e))))
    ∧ (p.put = true → p.phase = 1 →
      (p.err = none → p.left = 0 → p.sig = none → Runs (.pputAck t n) s (s.pettyDone t.toNat n false))
      ∧ (∀ e, p.err = some e →
        (e.1 = 2 → Runs (.pputAck t n) s (s.pettyDone t.toNat n false))
        ∧ (e.1 ≠ 2 → Runs (.pputAck t n) s
          ((s.pettyDone t.toNat n false).tileHalt t.toNat s.fab.scc p.iaddr (s.pettyFailure e)))))

/-! ## Stacks and scratchpads -/

/-- The oldest request for a free bank port is granted and claims its port cycles: a full-line write lands, a partial write
waits for its second half, and a read gives its line; a fallow bank refuses it. A scrub asks for its line as the last agent,
rewrites one that it corrected and leaves every other; a DRAM scrub rewrites a correctable codeword and records an
uncorrectable one (R225, R229, R230, R237, R265). -/
def Clause.BanksServeRequests : Prop :=
  ∀ s : State,
    (∀ (t : TileNo) (bank : BitVec 4) (write : Bool) (r : URequest),
      let x := s.tile t.toNat
      let now := s.fab.scc
      let beat := s.fab.beat
      let rest := x.pad.ureqs.filter fun q => q != r
      let partly : Bool := match r.data with | some (_, m) => m != maskFull | none => false
      oldest bank.toNat write x.pad.ureqs = some r →
      (x.bankRefuses (s.masksOf t.toNat) now bank.toNat = true → Runs (.unscheduledAccessGrant t bank write) s
        ((s.modTile t.toNat fun y => { y with pad := { y.pad with
          ureqs := rest, late := y.pad.late || r.data.isSome } }).accessRefused t.toNat r))
      ∧ (x.bankRefuses (s.masksOf t.toNat) now bank.toNat = false → x.grants s.running now beat bank.toNat r = true →
        let z := (s.modTile t.toNat fun y => { y with pad := { y.pad with
          ureqs := rest
          claims := (y.pad.claims.filter fun c => beat ≤ c.1)
            ++ (claimsOf r.data.isSome partly).map fun c => (beat + c.1, bank, c.2)
          landing := if partly then y.pad.landing ++ [(beat + 1, r)] else y.pad.landing } }).count
          (.field (BitVec.ofNat 4 (tileField t.toNat))) 0x21 0 1
        (partly = true → Runs (.unscheduledAccessGrant t bank write) s z)
        ∧ (partly = false → r.data.isSome = true →
          Runs (.unscheduledAccessGrant t bank write) s ((z.landUnscheduled t.toNat r).accessWritten r))
        ∧ (r.data = none → Runs (.unscheduledAccessGrant t bank write) s (z.grantedRead t.toNat r))))
    ∧ (∀ (t : TileNo) (line : BitVec 15), tileIn s.grade t.toNat = true → line.toNat < 20480 →
      (s.tile t.toNat).pad.fallow.getLsbD (line.toNat % 16) = false →
      (s.tile t.toNat).pad.waking.getLsbD (line.toNat % 16) = false →
      Runs (.scrub t line) s (s.enqueueAccess t.toNat 5 line.toNat none none false .scrub))
    ∧ (∀ (t : TileNo) (r : URequest),
      let n := r.line.toNat
      let a := padAddr t.toNat (64 * n)
      let fixed := s.modTile t.toNat fun y => y.count 0x08 (s.eccCorrectable a 64)
      (s.eccOf a 64 ≠ 2 → s.eccCorrectable a 64 = 0 → s.grantedRead t.toNat r = s.lineRead t.toNat r (s.padLine t.toNat n))
      ∧ (s.eccOf a 64 = 2 → s.eccCorrectable a 64 = 0 → s.grantedRead t.toNat r = s.lineBad t.toNat r)
      ∧ (s.eccCorrectable a 64 = 0 → s.scrubbed t.toNat n = s)
      ∧ (s.eccCorrectable a 64 ≠ 0 → s.eccOf a 64 = 2 → s.scrubbed t.toNat n = fixed)
      ∧ (s.eccCorrectable a 64 ≠ 0 → s.eccOf a 64 ≠ 2 →
        s.scrubbed t.toNat n = fixed.enqueueAccess t.toNat 5 n (some (0, 0)) none false .scrub))
    ∧ (∀ (k : BitVec 4) (offset : BitVec 36), stackIn s.grade k.toNat = true →
      let c := (k.toNat * 0x1000000000 + offset.toNat) / 16
      (Sparse.get 0 s.ecc c = 1 → Runs (.dramScrub k offset) s
        (({ s with ecc := Sparse.erase c s.ecc }.count (.stack k) 0x51 0 1).modStack k.toNat fun x => x.correct 1))
      ∧ (Sparse.get 0 s.ecc c = 2 → Runs (.dramScrub k offset) s
        (s.modStack k.toNat fun x => { x with ueSeen := true, ueAddr := BitVec.ofNat 36 (c * 16 % 2 ^ 36) }))
      ∧ (Sparse.get 0 s.ecc c = 0 → Runs (.dramScrub k offset) s s))

/-- A refresh is counted when its interval is over and the stack is not in self-refresh; above 85 °C a stack refreshes at
the shorter interval, until 10 ms at or below 82 °C have passed (R266, R292). -/
def Clause.StacksRefresh : Prop :=
  ∀ (s : State) (k : BitVec 4), stackIn s.grade k.toNat = true →
    let x := s.stack k.toNat
    (∀ pc : BitVec 5, x.selfRefresh = false → Sparse.get 0 x.refreshAt pc.toNat + x.interval ≤ s.clk.clk →
      Runs (.refresh k pc) s
        ((s.setStack k.toNat { x with refreshAt := Sparse.set 0 x.refreshAt pc.toNat s.clk.clk }).count (.stack k) 0x50 0 1))
    ∧ (∀ temp : BitVec 8, Runs (.tempSample k temp) s (s.modStack k.toNat fun x => { x with
        temp := temp
        hot := x.hot || 85 < temp.toNat
        hotSeen := x.hotSeen || (x.hot || 85 < temp.toNat)
        coolSince := if 82 < temp.toNat then none else some (x.coolSince.getD s.clk.clk) }))
    ∧ (∀ c, x.coolSince = some c → x.hot = true → c + 10000 * usUnits ≤ s.clk.clk →
      Runs (.hotClear k) s (s.setStack k.toNat { x with hot := false }))

/-- The commands of the memory stacks complete: bank requests and their grants, and refresh. Choices of the model in it: log entries 19, 105. -/
def Obligations.MemoryStacksComplete : Prop := Clause.BanksServeRequests ∧ Clause.StacksRefresh

/-! ## The gleaner arrays -/

/-- The head of the intake becomes active while fewer than 32 posts are; an item starts within its post's window with its
number in X0 and the post's parameters in X1 to X6; the words of a post enter its FQ end in order as far as it has room,
and with the last of them the post is no longer outstanding (R151, R152, R271, R274, R276, R286). Choices of the model in it: log entry 20. -/
def Obligations.PostsRun : Prop :=
  ∀ (s : State) (k : BitVec 4),
    (∀ p rest, (s.stack k.toNat).intake = p :: rest → (s.stack k.toNat).active.length < 32 →
      Runs (.postActivate k) s (s.setStack k.toNat { s.stack k.toNat with
        intake := rest, active := (s.stack k.toNat).active ++ [{ p with active := true }] }))
    ∧ (∀ (n : BitVec 32) (p : Post), s.postOf k.toNat n = some p → p.cancelled = false → p.faulted = false →
      (p.nextItem < postItems p.line → p.nextItem < p.released + p.window →
        Runs (.itemStart k n) s (s.modPost k.toNat n fun q => { q with
          nextItem := q.nextItem + 1, threads := Sparse.put q.nextItem (Thread.start p.line q.nextItem) q.threads }))
      ∧ (s.postFirst k.toNat p = true →
        let room := 64 - ((s.tile p.tile.toNat).end64 p.qe).length
        let c := min (min room p.words.length) (p.total - 1 - p.delivered)
        Runs (.postResultDelivery k n) s ((s.pushFq k.toNat p (p.words.take c)).modPost k.toNat n fun q => { q with
          words := q.words.drop c, delivered := q.delivered + c }))
      ∧ (postItems p.line ≤ p.released → p.delivered + p.words.length = p.total →
        (p.words = [] → Runs (.postComplete k n) s ((s.postDone k.toNat p).count (.stack k) 0x57 0 1))
        ∧ (∀ w, p.words = [w] → s.postFirst k.toNat p = true → ((s.tile p.tile.toNat).end64 p.qe).length < 64 →
          Runs (.postComplete k n) s
            (((s.pushFq k.toNat p [w]).postDone k.toNat p).count (.stack k) 0x57 0 1))))
    ∧ (∀ (line : Line) (i : Nat), (Thread.start line i).pc = postEntry line
      ∧ (Thread.start line i).xreg 0 = BitVec.ofNat 64 i
      ∧ (∀ r : BitVec 4, 1 ≤ r.toNat → r.toNat ≤ 6 → (Thread.start line i).xreg r = postParam line (r.toNat - 1))
      ∧ (∀ r : BitVec 4, 7 ≤ r.toNat → (Thread.start line i).xreg r = 0))

/-- The script instructions on registers write X_D, the branches the PC, and END ends the item (R278, R281, R283). -/
def Obligations.ScriptRegisterOperationsComplete : Prop :=
  ∀ (s : State) (k : BitVec 4) (n : BitVec 32) (i : BitVec 20) (o : ScriptOp) (p : Post) (t : Thread),
    let u := { t with pc := t.pc + 1, count := t.count + 1 }
    let a := t.xreg o.a
    let b := t.xreg o.b
    let v : BitVec 64 := o.imm.signExtend 64
    let runs (c : Instr) (need : Needs) (t' : Thread) : Prop :=
      ScriptOpen s k n i o need p t → Runs c s (s.afterScript k n i t')
    let writes (c : Instr) (xs : List (BitVec 4)) (x : BitVec 64) : Prop := runs c { xs := xs } (u.setX o.d x)
    let branches (c : Instr) (xs : List (BitVec 4)) (taken : Bool) : Prop :=
      runs c { xs := xs } (if taken then { u with pc := o.imm.toNat % 1024 } else u)
    runs (.scriptNop k n i o) {} u
    ∧ writes (.scriptLi k n i o) [o.d] v
    ∧ writes (.scriptLih k n i o) [o.d] (o.imm ++ (t.xreg o.d).extractLsb' 0 32)
    ∧ writes (.scriptAdd k n i o) [o.d, o.a, o.b] (a + b + v)
    ∧ writes (.scriptSub k n i o) [o.d, o.a, o.b] (a - b)
    ∧ writes (.scriptMuli k n i o) [o.d, o.a] (a * o.imm.setWidth 64)
    ∧ writes (.scriptAnd k n i o) [o.d, o.a, o.b] (a &&& b)
    ∧ writes (.scriptShl k n i o) [o.d, o.a] (a <<< (o.imm.toNat % 64))
    ∧ writes (.scriptShr k n i o) [o.d, o.a] (a >>> (o.imm.toNat % 64))
    ∧ (b ≠ 0 → writes (.scriptModu k n i o) [o.d, o.a, o.b] (a % b))
    ∧ writes (.scriptHash k n i o) [o.d, o.a, o.b] (ekh64 a b)
    ∧ branches (.scriptBeq k n i o) [o.a, o.b] (a = b)
    ∧ branches (.scriptBne k n i o) [o.a, o.b] (a ≠ b)
    ∧ branches (.scriptBltu k n i o) [o.a, o.b] (a.toNat < b.toNat)
    ∧ branches (.scriptJmp k n i o) [] true
    ∧ runs (.scriptEnd k n i o) {} { u with ended := true }
    ∧ runs (.scriptXw k n i o) { xs := [o.d, o.b], ws := [o.w] }
        (u.setX o.d ((t.slot o.w).extractLsb' (64 * ((b.toNat + o.imm.toNat) % 64)) 64))
    ∧ (1 ≤ o.imm.toNat → o.imm.toNat ≤ 64 → runs (.scriptNsamp k n i o) { xs := [o.a, o.b], ws := [o.w] }
        (u.setSlot o.w (vecOf64 fun j => (samplePositions a.toNat o.imm.toNat b).getD j (2 ^ 64 - 1))))

/-- The script instructions on rows and the bag: SETROW sets the row form, BCLR clears the bag, BADD, BMAX and BDIV
compute on its lanes, and the emits write result bytes (R278, R284). -/
def Obligations.ScriptRowOperationsComplete : Prop :=
  ∀ (s : State) (k : BitVec 4) (n : BitVec 32) (i : BitVec 20) (o : ScriptOp) (p : Post) (t : Thread),
    let u := { t with pc := t.pc + 1, count := t.count + 1 }
    let a := t.xreg o.a
    let elems := postElems p.line
    let wide := ofmtBytes (postOfmt p.line)
    let runs (c : Instr) (need : Needs) (t' : Thread) : Prop :=
      ScriptOpen s k n i o need p t → Runs c s (s.afterScript k n i t')
    let joined (f : Nat → Nat → Nat) (w : Nat) : Thread := { u with
      ba := vecOf32 fun e =>
        if e < elems then f (lane32 t.ba e) (rowElem (t.slot o.w) w t.rowfmt e) else lane32 t.ba e }
    (∀ (len : BitVec 16) (fmt : BitVec 4), o.imm = (0 : BitVec 12) ++ fmt ++ len → len.toNat % 64 = 0 →
      64 ≤ len.toNat → len.toNat ≤ 512 → (fmt = 2 ∨ fmt = 3 ∨ fmt = 5 ∨ fmt = 6 ∨ fmt = 15) →
      runs (.scriptSetrow k n i o) {} { u with rowlen := len, rowfmt := fmt })
    ∧ (o.imm = 0 → runs (.scriptBclr k n i o) {} { u with ba := 0 })
    ∧ (o.imm = 1 → runs (.scriptBclr k n i o) {} { u with ba := vecOf32 fun _ => 0xFF800000 })
    ∧ (∀ w, t.rowElems p = .ok w →
      runs (.scriptBadd k n i o) { ws := [o.w] } (joined (fun x y => (binary32.add 0 x y).1) w)
      ∧ runs (.scriptBmax k n i o) { ws := [o.w] } (joined (fun x y => (binary32.max x y).1) w))
    ∧ (a = 0 → runs (.scriptBdiv k n i o) { xs := [o.a] } u)
    ∧ (a ≠ 0 → runs (.scriptBdiv k n i o) { xs := [o.a] }
        { u with ba := vecOf32 fun e => div32 (lane32 t.ba e) (fp32OfNat a.toNat) })
    ∧ (postSegop p.line = 0 → o.imm.toNat % 256 + (elems * wide + 63) / 64 ≤ postOutw p.line →
      runs (.scriptEmitb k n i o) {} (u.emit (64 * (o.imm.toNat % 256)) (elems * wide)
        (((List.range elems).map fun e => cvtnLane (BitVec.ofNat 4 (postOfmt p.line)) 0 (lane32 t.ba e)).foldr
          (fun x acc => x % 256 ^ wide + 256 ^ wide * acc) 0)))
    ∧ (postSegop p.line ≠ 0 → o.imm.toNat % 256 = 0 → (elems * wide + 63) / 64 ≤ postOutw p.line →
      runs (.scriptEmitb k n i o) {} { u with emitted := true, bag := some t.ba })
    ∧ (postSegop p.line = 0 → o.imm.toNat % 256 + t.rowlen.toNat / 64 ≤ postOutw p.line →
      runs (.scriptEmitw k n i o) { ws := [o.w] }
        (u.emit (64 * (o.imm.toNat % 256)) t.rowlen.toNat (t.slot o.w).toNat))
    ∧ (postSegop p.line = 0 → o.imm.toNat % 512 / 8 < postOutw p.line →
      runs (.scriptEmitx k n i o) { xs := [o.a] } (u.emit (8 * (o.imm.toNat % 512)) 8 a.toNat))

/-- The script instructions that access memory put their access in flight, and a load that completes gives its register
or row slot the little-endian value of its bytes, a store writes them, a RADD writes the sums of its elements, and a PROBE
writes the row number that its walk finds, or all ones (R278, R279, R282, R285). Choices of the model in it: log entries 21, 107, 108. -/
def Obligations.ScriptAccessesComplete : Prop :=
  ∀ (s : State) (k : BitVec 4) (n : BitVec 32) (i : BitVec 20) (o : ScriptOp) (p : Post) (t : Thread) (at_ : Nat),
    let u := { t with pc := t.pc + 1, count := t.count + 1 }
    let ea := t.xreg o.a + o.imm.signExtend 64
    let len := t.rowlen.toNat
    let dir := t.xreg o.b
    let base := BitVec.ofNat 64 (dir.toNat % 2 ^ 36 / 64 * 64)
    let size := 64 * 2 ^ (dir.toNat % 32)
    let access (c : Instr) (need : Needs) (kind : AccessKind) (size : Nat) : Prop :=
      ScriptOpen s k n i o { need with access := true } p t → Runs c s (s.afterScript k n i
        { u with accesses := t.accesses ++ [{ kind := kind, addr := at_, len := size }] })
    (accessAt k.toNat ea 8 8 = .ok at_ →
      access (.scriptLd8 k n i o) { xs := [o.d, o.a] } (.ld8 o.d) 8
      ∧ (postWr p.line = true → access (.scriptSt8 k n i o) { xs := [o.a, o.b] } (.st8 (t.xreg o.b)) 8))
    ∧ (accessAt k.toNat ea len 64 = .ok at_ →
      access (.scriptLdrow k n i o) { xs := [o.a], ws := [o.w] } (.ldrow o.w t.rowlen) len
      ∧ (∀ w, postWr p.line = true → t.rowElems p = .ok w →
        access (.scriptRadd k n i o) { xs := [o.a], ws := [o.w] }
          (.radd (t.slot o.w) t.rowfmt (postElems p.line)) len))
    ∧ (o.b ≠ 15 → accessAt k.toNat base size 64 = .ok at_ →
      access (.scriptProbe k n i o) { xs := [o.d, o.a, o.b, o.b + 1] }
        (.probe o.d (t.xreg o.a) dir (t.xreg (o.b + 1))) size)
    ∧ (∀ a as, s.postOf k.toNat n = some p → Sparse.find? i.toNat p.threads = some t → t.accesses = a :: as →
      let at' := k.toNat * 0x1000000000 + a.addr
      (∀ d s' bs, a.kind = .ld8 d → s.dramRead k.toNat at' 8 = (s', some bs) →
        Runs (.scriptAccessComplete k n i false) s (s'.afterScript k n i
          { ({ t with used := t.used + 1 }.setX d (BitVec.ofNat 64 (natOf bs))) with accesses := as }))
      ∧ (∀ w m s' bs, a.kind = .ldrow w m → s.dramRead k.toNat at' m.toNat = (s', some bs) →
        Runs (.scriptAccessComplete k n i false) s (s'.afterScript k n i
          { ({ t with used := t.used + 1 }.setSlot w (BitVec.ofNat 4096 (natOf bs))) with accesses := as }))
      ∧ (∀ v, a.kind = .st8 v →
        Runs (.scriptAccessComplete k n i false) s ((s.dramWrite k.toNat at' (bytesOf v.toNat 8)).afterScript k n i
          { t with used := t.used + 1, accesses := as }))
      ∧ (∀ row fmt elems s' bs, a.kind = .radd row fmt elems → p.cancelled = false →
        s.raddWaits k.toNat p i.toNat a = false → s.dramRead k.toNat at' a.len = (s', some bs) →
        let w := ofmtBytes fmt.toNat
        Runs (.scriptAccessComplete k n i false) s
          ((s'.dramWrite k.toNat at' ((List.range elems).flatMap fun e => bytesOf (cvtnLane fmt 0
            (binary32.add 0 (rowElem (BitVec.ofNat 4096 (natOf bs)) w fmt e) (rowElem row w fmt e)).1) w)).afterScript k n i
            { t with used := t.used + 2, accesses := as }))
      ∧ (∀ d key dir salt found reads, a.kind = .probe d key dir salt →
        probeWalk (fun j => s.peek k.toNat (a.addr + 64 * j) 64) key (ekh64 key salt).toNat (dir.toNat % 32)
          (dir.toNat / 2 ^ 36 % 16) 16 0 = some (found, reads) →
        ∃ z : State, z.mem = s.mem ∧ Runs (.scriptAccessComplete k n i false) s (z.afterScript k n i
          { ({ t with used := t.used + reads, misses := t.misses + (if found.isNone then 1 else 0) }.setX d
              (match found with | some r => BitVec.ofNat 64 r | none => BitVec.allOnes 64)) with accesses := as })))

/-! ## Rings and coins -/

/-- A message leaves a ring channel at HEAD when its coins are held and fit before the end of the ring, and is spilled
behind earlier spilled messages or when they are not; it waits while 4,096 transfers are outstanding; a spilled one stands
in its units of the region and leaves when its coins are held; a coin count on which every ring has settled without a
difference releases the hold, and a difference aborts the program (R310, R314, R319, R320, R329). -/
def Clause.RingsSendMessages : Prop :=
  ∀ (s : State) (chan : BitVec 14),
    let c := chan.toNat
    let ch := s.chan c
    let spilled (z : State) (m : Message) : State :=
      let y := if (z.chan c).needsSkip (z.chan c).lastHead m.coins then (z.takeTid c).1 else z
      (y.takeTid c).1.spillMessage c m 0 (y.takeTid c).2
    (ch.full = false →
      (∀ m rest, ch.queue = m :: rest → chanKind ch.entry = 3 →
        let s' := s.setChan c { ch with queue := rest }
        ((s'.chan c).spill ≠ [] → Runs (.ringMessageSend chan) s (spilled s' m))
        ∧ ((s'.chan c).spill = [] →
          let z := s'.skipTail c m.coins none
          ((z.chan c).takes m.coins = true → Runs (.ringMessageSend chan) s (z.sendMessage c m none))
          ∧ ((z.chan c).takes m.coins = false → Runs (.ringMessageSend chan) s (spilled z m))))
      ∧ (∀ m rest, ch.queue = m :: rest → chanKind ch.entry = 4 →
        Runs (.ringMessageSend chan) s ((s.setChan c { ch with queue := rest }).placeMulticast c m))
      ∧ (∀ x rest, ch.spill = x :: rest → chanKind ch.entry = 3 → (s.physOf (chanDev ch.entry)).isSome = true →
        ch.fullFor (x.tid - 1) = false →
        let z := s.skipTail c x.coins (some (x.tid - 1))
        (z.chan c).takes x.coins = true → (z.chan c).fullFor x.tid = false →
        ∀ y m, z.unspill ch.entry x = (y, some m) → Runs (.spillDepart chan) s
          ((y.modChan c fun h => { h with
            spill := h.spill.erase x, spillu := h.spillu - BitVec.ofNat 32 x.units.length
            spillFree := h.spillFree ++ x.units }).sendMessage c m (some x.tid))))
    ∧ (ch.full = true → Runs (.ringMessageSend chan) s s)
    ∧ (4096 ≤ ch.transfers.length → ch.full = true)
    ∧ (∀ (m : Message) owed tid,
      let us := ch.freeUnits (1 + m.coins)
      (us.length = 1 + m.coins → ∃ x : Spilled,
        ((s.spillMessage c m owed tid).chan c).spill = ch.spill ++ [x]
        ∧ x.units = us ∧ x.len = m.data.length ∧ x.owed = owed ∧ x.tid = tid
        ∧ ((s.spillMessage c m owed tid).chan c).spillu = ch.spillu + BitVec.ofNat 32 (1 + m.coins))
      ∧ (us.length < 1 + m.coins → s.spillMessage c m owed tid
        = s.unitHalt 5 (((s.spillPlace ch.entry 0).map Prod.fst).getD 0) 0x0A 0 (BitVec.ofNat 32 c)))
    ∧ (s.countDue = true →
      let z := s.sendHalves
      (z.ringCounts.all RingCount.settled) = true →
      ((z.ringCounts.findSome? RingCount.wrong) = none →
        (z.heath.channels.all fun x => !(chanKind x.2.entry = 4 && !x.2.spill.isEmpty)) = true →
        Runs .coinCount s z.dropHalves.releaseCount)
      ∧ (∀ d, (z.ringCounts.findSome? RingCount.wrong) = some d →
        Runs .coinCount s (z.abort 0x83 (BitVec.ofNat 32 d))))

/-! ## Links -/

/-- A flit in sequence is accepted: its credits and its acknowledgement count, the sequence moves on, and the packets that its
bytes complete are taken; any other is dropped and a NAK is due. A flit unacknowledged for 600 ns is resent with all behind it,
in order, with the ACKSEQ of now and a NAK that is due; a link goes down after 1 µs without FEC lock or after 8 resends, and its packets take other
paths (R352–R356, R359). -/
def Clause.FlitsKeepTheirOrder : Prop :=
  ∀ (s : State) (k : BitVec 5), linkIn s.grade k.toNat = true → (s.island (linkDomain k.toNat)).lost = false →
    let n := k.toNat
    let l := s.link n
    (∀ x : Flit, l.st = 2 ∨ l.st = 3 ∨ l.st = 4 →
      let since := if x.fecLock then none else some (l.fecLostSince.getD s.clk.clk)
      let s' := s.modLink n fun y => { y with fecLostSince := since }
      let taken (z : State) (ps : List (Nat × Packet)) : State := (ps.foldl (fun z p => z.takePacket k p.1 p.2) z).readInbox
      let dropped (z : State) : State := taken (z.modLink n fun y => { y with nakDue := true }).drainOut []
      (x.ok = true → x.seq = l.rxseq →
        let rest := l.retry.filter fun f => !seqBefore f.seq x.ackseq
        let bs := l.rx ++ bytesOf x.body.toNat 248
        let got := readStream (bs.length + 1) bs
        let z := s'.modLink n fun y => { y with
          rxseq := y.rxseq + 1, retry := rest, rx := got.2
          oldestSince := if rest.length < l.retry.length then s.clk.clk else y.oldestSince
          credits := Sparse.set 0 y.credits x.cvc.toNat (min 128 (Sparse.get 0 l.credits x.cvc.toNat + x.ccnt.toNat)) }
        (x.nak = false ∨ rest = [] → Runs (.flitReceive k x) s (taken z.drainOut got.1))
        ∧ (x.nak = true → rest ≠ [] → Runs (.flitReceive k x) s (taken (z.resend n).drainOut got.1)))
      ∧ (x.ok = true → x.seq ≠ l.rxseq → Runs (.flitReceive k x) s (dropped s'))
      ∧ (x.ok = false → Runs (.flitReceive k x) s (dropped (s'.linkTally n 0x72))))
    ∧ (l.flows = true → l.retry ≠ [] → l.oldestSince + 600 * nsUnits ≤ s.clk.clk → Runs (.retryTimeout k) s (s.resend n))
    ∧ (l.st = 3 →
      (∀ fecLost, (fecLost = true → ∃ c, l.fecLostSince = some c ∧ c + usUnits ≤ s.clk.clk) →
        (fecLost = false → (l.retry.any fun f => 8 ≤ f.resends) = true) →
        Runs (.linkDown k fecLost) s ((s.linkTally n 0x75).linkFails n 4)))
    ∧ (s.resend n).egress = s.egress ++ l.retry.map (fun f =>
        .flit (BitVec.ofNat 5 n) (flitBits f.body (flitCtl f.seq l.rxseq (l.nakDue && l.retry.head? = some f) f.cvc f.ccnt)))
    ∧ ((s.resend n).link n).retry = l.retry.map (fun f => { f with resends := f.resends + 1 })

/-- Ring ends send their messages, and links carry flits in order. Choices of the model in it: log entries 30, 31, 36, 96, 129, 131. -/
def Obligations.RingsAndLinksCarryFlits : Prop := Clause.RingsSendMessages ∧ Clause.FlitsKeepTheirOrder

/-- What a flit carries is what was put into it: its CRC holds and its fields read back; and a packet read from the bytes of a
packet is that packet, with every operand that its header and its extension hold, whatever follows it (R352, R360, R362). -/
def Obligations.PacketsReadBack : Prop :=
  (∀ (body : BitVec 1984) (seq ack : BitVec 12) (nak : Bool) (cvc : BitVec 3) (ccnt : BitVec 4) (lock : Bool),
    let x : Flit := { bits := flitBits body (flitCtl seq ack nak cvc ccnt), fecOk := true, fecLock := lock }
    x.ok = true ∧ x.body = body ∧ x.seq = seq ∧ x.ackseq = ack ∧ x.nak = nak ∧ x.cvc = cvc ∧ x.ccnt = ccnt)
  ∧ (∀ (ty : PacketType) (p : Packet) (rest : List Byte), p.data.length ≤ 256 → p.vc = packetVc ty p →
    (ty ≠ .mcast → p.mask = 0) → p.coins.length = (maskMembers p.mask).length →
    (∀ c ∈ p.coins, c.toNat < 2 ^ 24) →
    readPacket (packetBytes ty p ++ rest) = some (typeCode ty, { p with gen := none }, rest))

/-- ENABLE 1 lets a link train and ENABLE 0 takes it down; LRESET resets it once every comparison of its retry buffer is
answered; training sends the link's nonce to the peer, or gives up after 10 ms; a link that is up takes part in heartbeats
(R351, R357, R378, R462, R480). Choices of the model in it: log entries 31, 57. -/
def Obligations.LinksTrainAndReset : Prop :=
  ∀ (s : State) (k : BitVec 5), linkIn s.grade k.toNat = true →
    let n := k.toNat
    let l := s.link n
    (∀ w, s.reaches w = true →
      let off (z : State) : State := (z.modLink n fun y => { y with enable := false, st := 1 }).drainOut
      (l.enable = false → Runs (.enable w k true) s ((s.linkTrains n 2).modLink n fun y => { y with enable := true }))
      ∧ (l.enable = true → Runs (.enable w k true) s s)
      ∧ (l.st ≠ 3 → Runs (.enable w k false) s (off (s.linkTrains n 1)))
      ∧ (l.st = 3 → Runs (.enable w k false) s (off (s.linkFails n 1)))
      ∧ (l.enable = true → Runs (.lreset w k) s (s.modLink n fun y => { y with resetting := true })))
    ∧ (l.resetting = true →
      let r := (s.reroute n).askAbout l.packets
      (l.recon = none → r.2 = [] → Runs (.linkReset k) s (r.1.linkRestarts n).drainOut)
      ∧ (l.recon = none → r.2 ≠ [] →
        Runs (.linkReset k) s (r.1.modLink n fun y => { y with recon := some r.2 }).drainOut)
      ∧ (l.recon = some [] → Runs (.linkReset k) s (s.linkRestarts n).drainOut)
      ∧ (∀ a as, l.recon = some (a :: as) → Runs (.linkReset k) s s))
    ∧ (l.enable = true → (s.island (linkDomain n)).lost = false → l.st = 2 ∨ l.st = 4 →
      (∀ p, Runs (.linkTraining k (some p)) s
        (((s.draw.linkReady n).modLink n fun y => { y with peer := p, myNonce := some (Config.random s.fresh) }).sendControl
          0xFFF (some k) 1 (bytesOf (Config.random s.fresh).toNat 32)))
      ∧ (l.trainSince + 10000 * usUnits ≤ s.clk.clk →
        Runs (.linkTraining k none) s (s.modLink n fun y => { y with st := 5, peerOk := false }).drainOut))
    ∧ (s.linkUp n = true → l.beatAt + 10 * usUnits ≤ s.clk.clk → s.clk.clk ≤ s.stew.alive + 100 * usUnits →
      Runs (.heartbeatSend k) s
        ((s.modLink n fun y => { y with beatAt := s.clk.clk, beats := y.beats + 1 }).sendPinned n .heartbeat
          { Packet.blank with tid := l.beats, value := s.capState.setWidth 32 + s.stew.feedId.setWidth 32 * 16 }))
    ∧ (∀ p, l.st = 3 →
      Runs (.heartbeat k p) s ((s.modLink n fun y => { y with heard := some s.clk.clk }).took n .heartbeat p))

/-! ## Packets -/

/-- A packet for this device from a device with a logical number is taken from its buffer, whose credits return, and
handled by its type; one without is dropped and counted; any other packet waits in its buffer, with HOPS one higher, until the
first path that is up has the credits for it, and is refused at the hop limit (R359, R361, R365, R368–R370). -/
def Clause.PacketsAreTaken : Prop :=
  ∀ (s : State) (k : BitVec 5) (p : Packet), linkIn s.grade k.toNat = true → (s.link k.toNat).st = 3 →
    let n := k.toNat
    let t (ty : PacketType) := s.took n ty p
    (p.dst = s.heath.id → (s.logicalOf p.src).isSome = true →
      Runs (.write k p) s ((t .write).takeWrite true p)
      ∧ Runs (.readReq k p) s ((t .readReq).takeReadReq p)
      ∧ Runs (.readReply k p) s ((t .readReply).takeReadReply p)
      ∧ Runs (.ring k p) s ((t .ring).takeRing (some n) p)
      ∧ Runs (.signal k p) s ((t .signal).takeSignal p)
      ∧ Runs (.ack k p) s ((t .ack).takeAck p)
      ∧ Runs (.ret k p) s ((t .ret).takeReturn (some n) p)
      ∧ Runs (.refuse k p) s ((t .refuse).takeRefuse p))
    ∧ ((s.logicalOf p.src).isSome = true → Runs (.mcast k p) s (s.takeMcast (some n) p))
    ∧ (p.dst = s.heath.id → (s.logicalOf p.src) = none →
      Runs (.write k p) s ((t .write).linkTally n 0x73) ∧ Runs (.signal k p) s ((t .signal).linkTally n 0x73))
    ∧ (∀ ty, p.dst ≠ s.heath.id → p.dst ≠ 0xFFF → s.coreLost n = false →
      s.buffered n (packetVc ty p) + packetCredits ty p ≤ 128 →
      (p.hops = 15 → ty ≠ .mcast → Runs (.packetForward k ty p) s ((t ty).send .refuse { Packet.blank with
        dst := p.src, chan := p.chan, tid := p.tid, till := 4, value := BitVec.ofNat 32 (packetCoins ty p),
        addr := if ty = .write ∨ ty = .readReq ∨ ty = .ring ∨ ty = .signal then 0
          else BitVec.ofNat 48 (answerMark ty p) }))
      ∧ (p.hops ≠ 15 →
        let o : OutPacket := { ty := ty, packet := { p with hops := p.hops + 1 }, pinned := none, input := some k
                               back := packetCredits ty p }
        let z := s.linkTally n 0x74
        Runs (.packetForward k ty p) s
          { z with heath := { z.heath with outq := z.heath.outq ++ [o] } }.drainOut))
    ∧ (∀ (z : State) (o : OutPacket) j, o.input = some k → o.pinned = none →
      z.firstPath o.packet.dst = some j → z.coreLost n = false → z.coreLost j = false →
      (z.linkTakes j o.ty o.packet = true → z.trySend o = some (z.sendOn j o))
      ∧ (z.linkTakes j o.ty o.packet = false → z.trySend o = none))

/-- What packets do here: a transfer that is already complete is acknowledged again, unless it was refused, and does nothing else; a SIGNAL that is next in
order raises its till and is acknowledged, or refused with cause 3 when the till overflows; a READ_REQ of DRAM is answered with the
bytes there; a WRITE to DRAM outside the windows stores its bytes; the RETURNs of a ring give their coins to HELD and
RETIN, each once and in the order of their numbers, and one that no ring channel could be owed is a coin fault (R310, R317, R318, R324, R361). -/
def Clause.PacketsAct : Prop :=
  ∀ (s : State) (p : Packet),
    let w : Flow := { src := p.src, chan := p.chan, member := 0, tid := p.tid }
    let ch := s.chan p.chan.toNat
    let n := p.value.toNat
    ((s.recv w.key).has w.tid = true → w.tid ∉ (s.recv w.key).refused →
      let z := s.send .ack { Packet.blank with dst := p.src, chan := p.chan, tid := p.tid }
      s.takeSignal p = z ∧ s.takeReadReq p = z ∧ (∀ h, s.takeWrite h p = z))
    ∧ (w.tid ∈ (s.recv w.key).refused → s.takeSignal p = s ∧ s.takeReadReq p = s ∧ (∀ h, s.takeWrite h p = s))
    ∧ ((s.recv w.key).has w.tid = false → w.tid ∉ (s.recv w.key).refused → ((s.openPart w).partOf w).any (fun q => q.seen.contains p.addr) = false →
      let z := s.openPart w
      (let y := z.modPart w fun q => { q with seen := [p.addr], total := some 0, sig := some (p.till, p.value) };
        s.takeSignal p = y.applySignal w
        ∧ (∀ q, y.partOf w = some q → q.waits = 0 → q.refused = none → q.sig = some (p.till, p.value) → q.total = some 0 →
          w.tid = (y.recv w.key).oldest → y.applySignal w
            = if (y.applyTill p.till p.value false).2 then (y.applyTill p.till p.value false).1.refuseFlow w 3 0
              else (y.applyTill p.till p.value false).1.acknowledge w)
        ∧ (w.tid ≠ (y.recv w.key).oldest → y.applySignal w = y))
      ∧ (∀ k b x bs, place s.grade true p.addr.toNat = .dram k b →
        place s.grade true (p.addr.toNat + readLen p - 1) = .dram k (b + readLen p - 1) →
        z.dramRead k b (readLen p) = (x, some bs) → s.takeReadReq p = x.reply w p.addr.toNat bs)
      ∧ (∀ k b q, p.last = true → z.partOf w = some q → p.data ≠ [] → z.windowHit p.addr.toNat p.data.length = .out →
        place s.grade true p.addr.toNat = .dram k b →
        place s.grade true (p.addr.toNat + p.data.length - 1) = .dram k (b + p.data.length - 1) →
        s.takeWrite true p
          = (z.dramWrite k b p.data).notePacket w p none 0 (some (q.got + p.data.length)) none))
    ∧ (∀ link, chanKind ch.entry = 3 →
        let after (z : State) : Prop := z.fab = s.fab ∧ z.mem = s.mem ∧ z.house = s.house
        (p.tid = ch.retNext → ch.retWait = [] → ch.held.toNat + n ≤ chanRcoins ch.entry →
          after (s.takeReturn link p) ∧ (s.takeReturn link p).chan p.chan.toNat = { ch with
            retNext := ch.retNext + 1, held := ch.held + BitVec.ofNat 24 n, retin := ch.retin + BitVec.ofNat 32 n })
        ∧ (p.tid ≠ ch.retNext → (p.tid - ch.retNext).msb = false → ch.retWait = [] →
          after (s.takeReturn link p) ∧ (s.takeReturn link p).chan p.chan.toNat = { ch with
            retWait := [(p.tid, p.value)] })
        ∧ ((p.tid - ch.retNext).msb = true → s.takeReturn link p = s)
        ∧ (p.tid = ch.retNext → ch.retWait = [] → chanRcoins ch.entry < ch.held.toNat + n →
          (s.takeReturn link p).fab = (s.coinFault (portOf link).1 (portOf link).2 p.chan).fab))
    ∧ (∀ link, chanKind ch.entry ≠ 3 →
        s.takeReturn link p = s.coinFault (portOf link).1 (portOf link).2 p.chan)

/-- Packets are taken, and each kind of packet acts. Choices of the model in it: log entries 31, 32, 37, 54, 97, 99, 129, 130. -/
def Obligations.PacketsTravel : Prop := Clause.PacketsAreTaken ∧ Clause.PacketsAct

/-! ## Messages between stewards -/

/-- A link comes up only when both nonces are known and the peer proves the same owner: its chain verifies to this ROOT, and its
signature with context SG4-LINK over this device's nonce, its own and the owner digest under the chain's leaf; a peer that was
declared dead is told over that link that it is expelled, and counts among the living again once its number is another's; training messages, coin halves and answers between stewards take effect as R363 lists them
(R326, R351, R462, R482, R485). -/
def Clause.StewardsAgreeOnLinks : Prop :=
  ∀ (s : State) (c : Control),
    let k := c.link.toNat
    (s.inTraining k = true →
      (∀ nonce, Runs (.linkNonce c nonce) s
        ((s.modLink k fun l => { l with peerNonce := some nonce }).proveLink k))
      ∧ (∀ (mine peer : BitVec 256) (leaf : BitVec 15616),
        (s.link k).myNonce = some mine → (s.link k).peerNonce = some peer → s.stew.state ≠ 8 →
        let proof : Signature := { key := leaf, context := ascii "SG4-LINK"
                                   bytes := bytesOf mine.toNat 32 ++ bytesOf peer.toNat 32 ++ bytesOf s.ownerDigest.toNat 32 }
        let z := (s.modLink k fun l => { l with peerOk := true }).linkComesUp k
        ((z.surv.dead.find? fun d => d.1 = (s.link k).peer) = none →
          Runs (.linkProof c s.ownerDigest { root := rootDigest, leaf := leaf } proof) s z)
        ∧ (∀ d, (z.surv.dead.find? fun d => d.1 = (s.link k).peer) = some d → ∀ img, z.stew.program.digest = some img →
          let told := z.sendControl (s.link k).peer (some c.link) 4 (bytesOf d.2.toNat 2 ++ bytesOf img.toNat 32)
          (told.physOf d.2 = some d.1 →
            Runs (.linkProof c s.ownerDigest { root := rootDigest, leaf := leaf } proof) s told)
          ∧ (told.physOf d.2 ≠ some d.1 → Runs (.linkProof c s.ownerDigest { root := rootDigest, leaf := leaf } proof) s
            { told with surv := { told.surv with dead := told.surv.dead.filter fun e => e != d } }))))
    ∧ (∀ owner (chain : Chain) (g : Signature), (owner ≠ s.ownerDigest ∨ chain.root ≠ rootDigest ∨ g.key ≠ chain.leaf
        ∨ g.context ≠ ascii "SG4-LINK"
        ∨ ∀ mine peer, (s.link k).myNonce = some mine → (s.link k).peerNonce = some peer →
          g.bytes ≠ bytesOf mine.toNat 32 ++ bytesOf peer.toNat 32 ++ bytesOf owner.toNat 32) →
      Runs (.linkProof c owner chain g) s s)
    ∧ (∀ (chan : BitVec 14) (first returned : BitVec 32) (count : BitVec 13) (done : BitVec 4096),
      let what : BitVec 16 := chan.setWidth 16
      let marks (f : BitVec 32 → Bool) : Nat := ((List.range (min 4096 count.toNat)).map fun j =>
        if f (first + BitVec.ofNat 32 j) then 2 ^ j else 0).sum
      let reply (name : BitVec 16) (bits : Nat) (coins : BitVec 32) : State := s.sendControl c.src none 11
        (bytesOf name.toNat 2 ++ bytesOf first.toNat 4 ++ bytesOf bits 512 ++ bytesOf coins.toNat 4)
      Runs (.reconcileAsk c what first count) s (reply what (marks (s.hasCompleted c.src chan))
        (match (s.logicalOf c.src).bind fun l => s.ringOf l chan with | some (_, _, e) => e.retout | none => 0))
      ∧ Runs (.reconcileAsk c (what ||| 0x8000) first count) s (reply (what ||| 0x8000) (marks (s.hasReturn c.src chan))
        (s.chan chan.toNat).retin)
      ∧ Runs (.reconcileAnswer c (what ||| 0x8000) first done returned) s
        ((s.dropAnswered c.src (what ||| 0x8000) first done).reconciled c.src (what ||| 0x8000))
      ∧ (let ended := (s.chan chan.toNat).transfers.filter fun t =>
          (t.tid - first).toNat < 4096 && done.getLsbD (t.tid - first).toNat
        let dropped (z : State) : State := (z.dropAnswered c.src what first done).reconciled c.src what
        (ended = [] → Runs (.reconcileAnswer c what first done returned) s (dropped s))
        ∧ (s.physOf (chanDev (s.chan chan.toNat).entry) = some c.src → chanKind (s.chan chan.toNat).entry ≠ 4 →
          ∀ t, ended = [t] → t.block = none →
          (∀ u n p, t.tile = some (u, n) → s.pettyOf u.toNat n = some p → p.put = true) →
          Runs (.reconcileAnswer c what first done returned) s
            (dropped (s.takeAck { Packet.blank with src := c.src, chan := chan, tid := t.tid })))))
    ∧ (∀ src (chan : BitVec 14) tid, chanKind (s.chan chan.toNat).entry ≠ 4 →
      s.hasCompleted src chan tid = (s.recv (recvKey src chan 0)).has tid)
    ∧ (∀ (chan : BitVec 14) (die : BitVec 2) (index : BitVec 10) (coins rcoins returned : BitVec 32) empty l,
      s.logicalOf c.src = some l →
      (chanKind (s.chan chan.toNat).entry = 3 → chanDev (s.chan chan.toNat).entry = l →
        Runs (.coinHalf c chan die index true empty coins returned) s
          (s.setChan chan.toNat { s.chan chan.toNat with half := some (empty, coins, returned) }))
      ∧ (let r := s.ringEnd die.toNat index.toNat
        rendCoins r.entry ≠ 0 → rendDev r.entry = l → rendChan r.entry = chan →
        Runs (.coinHalf c chan die index false empty coins returned) s
          (s.setRingEnd die.toNat index.toNat { r with half := some (empty, coins, returned) }))
      ∧ (∀ m, Runs (.ringEndCheck c chan die index rcoins m true) s s
        ∧ (let r := s.ringEnd die.toNat index.toNat
          rcoins ≠ 0 → s.logicalOf c.src = some (rendDev r.entry) → rendChan r.entry = chan → rendCoins r.entry = rcoins.toNat →
          r.lodged = 0 → Runs (.ringEndCheck c chan die index rcoins m false) s
            ((s.setRingEnd die.toNat index.toNat { entry := r.entry }).sendControl c.src none 12 (bytesOf chan.toNat 2
              ++ bytesOf (die.toNat * 1024 + index.toNat) 2 ++ bytesOf rcoins.toNat 4 ++ [1, 1])))
        ∧ (rcoins = 0 → Runs (.ringEndCheck c chan die index rcoins m false) s
          (s.sendControl c.src none 12 (bytesOf chan.toNat 2 ++ bytesOf (die.toNat * 1024 + index.toNat) 2
            ++ bytesOf rcoins.toNat 4
            ++ [BitVec.ofNat 8 (chanKind (s.chan chan.toNat).entry != 0 : Bool).toNat, 1])))))

/-- A neighbour that is silent on every shared link for 500 µs is dead, and a device that hears no neighbour aborts its
own program; a death in the program aborts it and begins the recovery; an expelled device leaves the program (R481, R482,
R497). -/
def Clause.DeathsAreDeclared : Prop :=
  ∀ s : State,
    (∀ phys : BitVec 12,
      let ks := s.neighbourLinks.filter fun k => (s.link k).peer = phys
      ks ≠ [] → ks.all s.silent = true → (s.surv.dead.any fun d => d.1 = phys) = false →
      let s' := s.count .steward 0xA9 0 1
      (∀ img l, s'.stew.program.digest = some img → s'.logicalOf phys = some l → s'.devices.contains l = true →
        let data := bytesOf phys.toNat 2 ++ bytesOf l.toNat 2 ++ bytesOf img.toNat 32 ++ bytesOf s'.now.toNat 8
        let told := s'.devices.foldl (fun z d => if d = z.logical || d = l then z
          else match z.physOf d with | some p => z.sendControl p none 3 data | none => z) s'
        Runs (.deathDeclaration phys) s (told.peerDies phys l told.now))
      ∧ (s'.stew.program.digest = none →
        Runs (.deathDeclaration phys) s { s' with surv := { s'.surv with dead := s'.surv.dead ++ [(phys, 0)] } }))
    ∧ (∀ (c : Control) (phys logical : BitVec 12) image time, s.stew.program.digest = some image →
      Runs (.death c phys logical image time) s (s.peerDies phys logical time)
      ∧ (s.logical = logical → { s with stew := { s.stew with resetAsked := some .expelled } }.endTickets.ticketsEnded = true →
        ∃ z, Runs (.expelled c logical image) s z ∧ z.stew.program = {} ∧ z.surv.plan = none
        ∧ z.surv.partnerPlan = none ∧ z.surv.recovering = false))
    ∧ (s.neighbourLinks ≠ [] → s.neighbourLinks.all s.silent = true → s.stew.program.aborted = false →
      Runs .isolation s (s.abort 0x87 s.logical.toNat))

/-- The stewards agree on links, roots and deaths. Choices of the model in it: log entries 36, 63, 66, 131, 133, 135. -/
def Obligations.StewardsAgree : Prop := Clause.StewardsAgreeOnLinks ∧ Clause.DeathsAreDeclared

/-- PLAN_CHECK is answered with the reason of R485; an accepting PLAN_ANSWER brings the plan into force and a refusing one
drops it, as the lack of FORCE does where the feeds are one; a COMMIT of the leader commits the step; a REPORT reaches the
leader's account, or asks it for a snapshot; MAP redraws the device map, that of the spare too;
RESUME rearms, starts, resumes or gives up; SPARE_JOIN acts only on a spare that is in no program; SEAL_REPORT notes the twin's seal (R485–R487,
R493, R496–R500). Choices of the model in it: log entries 61, 62, 63, 65, 137, 138. -/
def Obligations.StewardsRecover : Prop :=
  ∀ (s : State) (c : Control),
    (∀ (plan own : Line) (image : BitVec 256) (grade : BitVec 2) (feed : BitVec 4),
      s.surv.asked.or s.surv.plan = some own → s.stew.program.digest = some image →
      let r := s.planReason own c.src plan grade feed
      (r ≠ 0 → Runs (.planCheck c plan image grade feed) s (s.sendControl c.src none 6 [1, BitVec.ofNat 8 r, 0]))
      ∧ (r = 0 → Runs (.planCheck c plan image grade feed) s
        ({ s with surv := { s.surv with
          partnerPlan := some plan, partnerPhys := c.src, cofated := feed = s.stew.feedId } }.sendControl c.src none 6
            [0, 0, if feed = s.stew.feedId then 1 else 0])))
    ∧ (∀ p reason cofated, s.surv.asked = some p → s.logicalOf c.src = some (planBuddy p) →
      Runs (.planAnswer c true reason cofated) s (({ s with surv := { s.surv with asked := none } }).answerPlan false)
      ∧ (cofated = true → planForce p = false →
        Runs (.planAnswer c false reason cofated) s (({ s with surv := { s.surv with asked := none } }).answerPlan false))
      ∧ ((cofated = false ∨ planForce p = true) → ∃ z : State, Runs (.planAnswer c false reason cofated) s z ∧ z.surv.plan = some p ∧ z.surv.asked = none
        ∧ z.surv.planSince = s.clk.clk ∧ z.surv.partnerPhys = c.src ∧ z.surv.cofated = cofated ∧ z.mem = s.mem))
    ∧ (∀ (step : BitVec 64) logical copied (x : ReportEnd), s.leads = true →
      (x.snapshot = true → Runs (.report c step logical copied x) s { s with surv := { s.surv with snapAsked := true } })
      ∧ (x.snapshot = false → s.surv.recovering = false →
        Runs (.report c step logical copied x) s (s.noteReport logical step copied x.ended)))
    ∧ (∀ (step : BitVec 64) loss snapshot, s.surv.plan.isSome = true → s.logicalOf c.src = some s.leader →
      Runs (.commit c step loss snapshot) s (s.commitHere step loss snapshot))
    ∧ (∀ (logical phys : BitVec 12) image step, s.stew.program.digest = some image →
      (phys ≠ s.heath.id ∨ s.surv.spare = none) →
      let data := bytesOf logical.toNat 2 ++ bytesOf phys.toNat 2 ++ bytesOf image.toNat 32 ++ bytesOf step.toNat 8
      let z := if c.src = s.heath.id ∧ s.leads = true then (s.tellAll 13 data).sendControl phys none 13 data else s
      Runs (.map c logical phys image step) s
        (({ z with surv := { z.surv with
            dead := z.surv.dead.filter fun d => d.1 != phys
            recoverStep := step, recovering := true } }.redraw logical phys).refill logical phys))
    ∧ (∀ (logical : BitVec 12) image step a n, s.surv.spare = some (a, n, image) →
      Runs (.map c logical s.heath.id image step) s (s.redraw logical s.heath.id))
    ∧ (∀ (step : BitVec 64) (what : BitVec 8), s.surv.plan.isSome = true →
      (c.src = s.heath.id → s.leads = true → Runs (.resume c step what) s (s.announce step what))
      ∧ (s.logicalOf c.src = some s.leader → (c.src ≠ s.heath.id ∨ s.leads = false) →
        Runs (.resume c step what) s (s.resumeHere step what)))
    ∧ (∀ logical image step plan, s.surv.spare = none → Runs (.spareJoin c logical image step plan) s s)
    ∧ (∀ (logical : BitVec 12) image step plan a n z bs x dig img s', s.surv.spare = some (a, n, image) →
      s.stew.program.armed = false → s.surv.plan = none → s.readDram a.toNat n.toNat = (z, some bs) →
      z.plainImage bs image = some (dig, x) → parseImage x = some img →
      z.imageCheck img logical.toNat = .ok s' →
      ∃ w : State, Runs (.spareJoin c logical image step plan) s w ∧ w.surv.spare = none ∧ w.surv.plan = some plan
        ∧ w.surv.recovering = true ∧ w.surv.recoverStep = step)
    ∧ (∀ logical image step plan, (s.stew.program.armed = true ∨ s.surv.plan.isSome = true) →
      Runs (.spareJoin c logical image step plan) s s)
    ∧ (∀ (epoch : BitVec 32) (last : BitVec 64) (head : BitVec 256), s.surv.twin.isSome = true →
      s.logicalOf c.src = s.surv.twin → Runs (.sealReport c epoch last head) s
        { s with surv := { s.surv with twinSeal := some (epoch, last, head) } })

/-! ## Ports -/

/-- A frame for a service of its sub-port, under its own MAC and IP address or a broadcast for ARP, enters the receive buffer, a
malformed, misdirected or unwanted one is dropped and counted, and ARP, neighbour solicitation and echo requests are answered,
at most 1,000 of each sub-port in a second; a pause frame holds back what its priority sends, and a sub-port goes down and returns (R393–R396). Choices of the model in it: log entries 44, 100, 111, 112, 114. -/
def Obligations.PortsReceive : Prop :=
  ∀ (s : State) (port : Bool) (sub : BitVec 2), s.subIn port sub = true →
    let x := s.subPort port sub
    (∀ f : EthFrame, (f.dst = Config.baseMac + BitVec.ofNat 48 (4 * port.toNat + sub.toNat)
        ∨ (f.kind = .arpRequest ∧ f.dst = BitVec.allOnes 48)) → acceptsFrame f port sub = true)
    ∧ (∀ f : EthFrame, x.up = true →
      let vlanOk := (f.vlan = none ∧ x.cfg.getLsbD 14 = false)
        ∨ (∃ v, f.vlan = some v ∧ x.cfg.getLsbD 14 = true ∧ v = x.cfg.extractLsb' 2 12)
      let isV4 := f.ip = x.ipv4.setWidth 128 ∧ x.ipv4 ≠ 0
      let isV6 := f.ip ≠ 0 ∧ (f.ip = x.ipv6.extractLsb' 0 128 ∨ f.ip = x.ipv6.extractLsb' 128 128)
      let mine := match f.kind with
        | .arpRequest => isV4
        | .icmpEcho => isV4
        | .neighbourSolicitation => isV6
        | .icmpv6Echo => isV6
        | .lolithWire => if f.v6 then isV6 else isV4
        | .mailbox => if f.v6 then isV6 else isV4
        | .ptp => True
        | .other => True
      let ok := acceptsFrame f port sub = true ∧ f.length.toNat ≤ 9216 ∧ vlanOk ∧ f.fragment = false ∧ f.checksumOk = true ∧ mine
      (¬ ok → Runs (.frameReceive port sub f) s (s.dropFrame port sub))
      ∧ (ok →
        ((f.kind = .arpRequest ∨ f.kind = .neighbourSolicitation ∨ f.kind = .icmpEcho ∨ f.kind = .icmpv6Echo) →
          Runs (.frameReceive port sub f) s (s.answerFrame port sub f.kind))
        ∧ (f.kind = .lolithWire → f.udpPort.toNat = portUdp x.cfg →
          Runs (.frameReceive port sub f) s (s.bufferFrame port sub f.length.toNat))
        ∧ (f.kind = .mailbox → f.udpPort.toNat = portUdp x.cfg + 1 →
          Runs (.frameReceive port sub f) s (s.bufferFrame port sub f.length.toNat))
        ∧ (f.kind = .ptp → Runs (.frameReceive port sub f) s s)
        ∧ (f.kind = .other → Runs (.frameReceive port sub f) s (s.dropFrame port sub))))
    ∧ (∀ k,
      let second := s.clk.clk / (1000000 * usUnits)
      let n := if x.answersSecond = second then x.answers else 0
      (1000 ≤ n → s.answerFrame port sub k = s.dropFrame port sub)
      ∧ (n < 1000 → s.answerFrame port sub k =
        (s.setSub port sub { x with answers := n + 1, answersSecond := second }).sendOut port sub 0 (.answer port sub k)))
    ∧ (∀ (prio : BitVec 3) (quanta : BitVec 16), x.up = true → x.cfg.getLsbD 15 = true →
      let until_ := if quanta = 0 then 0 else s.clk.clk + quanta.toNat * pauseQuantum (portMode (s.subPort port 0).cfg)
      Runs (.pauseFrame port sub prio quanta) s
        ((s.setSub port sub { x with paused := Sparse.set 0 x.paused prio.toNat until_ }).releaseTx port sub))
    ∧ (∀ dscp o, x.up = true → x.cfg.getLsbD 15 = true → s.clk.clk < Sparse.get 0 x.paused (dscpPriority dscp).toNat →
      s.sendOut port sub dscp o = s.setSub port sub { x with txq := x.txq ++ [(dscpPriority dscp, o)] })
    ∧ (∀ dscp o, x.up = true → x.cfg.getLsbD 15 = false → x.txq = [] → s.sendOut port sub dscp o = s.emit o)
    ∧ Runs (.portDown port sub false) s (s.setSub port sub { x with
        up := false, fill := 0, pausing := false, paused := [], txq := [] })
    ∧ ((s.island (90 + port.toNat)).lost = false → Runs (.portDown port sub true) s
        (s.setSub port sub { x with up := true }))

/-! ## Sessions -/

/-- An INIT of a known client or bound mailbox opens a handshake with the next session number, and more than 256
handshakes or 4,096 data sessions are rejected; a session's number is not 0 and that of no live session; a FINISH with the
right key and a signature of it over TH2 opens the session, and one without is rejected; a handshake ends after 1 s and a session after 30 s without a datagram (R400, R401, R423, R424, R456). Choices of the model in it: log entries 5, 40, 132, 133. -/
def Obligations.SessionsOpenAndClose : Prop :=
  ∀ s : State,
    (∀ x : InitMsg,
      let known := if x.control then x.index.toNat < 16 && s.role x.index.toNat != 0
        else x.index.toNat < 8192 && (s.client x.index.toNat).isSome
      s.hears x.port x.sub = true → x.version = 1 → x.type = 1 → x.session = 0 → joins x.fragments x.exchange 1186 = true →
      s.stew.booted = true → (s.island 95).lost = false →
      (x.control = true ∨ ((s.island 92).lost = false ∧ s.zeroising = false)) → known = true →
      ((256 ≤ s.handshakes ∨ (x.control = false ∧ 4096 ≤ s.dataSessions)) →
        Runs (.init x) s (s.sendReject x.port x.sub 0 x.exchange 1))
      ∧ (s.handshakes < 256 → (x.control = true ∨ s.dataSessions < 4096) → ∃ z : State, Runs (.init x) s z
        ∧ (let n := s.freeSession (s.house.sessions.length + 2) s.house.nextSession
          z.house.sessions = s.house.sessions ++ [{ number := n, control := x.control, index := x.index
                                                    opened := false, since := s.clk.clk, port := x.port, sub := x.sub
                                                    v6 := x.v6, exchange := x.exchange
                                                    secret := Config.sharedSecret s.fresh x.ek
                                                    th := transcript n s.fresh x }]
          ∧ z.house.nextSession = n + 1)
        ∧ z.mem = s.mem ∧ z.fab = s.fab ∧ z.vault = s.vault))
    ∧ (s.house.sessions.length < 2 ^ 32 - 2 →
      s.freeSession (s.house.sessions.length + 2) s.house.nextSession ≠ 0
      ∧ ∀ x ∈ s.house.sessions, x.number ≠ s.freeSession (s.house.sessions.length + 2) s.house.nextSession)
    ∧ (∀ (n : BitVec 32) (control : Bool) (x : Session), s.session n control = some x →
      (x.opened = false →
        (s.clk.clk ≥ x.since + 1000000 * usUnits → Runs (.handshakeTimeout n control) s
          ((s.closeSessions fun y => y.number = n).count .house 0x8E 0 1))
        ∧ (∀ (f : FinishMsg) (g : Signature), s.hears f.port f.sub = true → f.version = 1 → f.type = 3 → f.exchange = x.exchange →
          joins f.fragments x.exchange 5261 = true →
          let want : Option (BitVec 256) := if control then s.boundKey x.index.toNat
            else (s.client x.index.toNat).map fun c => c.key
          let th2 := Config.digest (bytesOf x.th.toNat 32 ++ s.vault.sign "SG4-WIRE-D" (bytesOf x.th.toNat 32)
            ++ bytesOf f.key.toNat 1952)
          let good := g.key = f.key ∧ g.context = ascii "SG4-WIRE-C" ∧ g.bytes = bytesOf th2.toNat 32
          (x.since + 1000000 * usUnits ≤ s.clk.clk → Runs (.finish n control f g) s
            ((s.closeSessions fun y => y.number = n).count .house 0x8E 0 1))
          ∧ (s.clk.clk < x.since + 1000000 * usUnits →
            (¬ good ∨ (∃ k, want = some k ∧ k ≠ Config.digest (bytesOf f.key.toNat 1952)) → Runs (.finish n control f g) s
              ((s.closeSessions fun y => y.number = n).sendReject f.port f.sub n x.exchange 4))
            ∧ ((want = some (Config.digest (bytesOf f.key.toNat 1952))
                ∨ (want = none ∧ control = true ∧ s.owned = false ∧ x.index = 0)) →
              good →
              let z := if control then s.closeSessions fun y => y.control && y.opened && y.index = x.index else s
              Runs (.finish n control f g) s
                ((z.modSession n fun y => { y with
                  opened := true, since := s.clk.clk, key := f.key, keys := y.keysFor z.vault f.key, secret := 0 }).count
                    .house 0x8D 0 1)))))
      ∧ (x.opened = true → x.since + 30000000 * usUnits ≤ s.clk.clk →
        Runs (.sessionTimeout n control) s (s.closeSessions fun y => y.number = n)))

/-- A SEALED datagram of version 1 on an open data session, on a sub-port that is up, whose tag is that of its key, nonce and header
and whose packet number is new and inside the window is taken and its number recorded; any other is dropped and counted. A KEEPALIVE does nothing more, and a CLOSE ends the session
(R398, R399, R401); a message whose reserved header bytes are not zero is denied (R402, R403). -/
def Clause.SealedDatagramsAreChecked : Prop :=
  ∀ (s : State) (h : Sealed),
    (∀ x : Session, (s.house.sessions.find? fun x => x.number = h.d.session && x.opened && !x.control) = some x →
      let tag : GcmTag := { key := x.keys.extractLsb' 0 256, nonce := h.d.pn ++ x.keys.extractLsb' 512 32
                            aad := sealHeader x.number h.d.pn }
      let good := h.d.tag = tag ∧ x.rxNext ≤ h.d.pn.toNat + 1024 ∧ x.seen.contains h.d.pn.toNat = false
      ((h.d.ver ≠ 1 ∨ h.d.type ≠ 4 ∨ s.hears h.d.port h.d.sub = false) → s.openSealed h = (s, none))
      ∧ (h.d.ver = 1 → h.d.type = 4 → s.hears h.d.port h.d.sub = true → h.d.frag = 0 → h.stray = none →
        (¬ good → s.openSealed h = (s.count .house 0x8B 0 1, none)
          ∧ Runs (.keepalive h) s (s.count .house 0x8B 0 1) ∧ Runs (.close h) s (s.count .house 0x8B 0 1))
        ∧ (good →
          let top := max x.rxNext (h.d.pn.toNat + 1)
          let y := { x with
            rxNext := top, seen := (h.d.pn.toNat :: x.seen).filter fun q => top ≤ q + 1024, since := s.clk.clk
            port := h.d.port, sub := h.d.sub, v6 := h.d.v6, dscp := h.d.dscp }
          let z := s.modSession x.number fun _ => y
          s.openSealed h = (z, some y)
          ∧ (h.rsv = 0 → Runs (.keepalive h) s z
            ∧ Runs (.close h) s (z.closeSessions fun y => y.number = x.number))
          ∧ (h.rsv ≠ 0 → Runs (.keepalive h) s (z.sendStatus x.number h.d.dscp 0 4)
            ∧ Runs (.close h) s (z.sendStatus x.number h.d.dscp 0 4)))))

/-! ## The counting house -/

/-- What a data session's messages do once their datagram is taken: a REQUEST is handled by R405, LEDGER
starts or ends an export for a session whose client may subscribe and is refused to any other, and PATCH gives one part
of a patch list; a message with an MTYPE that is not listed, or with reserved bytes that are not zero, is denied (R164, R402,
R405, R472). -/
def Clause.MessagesAreHandled : Prop :=
  ∀ (s z : State) (h : Sealed) (y : Session), s.openSealed h = (z, some y) →
    (((∃ m, h.stray = some m ∧ (m = 0 ∨ 8 < m.toNat)) ∨ h.stray = none ∧ h.rsv ≠ 0) → (∀ x : RequestMsg, Runs (.request h x) s (z.sendStatus y.number y.dscp x.reqid 4))
      ∧ (∀ f, Runs (.ledger h f) s (z.sendStatus y.number y.dscp 0 4))
      ∧ (∀ x, Runs (.patchMessage h x) s (z.sendStatus y.number y.dscp 0 4)))
    ∧ (h.stray = none → h.rsv = 0 →
    (∀ x, Runs (.request h x) s (z.handleRequest y x))
    ∧ (let may := ((z.client y.index.toNat).any fun c => c.rights.getLsbD 1) = true
      (∀ start, ¬ may → Runs (.ledger h start) s (z.sendStatus y.number y.dscp 0 4))
      ∧ (∀ f, may → Runs (.ledger h (some f)) s (z.startExport y.number f))
      ∧ (may → Runs (.ledger h none) s { z with house := { z.house with
          subscribers := z.house.subscribers.filter fun x => x.session != y.number } }))
    ∧ (∀ x : PatchPart,
      let may := ((z.client y.index.toNat).any fun c => c.rights.getLsbD 2) = true
      (¬ may → Runs (.patchMessage h x) s (z.sendStatus y.number y.dscp 0 4))
      ∧ (may → z.stew.longOp.isSome = true → Runs (.patchMessage h x) s (z.sendStatus y.number y.dscp 0 8))
      ∧ (may → z.stew.longOp = none →
        ∀ w a, z.patchPart (16 + y.number.toNat) x = (w, a) → Runs (.patchMessage h x) s
          (w.sendStatus y.number y.dscp 0 (match a with | .ok => 0 | .otherSource => 1 | _ => 4)))))

/-- A sealed datagram is opened, checked and acknowledged, and each of its messages acts. Choices of the model in it: log entries 5, 45, 111, 133. -/
def Obligations.SealedMessagesAreHandled : Prop := Clause.SealedDatagramsAreChecked ∧ Clause.MessagesAreHandled

/-- A request that the client may not make is denied, one while the counting house does not serve is refused, one too long
is refused, and an admissible new one takes the next ticket, or is told to come back while none is free or its coins are not
held; a request that has its ticket already is matched with it, and its stored reply is sent again (R405, R406). -/
def Clause.RequestsTakeTickets : Prop :=
  ∀ (s : State) (y : Session) (x : RequestMsg),
    let e := Sparse.get 0 s.house.intakes x.intake.toNat
    let granted := (∃ c, s.client y.index.toNat = some c ∧ c.rights.getLsbD 0 = true ∧ x.intake.toNat < 64
        ∧ c.mask.getLsbD x.intake.toNat = true) ∧ intakeOn e = true ∧ x.seg = 0 ∧ x.status = 0
    (¬ granted → s.handleRequest y x = s.sendStatus y.number y.dscp x.reqid 4)
    ∧ (granted → s.serving = false → s.handleRequest y x = s.sendStatus y.number y.dscp x.reqid 2)
    ∧ (granted → s.serving = true → intakeMax e < x.data.length →
      s.handleRequest y x = s.sendStatus y.number y.dscp x.reqid 3)
    ∧ (granted → s.serving = true → x.data.length ≤ intakeMax e →
      s.findReceipt (y.index.setWidth 13) x.reqid = none →
      ∀ z floor, s.floor y.index.toNat = (z, floor) →
      (x.reqid.toNat ≤ floor.toNat → s.handleRequest y x = z.sendStatus y.number y.dscp x.reqid 5)
      ∧ (floor.toNat < x.reqid.toNat →
        ((z.receiptAt (z.house.nextTicket.toNat % receiptSlots)).any fun r => r.pending) = false →
        (z.chan (intakeChan e)).placeable (coinsOf (32 + x.data.length)) = true →
        s.handleRequest y x = z.acceptRequest (intakeChan e) (y.index.setWidth 13) y x)
      ∧ (floor.toNat < x.reqid.toNat →
        (((z.receiptAt (z.house.nextTicket.toNat % receiptSlots)).any fun r => r.pending) = true
          ∨ (z.chan (intakeChan e)).placeable (coinsOf (32 + x.data.length)) = false) →
        s.handleRequest y x = z.sendStatus y.number y.dscp x.reqid 1))
    ∧ (∀ r, granted → s.serving = true → x.data.length ≤ intakeMax e →
      s.findReceipt (y.index.setWidth 13) x.reqid = some r →
      let mine := { r with session := y.number, dscp := y.dscp }
      (r.digest ≠ requestDigest (y.index.setWidth 13) x → s.handleRequest y x = s.sendStatus y.number y.dscp x.reqid 6)
      ∧ (r.digest = requestDigest (y.index.setWidth 13) x → r.pending = true →
        s.handleRequest y x = (s.setReceipt (r.ticket.toNat % receiptSlots) (some mine)).count .house 0x87 0 1)
      ∧ (r.digest = requestDigest (y.index.setWidth 13) x → r.pending = false →
        ∀ z data, s.storedReply r = (z, data) →
        s.handleRequest y x = (z.sendReply 3 mine data).count .house 0x88 0
          (if z.sessionSends y.number then 1 else 0)))

/-- The oldest message at an outbox is handled while appends may proceed; at the end of the program the counting house
stops and its tickets are completed; an assembly without a part for 1 s is dropped (R164, R407, R414, R471). -/
def Clause.OutboxesAnswer : Prop :=
  ∀ s : State,
    (∀ (n : BitVec 6) (a : Arrived),
      let b := Sparse.get 0 s.house.outboxes n.toNat
      b.getLsbD 12 = true → s.appendsWait = false → (s.island 92).lost = false →
      (s.house.arrivals.find? fun a => a.index = b.extractLsb' 0 10 && a.die = b.extractLsb' 10 2) = some a →
      Runs (.outboxMessage n) s (s.outboxTurn a))
    ∧ (∀ (a : Arrived) w0 z m,
      let e := (s.ringEnd a.die.toNat a.index.toNat).entry
      a.frame = some w0 →
      s.houseRead a (rendBase e + 64 * a.pos.toNat) (max 1 (w0.toNat % 2 ^ 31)) = (z, .gave m) →
      s.outboxTurn a = z.handleArrived a m)
    ∧ (∀ (a : Arrived) bs r,
      let z := { s with house := { s.house with arrivals := s.house.arrivals.filter fun b =>
        !(b.die = a.die && b.index = a.index && b.pos = a.pos) } }
      let w := z.returnCoins a.die.toNat a.index.toNat a.coins.toNat false
      ((w.receiptAt ((outboxTicket bs).toNat % receiptSlots)).filter fun r => r.ticket = outboxTicket bs && r.pending)
        = some r →
      outboxLen bs ≤ w.replyMax → (outboxStat bs = 0 ∨ 0x80 ≤ (outboxStat bs).toNat) → outboxRsvOk bs = true →
      s.handleArrived a (some bs) = w.answerTicket r (outboxStat bs) ((bs.drop 32).take (outboxLen bs)))
    ∧ ((s.stew.program.aborted = true ∨ s.fab.hold.halt = true ∨ s.house.stopped = true) →
      (s.island 92).lost = false → (s.island 95).lost = false → Runs .programEndTickets s s.endTickets)
    ∧ (∀ a, s.stew.assembly = some a → a.since + 1000000 * usUnits ≤ s.clk.clk →
      Runs .patchAssemblyTimeout s { s with stew := { s.stew with assembly := none } })

/-- Requests take tickets and outboxes answer them. Choices of the model in it: log entries 41, 42, 43, 113. -/
def Obligations.RequestsAreAnswered : Prop := Clause.RequestsTakeTickets ∧ Clause.OutboxesAnswer

/-! ## Mailbox commands -/

/-- What a mailbox frame meets before its command: the MTU; a change of step that is to complete first; the window of its session;
BUSY while a long operation runs; BAD_ARG for an FKIND that is not a request's, for reserved bytes that are
not zero, and for a CMD or FORM that no row has; the stored reply for a repeated TAG; DENIED for a role that the command does not allow; and a command's own
refusal changes nothing but the mailbox (R399, R423, R424, R425, R428–R433). Choices of the model in it: log entries 67, 111, 134. -/
def Obligations.MailboxFramesAreChecked : Prop :=
  ∀ (s : State) (f : Frame) (c : Command) (body : Body),
    (s.boxSession f.mb = none → s.command f c body = s)
    ∧ ((s.frameFits f = false ∨ s.stew.stepReplies ≠ []) → s.command f c body = s)
    ∧ (f.stray = none → s.frameFits f = true → s.stew.stepReplies = [] →
    (∀ y, s.boxSession f.mb = some y → f.d.session = y.number → s.hears f.d.port f.d.sub = true →
      f.d.ver = 1 → f.d.type = 4 → f.d.frag = 0 → y.admits f.d = false → s.command f c body = s.count .house 0x8B 0 1)
    ∧ ∀ y, Hears s f y →
      let z := s.heard f y
      (∀ op, s.stew.longOp = some op → s.command f c body = z.busyReply f c.code op (z.progress op))
      ∧ (s.stew.longOp = none → (f.fkind ≠ 1 ∨ f.rsv ≠ 0) →
        s.command f c body = z.replyFrame f.mb f.tag c.code (badArg 0) [])
      ∧ (s.stew.longOp = none → f.fkind = 1 → f.rsv = 0 → c.code ≠ 0x02 → (s.mailbox f.mb).tag = some f.tag →
        s.command f c body = z.replyFrame f.mb f.tag c.code ((s.mailbox f.mb).status, (s.mailbox f.mb).detail)
          (s.mailbox f.mb).result)
      ∧ (s.stew.longOp = none → f.fkind = 1 → f.rsv = 0 → c.code ≠ 0x02 → (s.mailbox f.mb).tag ≠ some f.tag →
        (∀ r, z.bars f c = some r → s.command f c body = z.complete f.mb f.tag c.code r [])
        ∧ (s.stew.state ≠ 8 → s.owned = true → c.roles (s.role f.mb.toNat) = false →
          s.command f c body = z.complete f.mb f.tag c.code (denied 1) [])
        ∧ (∀ r, z.bars f c = none → body z = .error r → s.command f c body = z.complete f.mb f.tag c.code r [])))
    ∧ (∀ (code form : BitVec 8) y, f.stray = some (code, form) → s.frameFits f = true → s.stew.stepReplies = [] → Hears s f y →
      s.stew.longOp = none → f.fkind = 1 → f.rsv = 0 → (s.mailbox f.mb).tag ≠ some f.tag →
      (s.heard f y).bars f { code := code, roles := rolesOf code.toNat } = none →
      ((0x37 < code.toNat ∨ code = 0) →
        s.command f c body = (s.heard f y).complete f.mb f.tag code (badArg 0) [])
      ∧ (code = 0x24 → 3 < form.toNat → s.command f c body = (s.heard f y).complete f.mb f.tag code (badArg 1) []))

/-- The reporting commands answer with what they report and change nothing else, and the commands that load, arm, start,
replay, patch, stop, hold and step the fabric have the effects of R437–R441. Choices of the model in it: log entries 47, 58, 68, 69, 84, 105. -/
def Obligations.RunCommandsComplete : Prop :=
  ∀ (s : State) (f : Frame) (y : Session),
    let z := s.heard f y
    let on (i : Instr) (c : Command) (w : State) : Prop := Accepts s f c y → Runs i s w
    let run (code : BitVec 8) (fabric : Bool) : Command := { code := code, roles := rolesOP, fabric := fabric }
    let p := z.stew.program
    on (.query f) { code := 0x01, roles := rolesAll, unowned := true }
      (z.answers f 0x01 (z.caps ++ bytesOf z.holdStatus.toNat 4))
    ∧ (∀ offset, on (.lastResult f offset) { code := 0x02, roles := rolesAll, unowned := true }
      ((z.count .steward 0xA6 0 1).replyFrame f.mb f.tag 0x02 (0, 0) ((z.mailbox f.mb).result.drop offset.toNat)))
    ∧ on (.readHalt f) { code := 0x03, roles := rolesAll } (z.answers f 0x03 z.haltBytes)
    ∧ on (.readTallies f) { code := 0x27, roles := rolesAll } (z.latchTallies.begins f 0x27 (.tallies z.clk.clk z.now))
    ∧ (∀ (addr : BitVec 48) (data : List Byte), z.noProgram = true → addr.toNat % 64 = 0 →
      (data = [] ∨ z.freeDram addr.toNat data.length = true) →
      on (.stage f addr data) (run 0x10 false) ((z.writeDram addr.toNat data).answers f 0x10 []))
    ∧ (∀ (addr : BitVec 48) (length : BitVec 64) (logical : BitVec 16) (digest : BitVec 256) w bs dig plain img,
      z.noProgram = true → addr.toNat % 64 = 0 → z.freeDram addr.toNat 1 = true → 1 ≤ length.toNat →
      length.toNat < 2 ^ 48 → z.freeDram addr.toNat length.toNat = true → logical.toNat < 4096 →
      z.staged addr.toNat length.toNat = (w, some bs) → Config.digest bs = digest →
      w.plainImage bs digest = some (dig, plain) → parseImage plain = some img → w.imageCheck img logical.toNat = .ok () →
      w.receiptsMove (w.tablesOf img logical.toNat) = true →
      let v := { w with stew := { w.stew with program := {}, state := if w.stew.state = 2 then 1 else w.stew.state } }
      on (.loadImage f addr length logical digest) (run 0x11 true)
        (((v.clearListed.writeImage true img logical.toNat).moveReceipts w.house.receiptCfg).begins f 0x11 (.load dig img.req (logical.setWidth 12)
          (img.sections.filter fun x => x.ty != 4) (img.tiles logical.toNat))))
    ∧ (p.digest.isSome = true → z.noProgram = true → z.mapReady = true →
      on (.arm f) (run 0x12 true) (z.armProgram.answers f 0x12 (bytesOf z.armProgram.logical.toNat 2)))
    ∧ (∀ time : BitVec 64, p.armed = true → p.started = false → time.toNat ≤ z.stewardTime.toNat + 2 ^ 31 →
      on (.start f time) (run 0x13 true) ({ z with stew := { z.stew with
        program := { p with started := true, startAt := some time } } }.answers f 0x13 []))
    ∧ (∀ count : BitVec 32, p.armed = true → p.started = true →
      on (.replay f count) (run 0x14 true) ({ z with stew := { z.stew with program := { p with
        remaining := if count = 0 then none else some count.toNat } } }.answers f 0x14 []))
    ∧ (s.replayDue = true → Runs .replayStart s s.beginReplay)
    ∧ (∀ x w, z.patchPart f.mb.toNat x = (w, .ok) → on (.patch f x) (run 0x15 false) (w.answers f 0x15 []))
    ∧ (p.armed = true →
      let a := z.abort 0x86 (f.mb.setWidth 32)
      on (.stop f false) (run 0x16 false) (a.answers f 0x16 [])
      ∧ on (.stop f true) (run 0x16 false) ((a.askReset .stop).answers f 0x16 [])
      ∧ (let h (asked : Bool) : State := { z with stew := { z.stew with holdAsked := asked } }
        on (.hold f true) (run 0x17 false) (((h true).requestHold .steward z.fab.scc).answers f 0x17 [])
        ∧ (z.countWaits = false → on (.hold f false) (run 0x17 false)
          ({ h false with fab := { z.fab with hold := { z.fab.hold with stewardOff := some z.clk.clk } } }.answers
            f 0x17 []))))
    ∧ (∀ step : BitVec 8, step.toNat < 8 → z.clk.safeStep.toNat ≤ step.toNat →
      let w := { z with clk := { z.clk with askedStep := some (step.setWidth 3) } }.followStep
      let c : Command := { code := 0x20, roles := rolesOPS, fabric := true }
      ((w.stew.program.armed = true ∨ w.fab.hold.step = false) → on (.setStep f step) c (w.answers f 0x20 []))
      ∧ (w.stew.program.armed = false → w.fab.hold.step = true → on (.setStep f step) c
        ({ w with stew := { w.stew with stepReplies := w.stew.stepReplies ++ [(f.mb, f.tag)] } }.count .steward 0xA6 0 1)))
    ∧ on (.reset f 1) { code := 0x37, roles := rolesOPS } ((z.askWarm 1).answers f 0x37 [])

/-- The configuration commands write the tables, ports, channels, ring ends, banks and tills that R441–R444 name, each
with its measurement or ledger record, and refuse a route over an absent link and the closing of a ring whose coins are not
all held (R302, R307, R308, R317, R364–R366, R379, R393, R432). Choices of the model in it: log entries 51, 63, 68, 134. -/
def Obligations.ConfigurationCommandsComplete : Prop :=
  ∀ (s : State) (f : Frame) (y : Session),
    let z := s.heard f y
    let on (i : Instr) (c : Command) (w : State) : Prop := Accepts s f c y → Runs i s w
    let wide (code : BitVec 8) : Command := { code := code, roles := rolesOPS }
    let run (code : BitVec 8) : Command := { code := code, roles := rolesOP }
    let h := z.heath
    (∀ phys : BitVec 16, z.noProgram = true → phys.toNat < 4096 →
      on (.setHeathId f phys) (wide 0x21) (({ z with heath := { h with
        id := phys.setWidth 12
        links := h.links.map fun (k : Nat × Link) => (k.1, if k.2.st = 3 then { k.2 with resetting := true } else k.2) } }.measureFrame
          (bytesOf phys.toNat 2)).answers f 0x21 []))
    ∧ (∀ (port sub : BitVec 8) cfg ipv4 ipv6, z.noProgram = true → port.toNat < 2 → sub.toNat < 4 →
      z.subIn (port = 1) (sub.setWidth 2) = true → portCfgOk sub.toNat cfg = true →
      let w := z.configPort (port = 1) (sub.setWidth 2) cfg
      on (.setPort f port sub cfg ipv4 ipv6) (run 0x22)
        (((w.setSub (port = 1) (sub.setWidth 2)
            { w.subPort (port = 1) (sub.setWidth 2) with ipv4 := ipv4, ipv6 := ipv6 }).measureFrame
          ([port, sub] ++ bytesOf cfg.toNat 8 ++ bytesOf ipv4.toNat 4 ++ bytesOf ipv6.toNat 32)).answers f 0x22 []))
    ∧ (∀ (first : BitVec 16) (es : List (BitVec 32)), z.anyRun = false → first.toNat < 4096 → 1 ≤ es.length →
      es.length ≤ 1024 → first.toNat + es.length ≤ 4096 →
      let kept := es.map fun e => e &&& 0x80000FFF
      (es.all (routeOk z.grade) = true → on (.heathTablesRoute f first es) (wide 0x23)
        (({ z with heath := { h with route := putTable h.route first.toNat es } }.measureFrame
          (tableData 1 first es)).answers f 0x23 []))
      ∧ (es.all routeForm = true → es.all (routeOk z.grade) = false →
        on (.heathTablesRoute f first es) (wide 0x23) (z.complete f.mb f.tag 0x23 (absent 7) []))
      ∧ on (.heathTablesDevmap f first es) (wide 0x23) (({ z with heath := { h with
          devmapA := if h.devSel then putTable h.devmapA first.toNat kept else h.devmapA
          devmapB := if h.devSel then h.devmapB else putTable h.devmapB first.toNat kept } }.measureFrame
            (tableData 2 first es)).answers f 0x23 []))
    ∧ (∀ bank : BitVec 8, z.selectFree = true → bank.toNat < 2 →
      oneToOne (if bank = 1 then h.devmapB else h.devmapA) = true →
      on (.heathTablesSelect f bank) (wide 0x23)
        (({ z with heath := { h with devSel := bank = 1 } }.measureFrame [3, 0, 0, 0, 0, 0, 0, 0, bank]).answers f 0x23 []))
    ∧ (∀ (chan : BitVec 16) (entry : Line) remote, chan.toNat < 16383 →
      (chanKind entry = 1 ∨ chanKind entry = 2) → z.chanOk entry = true → chanKind (z.chan chan.toNat).entry = 0 →
      let w := z.modChan chan.toNat fun x => { x with
        entry := entry ||| 0x800, head := 0, err := false, retin := 0, spillu := 0, spillFresh := 0, spillFree := []
        retNext := 0, retWait := [], held := 0 }
      on (.channelOpen f chan entry remote) (run 0x24)
        (((w.mapChannel chan.toNat).measureFrame (chanData 1 chan (bytesOf entry.toNat 64))).answers f 0x24 []))
    ∧ (∀ (chan : BitVec 16) (entry : Line) remote, chan.toNat < 16383 → chanKind entry = 3 → z.chanOk entry = true →
      chanKind (z.chan chan.toNat).entry = 0 → chanDev entry = z.logical → z.ringMatches chan.toNat entry remote = true →
      let w := (z.restartRing (chanRendDie entry).toNat (chanRendIndex entry).toNat).modChan chan.toNat fun x => { x with
        entry := entry ||| 0x800, head := 0, err := false, retin := 0, spillu := 0, spillFresh := 0, spillFree := []
        retNext := 0, retWait := [], held := BitVec.ofNat 24 (chanRcoins entry) }
      on (.channelOpen f chan entry remote) (run 0x24)
        (((w.mapChannel chan.toNat).measureFrame (chanData 1 chan (bytesOf entry.toNat 64))).answers f 0x24 []))
    ∧ (∀ chan : BitVec 16, chan.toNat < 16383 →
      let x := z.chan chan.toNat
      (chanKind x.entry = 3 ∨ chanKind x.entry = 4 → z.ringsClose = false ∨ z.allHeld x = false →
        on (.channelClose f chan) (run 0x24) (z.complete f.mb f.tag 0x24 (denied 2) []))
      ∧ ((chanKind x.entry = 1 ∨ chanKind x.entry = 2
        ∨ ((chanKind x.entry = 3 ∨ chanKind x.entry = 4) ∧ z.ringsClose = true ∧ z.allHeld x = true)) →
      let w := z.setChan chan.toNat { nextTid := x.nextTid, transfers := x.transfers, waiting := x.waiting }
      on (.channelClose f chan) (run 0x24)
        (((w.mapChannel chan.toNat).measureFrame (chanData 0 chan [])).answers f 0x24 [])))
    ∧ (∀ (index : BitVec 16) (entry : BitVec 256) remote, index.toNat / 1024 < 4 →
      let d := index.toNat / 1024
      let i := index.toNat % 1024
      let r := z.ringEnd d i
      (rendCoins entry ≠ 0 → z.rendOk entry = true → rendCoins r.entry = 0 →
        on (.ringEndOpen f index entry) (run 0x24) ((((z.setRingEnd d i { entry := entry }).setTill (rendRtill entry).toNat 0).measureFrame
          (chanData 3 index (bytesOf entry.toNat 32))).answers f 0x24 []))
      ∧ (z.ringsClose = true → rendCoins r.entry ≠ 0 → r.lodged = 0 → rendDev r.entry = z.logical →
        chanKind (z.chan (rendChan r.entry).toNat).entry = 0 →
        on (.ringEndClose f index remote) (run 0x24)
          (((z.setRingEnd d i {}).measureFrame (chanData 2 index [])).answers f 0x24 [])))
    ∧ (∀ (tile : BitVec 16) (mask : BitVec 16), tile.toNat < 768 → tileIn z.grade tile.toNat = true → z.anyRun = false →
      on (.fallow f tile mask) (run 0x25) (((z.setFallow tile.toNat mask).measureFrame
        (bytesOf tile.toNat 2 ++ bytesOf mask.toNat 2)).answers f 0x25 []))
    ∧ (∀ (till : BitVec 16) (count : BitVec 32), till.toNat < 32768 → 1 ≤ count.toNat → count.toNat ≤ 256 →
      till.toNat + count.toNat ≤ 32768 →
      on (.tillsRead f till count) { code := 0x26, roles := rolesOPA } (z.answers f 0x26
        ((List.range count.toNat).flatMap fun i => bytesOf (z.tillRead (BitVec.ofNat 15 (till.toNat + i))).toNat 4)))
    ∧ (∀ (till : BitVec 16) (value : BitVec 32), till.toNat < 32768 → z.returnTill (till.setWidth 15) = none →
      on (.tillsSet f till value) (run 0x26)
        ((z.setByHand (till.setWidth 15) value (z.requester f.mb.toNat).1 (z.requester f.mb.toNat).2).answers f 0x26 []))

/-- The long commands of survival and trust begin their operation with a BUSY reply once their checks pass (R430, R434,
R450, R456–R460, R473–R475, R485, R492–R494, R500). Choices of the model in it: log entries 65, 68, 70, 71, 72, 133. -/
def Obligations.LongCommandsBegin : Prop :=
  ∀ (s : State) (f : Frame) (y : Session),
    let z := s.heard f y
    let on (i : Instr) (c : Command) (w : State) (work : LongWork) : Prop :=
      Accepts s f c y → Runs i s (w.begins f c.code work)
    let run (code : BitVec 8) (fabric : Bool) : Command := { code := code, roles := rolesOP, fabric := fabric }
    let owner (code : BitVec 8) : Command := { code := code, roles := rolesO }
    (∀ (plan : Line) phys img, z.stew.program.digest = some img → z.noProgram = true → z.planOk plan = true →
      z.planClear plan = true → (planSnap plan = true → z.surv.granUp = true ∧ Config.slotHolds z.surv.granChan (planSize plan) = true) →
      z.physOf (planBuddy plan) = some phys →
      let w := z.sendControl phys none 5 (bytesOf plan.toNat 64 ++ bytesOf img.toNat 32
        ++ [z.grade.setWidth 8, z.stew.feedId.setWidth 8])
      on (.snapshotPlan f plan) (run 0x30 false) { w with surv := { w.surv with asked := some plan } } (.plan none))
    ∧ (z.stew.program.armed = true → z.surv.plan.any planSnap = true → z.surv.granUp = true →
      (z.leads = true → on (.snapshotTake f) (run 0x30 false) { z with surv := { z.surv with snapAsked := true } } (.take none))
      ∧ (∀ p, z.leads = false → z.physOf z.leader = some p → on (.snapshotTake f) (run 0x30 false)
        (z.sendControl p none 7 (bytesOf z.surv.stepRun.toNat 8 ++ bytesOf z.logical.toNat 2 ++ [4])) (.take none)))
    ∧ (z.surv.granUp = true → on (.snapshotList f) (run 0x30 false) z .list)
    ∧ (∀ (addr : BitVec 48) (length : BitVec 64) digest, z.noProgram = true → z.freeDram addr.toNat 1 = true →
      1 ≤ length.toNat → length.toNat < 2 ^ 48 → z.freeDram addr.toNat length.toNat = true →
      on (.snapshotSpare f addr length digest) (run 0x30 false) z (.spare addr length digest))
    ∧ (z.stew.program.digest.isSome = true →
      on (.snapshotTwin f 0xFFFF) (run 0x30 false) z (.twin none)
      ∧ ∀ twin : BitVec 16, twin.toNat < 4096 →
        on (.snapshotTwin f twin) (run 0x30 false) z (.twin (some (twin.setWidth 12))))
    ∧ (∀ step b, z.surv.plan.isSome = true → z.noProgram = true → z.surv.granUp = true →
      z.restoreSlot step = some b → on (.restore f step) (run 0x31 true) z (.restore b))
    ∧ (∀ (nonce : BitVec 256) (part : BitVec 8), part.toNat < 3 →
      on (.attest f nonce part) { code := 0x32, roles := rolesAll, unowned := true } z (.attest nonce part))
    ∧ (∀ x : EnrolArgs,
      (∀ (a b : Signature) (w : State) bs u, z.owned = false → z.vault.gen.toNat ≤ 30 → z.noProgram = true → f.mb = 0 →
        enrolCheck x [7] = .ok () → z.freeDram x.staged.toNat 6618 = true → z.staged x.staged.toNat 6618 = (w, some bs) →
        z.boxSession f.mb = some u →
        let given (part : List Byte) (g : Signature) : Option Signature := if part.all (· = 0) then none else some g
        let osigA := given (bs.take 3309) a
        let osigB := given (bs.drop 3309) b
        let run : FwSlot := Sparse.get {} w.vault.slots w.vault.slotB.toNat
        (if w.vault.slotB then osigB else osigA)
          = some { key := u.key, context := ascii "SG4-FW-OWNER", bytes := run.header } →
        on (.enrolOwner f x a b) { code := 0x33, roles := rolesO, unowned := true } w (.enrol 1 x u.key osigA osigB))
      ∧ (enrolCheck x [1, 2, 6] = .ok () → on (.enrolBind f x) (owner 0x33) z (.enrol 2 x 0 none none))
      ∧ (enrolCheck x [1] = .ok () → on (.enrolUnbind f x) (owner 0x33) z (.enrol 3 x 0 none none))
      ∧ (enrolCheck x [3, 4, 5, 6] = .ok () → on (.enrolClient f x) (owner 0x33) z (.enrol 4 x 0 none none))
      ∧ (enrolCheck x [4] = .ok () → on (.enrolRevoke f x) (owner 0x33) z (.enrol 5 x 0 none none)))
    ∧ (∀ (addr : BitVec 48) (length : BitVec 64) (w : State) (bs : List Byte) (esig osig : Signature),
      let slot := FwSlot.ofImage bs esig osig
      let cut (lo n : Nat) : Nat := natOf ((bs.drop lo).take n)
      let good : Prop := cut 0 4 = 0x57465A45 ∧ cut 9 7 = 0 ∧ cut 8 1 ≤ 64 ∧ cut 16 8 = length.toNat - 8704
        ∧ keyDigest slot.rootKey = rootDigest ∧ w.vault.rollback.toNat ≤ cut 8 1 ∧ Config.digest (bs.drop 8704) = slot.digest
        ∧ esig = { key := slot.rootKey, context := ascii "SG4-FW", bytes := slot.header }
        ∧ (w.owned = true → ∃ e, w.vault.enrolment = some e
          ∧ slot.osig = some { key := e.owner, context := ascii "SG4-FW-OWNER", bytes := slot.header })
      let i : Instr := .updateFw f addr length esig osig
      z.freeDram addr.toNat (min length.toNat 8704) = true → 8704 ≤ length.toNat → length.toNat ≤ 12 * 2 ^ 20 →
      z.freeDram addr.toNat length.toNat = true → z.staged addr.toNat length.toNat = (w, some bs) →
      Accepts s f (owner 0x34) y →
      (good → Runs i s (w.begins f 0x34 (.update slot)))
      ∧ (¬ good → Runs i s (z.complete f.mb f.tag 0x34 (badArg 0) [])))
    ∧ on (.zeroise f) (owner 0x35) (z.zeroiseBegins f.mb false) .zeroise
    ∧ (∀ reason rma note, on (.prepareReturn f reason rma note) (owner 0x36) (z.zeroiseBegins f.mb true)
      (.retire (z.failRecord reason rma note)))
    ∧ (∀ op ok w data, s.stew.longOp = some op → s.finish op ok = some (w, .ok data) →
      Runs (.longOperationComplete ok) s
        ({ w with stew := { w.stew with longOp := none } }.complete op.mailbox op.tag op.cmd (0, 0) data))

/-! ## The ledger, survival and firmware -/

/-- A seal falls due at 4,096 unsealed records or when the oldest is 10 ms old, and a seal that is signed is published; after
the loss of domain 95 none is; a
unit that reports an error aborts the program with its code; a lockstep mismatch stops the steward and asks for a warm reset; a program reset
happens only in service, for a cause, and once every ticket is ended; a zeroisation writes its marker once every record is sealed and was on offer for 100 ms, and then
blows the fuse by which the owner is gone (R59, R414, R421, R442, R470, R473, R510, R514). -/
def Clause.StewardEventsAct : Prop :=
  ∀ s : State,
    (s.vault.sealWaiting = false → 0 < s.unsealed →
      (4096 ≤ s.unsealed ∨ s.vault.oldestAt + 10000 * usUnits ≤ s.clk.clk) → Runs .sealDue s s.sealNow)
    ∧ ((s.island 95).lost = false → Runs .sealComplete s s.sealDone)
    ∧ ((s.island 95).lost = true → s.sealNow = s ∧ Runs .sealComplete s s)
    ∧ (∀ a code detail, s.stew.program.aborted = false → s.abortOf a = some (code, detail) →
      Runs (.firmwareAbort a) s (s.abort code detail))
    ∧ (s.stew.booted = true → Runs .lockstepMismatch s
      { s with
        vault := s.vault.tear (s.stew.longOp.map LongOp.work)
        stew := { s.stew with booted := false, longOp := none, stepReplies := [], lockstep := true
                              warmAsked := some s.clk.clk, warmBy := 2 } })
    ∧ (s.stew.booted = false → s.boxSession = fun _ => none)
    ∧ (∀ c, s.stew.booted = true → (s.stew.state = 1 ∨ s.stew.state = 2 ∨ s.stew.state = 3 ∨ s.stew.state = 5) →
      s.stew.resetAsked = some c →
      (((s.island 92).lost = true ∨ (s.island 95).lost = true) → Runs .programReset s (s.programReset.afterReset c))
      ∧ ((s.island 92).lost = false → (s.island 95).lost = false →
        (s.endTickets.ticketsEnded = true → Runs .programReset s (s.endTickets.programReset.afterReset c))
        ∧ (s.endTickets.ticketsEnded = false → Runs .programReset s s.endTickets)))
    ∧ ((s.stew.booted = false ∨ s.stew.resetAsked = none) → Runs .programReset s s)
    ∧ (s.zeroising = true →
      (s.vault.zrecord = true → s.vault.zmarker = false → s.allSealed = true → s.vault.sealedAt + 100000 * usUnits ≤ s.clk.clk →
        s.zeroiseStep = { s with vault := { s.vault with zmarker := true } })
      ∧ (s.vault.zrecord = true → s.vault.zmarker = true → s.owned = true → s.zeroiseStep.owned = false ∧ s.zeroiseStep.vault.enrolment = none
        ∧ s.zeroiseStep.surv.granA = {} ∧ s.zeroiseStep.surv.granB = {} ∧ s.zeroiseStep.mem = s.mem))

/-- The bulk copy of a step sets out for the partner once the copy till has risen, and its end is reported; the partner's
copy to a spare rearms the devices; a drain that completes stores its commit record and state in its granary slot
(R487, R492, R493, R497). -/
def Clause.CopiesAndDrainsComplete : Prop :=
  ∀ s : State,
    (∀ own his w c, s.surv.plan = some own → s.surv.partnerPlan = some his → s.begun = true →
      s.stew.program.aborted = false → s.surv.ctillSeen.toInt < (s.till (planTill own).toNat).toInt →
      s.surv.copying = none →
      let n := planSize own
      let t := planStaticSize own
      s.copyChannel (planBuddy own) (planBuddyBase his) (2 * n + t) = (w, some c) →
      let odd : Bool := s.surv.stepRun.getLsbD 0
      let v := w.sendPieces c (planState own odd) (planBuddyBase his + if odd then n else 0) (n / 256)
      let u := if v.surv.staticCopied then v else v.sendPieces c (planStatic own) (planBuddyBase his + 2 * n) (t / 256)
      Runs .bulkCopy s { u with surv := { u.surv with
        copying := some s.surv.stepRun, ctillSeen := s.till (planTill own).toNat, staticCopied := true } })
    ∧ (∀ r, s.surv.copying = some r → s.copyIdle = true →
      let z := { s with surv := { s.surv with copying := none } }
      (s.surv.recovering = false → Runs .bulkCopyComplete s (z.report r true false))
      ∧ (s.surv.recovering = true →
        (z.leads = true → Runs .spareCopyComplete s z.recovered)
        ∧ (∀ p, z.leads = false → z.physOf z.leader = some p → Runs .spareCopyComplete s
          (z.sendControl p none 7 (bytesOf r.toNat 8 ++ bytesOf z.logical.toNat 2 ++ [1])))))
    ∧ (∀ d p w bs, s.surv.draining = some d → s.surv.plan = some p → s.stew.program.aborted = false →
      s.surv.granUp = true →
      { s with surv := { s.surv with draining := none } }.readPieces (planState p (d.step.getLsbD 0)) (planSize p / 256)
        = (w, some bs) →
      let r := w.commitRecord d bs
      let g : Granary := { record := some r, state := stateBytes bs
                           tags := chunkTags (w.snapshotKey d.epoch.toNat d.time.toNat) bs.length }
      let z := { w with surv := { w.surv with
        granA := if d.slotB then w.surv.granA else g, granB := if d.slotB then g else w.surv.granB } }
      let v := if z.leads then z.setInterval else z
      Runs .snapshotDrainComplete s (if v.surv.snapAsked then v else v.noteTake r))

/-- The steward's own events and its copies and drains complete. Choices of the model in it: log entries 46, 62, 64, 70, 73, 74. -/
def Obligations.StewardWorks : Prop := Clause.StewardEventsAct ∧ Clause.CopiesAndDrainsComplete

/-! ## SMBus -/

/-- A module that answers on SMBus, at 0x1F until it has an address, sends the bytes that a read asks for, takes only the address
0x20 + POS and only the warm reset code 0x5A, and bounds a power cap by the grade's design power; every other data byte, and a
code that is not listed, is not acknowledged
(R445–R447, R507, R519). Choices of the model in it: log entries 12, 77. -/
def Obligations.SmbusAnswers : Prop :=
  ∀ s : State, s.smbAnswers = true →
    let bytes (i : Instr) (data : List Byte) : Prop := Runs i s (s.emit (.smb data))
    bytes .enumId ([s.stew.boardId, s.stew.pos.setWidth 8 ||| (s.stew.feedId.setWidth 8 <<< 4)]
      ++ bytesOf Config.serial.toNat 6)
    ∧ bytes .smbCap s.caps ∧ bytes .smbHalt s.haltBytes ∧ bytes .smbStatus [s.smbStatus]
    ∧ bytes .smbState [s.capState.setWidth 8]
    ∧ Runs .pwr s (s.sampleSensors.emit (.smb (bytesOf s.sampleSensors.pwrStatus.toNat 8)))
    ∧ Runs .temps s (s.sampleSensors.emit (.smb ((List.range 20).map s.sampleSensors.temperature)))
    ∧ (∀ w : SmbWrite, w.chainIn = s.stew.chainIn →
      (w.target ≠ s.stew.smbAddr.getD 0x1F → Runs (.enumAssign w) s s)
      ∧ (w.target = s.stew.smbAddr.getD 0x1F →
        (w.code = 1 → w.data.toNat = 0x20 + s.stew.pos.toNat → Runs (.enumAssign w) s
          { s with stew := { s.stew with smbAddr := some (w.data.setWidth 7), chainOut := true } })
        ∧ (w.code = 1 → w.data.toNat ≠ 0x20 + s.stew.pos.toNat → Runs (.enumAssign w) s (s.emit .nak))
        ∧ ((0x25 ≤ w.code.toNat ∨ (2 ≤ w.code.toNat ∧ w.code.toNat < 0x10)) → Runs (.enumAssign w) s (s.emit .nak))))
    ∧ (∀ a : BitVec 8,
      (a = 0x5A → Runs (.warm a) s (s.askWarm 3)) ∧ (a ≠ 0x5A → Runs (.warm a) s (s.emit .nak)))
    ∧ (∀ w : BitVec 16, ∃ z : State, Runs (.capWrite w) s z ∧ z.mem = s.mem ∧ z.fab = s.fab
      ∧ (w.toNat ≤ (designPower s.grade).toNat → z.power.cap = w)
      ∧ ((designPower s.grade).toNat < w.toNat → z.power.cap = designPower s.grade))

/-! ## Power, resets and heat -/

/-- Power-on without PGOOD leaves the rails asked for, and after 25 ms every rail stays off; with PGOOD and no failure the
bring-up runs and, in state 1, starts a ledger epoch; calibration gives each crossing whose token shows a slack of 2 or more its read pointer, and names the
domain of one that shows less; the straps name the device; state 6 follows a bring-up that took
1 s; a dip is noted; a power loss clears what does not persist; a warm reset that is asked for is carried out (R38, R364,
R469, R505, R508, R509, R511–R514, R521). Choices of the model in it: log entries 48, 49, 101, 133, 140. -/
def Obligations.PowerSequencesComplete : Prop :=
  ∀ s : State,
    (∀ o : BootOutcome, s.power.pgood = false → s.power.railsOff = false →
      let z := s.powerOff
      let z := { z with power := { modEn := true, modEnAt := z.clk.clk, cap := designPower z.grade } }
      let g := { z with power := { z.power with on := true, pgood := true, pgoodAt := z.clk.clk } }
      (o.pgood = false → Runs (.powerOn o) s z)
      ∧ (o.pgood = true → o.ready = false → Runs (.powerOn o) s g)
      ∧ (o.pgood = true → o.ready = true → (g.bringUp o 0).stew.state = 1 →
        Runs (.powerOn o) s (g.bringUp o 0).startEpoch)
      ∧ (o.pgood = true → o.ready = true → (g.bringUp o 0).stew.state ≠ 1 → Runs (.powerOn o) s (g.bringUp o 0)))
    ∧ (∀ o : BootOutcome,
      ((s.calibrate o).2 = none ↔ ∀ x ∈ crossings s.grade, ∃ k, slackOf o x.1.1 x.1.2 x.2 = some k ∧ 2 ≤ k)
      ∧ (∀ x ∈ crossings s.grade, ∀ k, slackOf o x.1.1 x.1.2 x.2 = some k → 2 ≤ k →
        Sparse.find? (128 * x.1.1 + x.1.2) (s.calibrate o).1.clk.crossings = some x.2)
      ∧ (∀ d, (s.calibrate o).2 = some d → ∃ x ∈ crossings s.grade, x.1.2 = d ∧
        ∀ k, slackOf o x.1.1 x.1.2 x.2 = some k → k < 2))
    ∧ Runs .powerLoss s { s.powerOff with power := { cap := designPower s.powerOff.grade } }
    ∧ (s.power.modEn = true → s.power.pgood = false → s.power.modEnAt + 25000 * usUnits ≤ s.clk.clk →
      Runs .pgoodTimeout s { s with power := { s.power with railsOff := true } })
    ∧ (s.power.pgood = true →
      (∀ (board : BitVec 8) (feed : BitVec 4) (pins : SlotPins), s.power.strapped = false →
        s.power.pgoodAt + 500 * usUnits ≤ s.clk.clk →
        Runs (.strapSample board feed pins) s { s with
          power := { s.power with strapped := true }
          stew := { s.stew with boardId := board, feedId := feed, pos := pins.pos, chainIn := pins.chainIn }
          heath := { s.heath with id := board.setWidth 12 * 16 + pins.pos.setWidth 12 } })
      ∧ (s.stew.state = 0 → s.power.pgoodAt + 1000000 * usUnits ≤ s.clk.clk →
        Runs .bringupTimeout s { s with stew := { s.stew with state := 6 } })
      ∧ Runs .undervoltageDip s { s with power := { s.power with uvSeen := true } }
      ∧ (∀ o, s.stew.warmAsked.isSome = true →
        let z := (if s.stewardResets then s.endTickets else s)
        (s.stewardResets = true → z.ticketsEnded = true) → (z.warmClear.bringUp o s.clk.step.toNat).stew.state ≠ 1 →
        Runs (.warmReset o) s (z.warmClear.bringUp o s.clk.step.toNat))
      ∧ (∀ o, s.stew.warmAsked.isSome = true → s.stewardResets = true → s.endTickets.ticketsEnded = false →
        Runs (.warmReset o) s s.endTickets)
      ∧ (∀ o w, s.stew.warmAsked.isSome = true → (s.stewardResets = true → s.endTickets.ticketsEnded = true) →
        (if s.stewardResets then s.endTickets else s).warmClear.bringUp o s.clk.step.toNat = w → w.stew.state = 1 →
        let v := if o.chainMacOk && w.vault.controlOk then
            (w.appendWith (plainRecord 7 (if s.stew.warmBy = 2 then 2 else 1) 0 0) w.imd).flushAppends w.vault.waiting
          else w.startEpoch
        Runs (.warmReset o) s { v.endTickets with house := { v.endTickets.house with
          stopped := !v.endTickets.ticketsEnded } }))

/-- A sensor at its threshold for 1 ms asks for a slower step, and one below its other threshold for 1 s for a faster one; a hold or
a trip is immediate, and a hold ends when the sensor has cooled; the average power against the cap asks for a slower step at once
and for a faster one after 1 s below 90 % of it (R506, R507, R516–R518). Choices of the model in it: log entries 76, 136. -/
def Obligations.HeatAndPowerAreLimited : Prop :=
  ∀ (s : State) (n : BitVec 5) (r : BitVec 16),
    let i := n.toNat
    let z := s.noteReading i r
    let limits := thresholds s.grade i
    let stands (m : SMap Nat) (k d : Nat) : Prop := ∃ t, Sparse.find? k m = some t ∧ t + d * usUnits ≤ s.clk.clk
    (i ≠ 20 →
      Sparse.get 0 z.power.readings i = r
      ∧ (limits.1 ≠ 0 → limits.1 ≤ r.toNat →
        Sparse.find? i z.power.above = some ((Sparse.find? i s.power.above).getD s.clk.clk))
      ∧ ((limits.1 = 0 ∨ r.toNat < limits.1) → Sparse.find? i z.power.above = none)
      ∧ (r.toNat < limits.2.1 → Sparse.find? i z.power.below = some ((Sparse.find? i s.power.below).getD s.clk.clk))
      ∧ (limits.2.1 ≤ r.toNat → Sparse.find? i z.power.below = none))
    ∧ (s.watches i = true →
      (s.stew.booted = true →
        (stands z.power.above i 1000 → Runs (.thermalStepDown n r) s ({ z with power := { z.power with
          thermalStep := slower z.wantedStep, above := Sparse.put i z.clk.clk z.power.above } }.followStep))
        ∧ (¬ stands z.power.above i 1000 → Runs (.thermalStepDown n r) s z)
        ∧ (stands z.power.below i 1000000 → Runs (.thermalStepUp n r) s ({ z with power := { z.power with
          thermalStep := faster z.power.thermalStep, below := Sparse.put i z.clk.clk z.power.below } }.followStep))
        ∧ (¬ stands z.power.below i 1000000 → Runs (.thermalStepUp n r) s z))
      ∧ (limits.2.2.1 ≠ 0 → limits.2.2.1 ≤ r.toNat → s.power.holders.contains i = false →
        Runs (.thermalHold n r) s ({ z with power := { z.power with holders := z.power.holders ++ [i] } }.requestHold
          .thermal z.fab.scc))
      ∧ (s.power.holders.contains i = true → r.toNat < limits.2.2.2.1 →
        let h := { z with power := { z.power with holders := z.power.holders.filter fun k => k != i } }
        (h.power.holders ≠ [] → Runs (.thermalHoldRelease n r) s h)
        ∧ (h.power.holders = [] → Runs (.thermalHoldRelease n r) s
          { h with fab := { h.fab with hold := { h.fab.hold with thermalOff := some h.clk.clk } } }))
      ∧ (limits.2.2.2.2 ≠ 0 → limits.2.2.2.2 ≤ r.toNat → s.power.trip = false → Runs (.trip n r) s (z.tripped n)))
    ∧ (s.watches 20 = true → s.stew.booted = true →
      let cap := s.power.cap.toNat
      let w := { s with power := { s.power with below := since s.power.below 20 s.clk.clk (r.toNat * 10 < cap * 9) } }
      (cap < r.toNat → Runs (.powerCapStep r) s { w with power := { w.power with powerStep := slower w.wantedStep } }.followStep)
      ∧ (r.toNat ≤ cap →
        (stands w.power.below 20 1000000 → Runs (.powerCapStep r) s { w with power := { w.power with
          powerStep := faster w.power.powerStep, below := Sparse.put 20 w.clk.clk w.power.below } }.followStep)
        ∧ (¬ stands w.power.below 20 1000000 → Runs (.powerCapStep r) s w)))

/-! ## Tallies and registers -/

/-- CLEAR restarts a tally, an event selection restarts it with the event or, for a code that its unit does not have, with
zeros; events of the cycle of such a write do not count, and a wrap wins over a write that clears OVF in its cycle; a latch
copies every count and a sample accounts the raw count; a register write changes the words at its address,
one at an unaligned address nothing, and one into a hole reports an address error and changes nothing (R32–R34, R527, R528,
R530, R531). -/
def Clause.TalliesAndRegistersTakeWrites : Prop :=
  ∀ (s : State) (w : Writer) (u : TallyUnit) (n : BitVec 4),
    (s.reaches w = true → tallyIn s.grade u = true → n.toNat < tallyCount u →
      let x := s.getTally u n.toNat
      let fresh : Tally := { x with count := 0, ovf := false, ext := 0, last := 0, quiet := true, wrapped := false }
      Runs (.clear w u n) s (s.setTally u n.toNat fresh)
      ∧ (∀ event qual : BitVec 8,
        (w = .jtag ∨ (event = (tallyDefault u n.toNat).event ∧ qual = (tallyDefault u n.toNat).qual)) →
        (tallyCodeOf u event = true → tallyQualOk event qual = true →
          Runs (.tallyEventSelect w u n event qual) s (s.setTally u n.toNat { fresh with event := event, qual := qual }))
        ∧ ((tallyCodeOf u event = false ∨ tallyQualOk event qual = false) →
          Runs (.tallyEventSelect w u n event qual) s (s.setTally u n.toNat { fresh with event := 0, qual := 0 }))))
    ∧ (s.reaches .steward = true → tallyIn s.grade u = true → n.toNat < tallyCount u →
      let x := s.getTally u n.toNat
      Runs (.tallySample u n) s (s.setTally u n.toNat
        { x with ext := x.ext + (x.count - x.last).setWidth 64, last := x.count, ovf := x.wrapped }))
    ∧ (∀ (x : Tally) (k : Nat),
      (x.quiet = true → x.add k = x)
      ∧ (x.quiet = false → 2 ^ 48 ≤ x.count.toNat + k → (x.add k).clearOvf.ovf = true))
    ∧ (s.reaches w = true → Runs (.tallyLatch w) s s.latchTallies)
    ∧ (∀ (a : BitVec 48) (v : BitVec 64),
      (∀ wide : Bool, (s.reaches w = false ∨ a.toNat % 4 ≠ 0 ∨ (wide = true ∧ a.toNat % 8 ≠ 0)) →
        Runs (.registerWrite w a v wide) s s)
      ∧ (∀ wide : Bool, s.reaches w = true → a.toNat % (if wide then 8 else 4) = 0 → s.regAt a.toNat = none →
        (s.isHole w wide a.toNat = true → Runs (.registerWrite w a v wide) s (s.emit (.addressError w a)))
        ∧ (s.isHole w wide a.toNat = false → Runs (.registerWrite w a v wide) s s))
      ∧ (∀ b off, s.reaches w = true → s.regAt a.toNat = some (b, off) →
        (a.toNat % 4 = 0 → Runs (.registerWrite w a v false) s (s.writeWord w b off (v.setWidth 32)))
        ∧ (a.toNat % 8 = 0 → Runs (.registerWrite w a v true) s
          ((s.writeWord w b off (v.setWidth 32)).writeWord w b (off + 4) (v.extractLsb' 32 32)))))

/-- A read in a hole returns zero and an address error, and one of a register the word at its offset. A register that is RW
reads as it was written, TIME_RATE as clamped, a W1C bit as it is after the write, HALT_STATUS and TILE_STATE, which are RO,
as before the write, and TIME_STEP and TALLY_LATCH, which are WO, as zero; the identity and the scan cells are those of the
grade (R8, R32, R34, R56, R180, R534, R542). -/
def Clause.RegistersReadBack : Prop :=
  (∀ (s : State) (a : Nat),
    (s.regAt a = none → tillAt a = none → s.readReg a = (0, true))
    ∧ (∀ n, s.regAt a = none → tillAt a = some n → s.readReg a = (s.tillRead n, false))
    ∧ (∀ b off, s.regAt a = some (b, off) → s.readReg a = (s.readWord b (off / 4 * 4), false)))
  ∧ (∀ (s : State) (w : Writer) (v : BitVec 32),
    (s.writeWord w (.io 0) 0x2020 v).readWord (.io 0) 0x2020 = v
    ∧ (s.writeWord w (.io 0) 0x1008 v).readWord (.io 0) 0x1008 = clampRate v
    ∧ (∀ t, (s.writeWord w (.tile t) 0x18 v).readWord (.tile t) 0x18 = s.readWord (.tile t) 0x18 &&& ~~~v)
    ∧ (∀ t, (s.writeWord w (.tile t) 0 v).readWord (.tile t) 0 = s.readWord (.tile t) 0)
    ∧ (s.writeWord w (.io 0) 0x2000 v).readWord (.io 0) 0x2000 = s.readWord (.io 0) 0x2000
    ∧ (s.anyRun = false → ∀ c i, c < 16383 → i < 16 →
      (s.writeWord w (.io 0) (0x01000000 + 64 * c + 4 * i) v).readWord (.io 0) (0x01000000 + 64 * c + 4 * i)
        = v &&& maskWord chanBits i)
    ∧ s.readWord (.io 0) 0x1010 = 0 ∧ s.readWord (.io 0) 0x1014 = 0 ∧ s.readWord (.io 0) 0x9B00 = 0)
  ∧ (∀ g : BitVec 2, (idcode g).extractLsb' 28 4 = 1 ∧ (idcode g).extractLsb' 12 16 = partNumber g
    ∧ (idcode g).extractLsb' 1 11 = 0x6B3 ∧ (idcode g).getLsbD 0 = true)
  ∧ partNumber 0 = 0x5346 ∧ partNumber 1 = 0x534C ∧ partNumber 2 = 0x5353
  ∧ (∀ (g : BitVec 2) (k n : Nat), (scanCell g (.hedge k n) = some true ↔ linkIn g k = true ∧ n < 32))

/-- Tallies and registers take writes, and registers read back. Choices of the model in it: log entries 78, 79, 80, 110, 116. -/
def Obligations.TalliesAndRegisters : Prop := Clause.TalliesAndRegistersTakeWrites ∧ Clause.RegistersReadBack

/-! ## What the commands compute -/

/-- The integer and bit operations of R113 lane by lane, and the rotation across lanes: sums, differences and products
modulo 2^32, shifts by SH modulo 32, SAR with the sign, ROT by SH lanes; FABS and FNEG change the sign bit only, SEL
takes A where C is not zero; none of them raises a flag. -/
def Obligations.IntegerLanesCompute : Prop :=
  ∀ (v : VSlot) (a b c : Vec) (i : Nat), i < 128 →
    let x := lane32 a i
    let y := lane32 b i
    let n := v.sh.toNat % 32
    let gives (o : LaneOp) (r : Nat) : Prop := lane32 (o.run v a b c).1 i = r ∧ (o.run v a b c).2 = 0
    gives opMov x ∧ gives opIadd ((x + y) % 2 ^ 32) ∧ (gives opIsub ((x + (2 ^ 32 - y)) % 2 ^ 32))
    ∧ gives opImul (x * y % 2 ^ 32) ∧ gives opAnd (x &&& y) ∧ gives opOr (x ||| y) ∧ gives opXor (x ^^^ y)
    ∧ gives opShl (x * 2 ^ n % 2 ^ 32) ∧ gives opShr (x / 2 ^ n)
    ∧ (x < 2 ^ 31 → gives opSar (x / 2 ^ n))
    ∧ (2 ^ 31 ≤ x → gives opSar (2 ^ 32 - 2 ^ (32 - n) + x / 2 ^ n))
    ∧ gives opRot (lane32 a ((i + v.sh.toNat) % 128))
    ∧ gives opFabs (x % 2 ^ 31) ∧ gives opFneg ((x + 2 ^ 31) % 2 ^ 32)
    ∧ gives opSel (if lane32 c i = 0 then y else x)

/-- The sum of an exact accumulator lane does not depend on the order of its addends, finite or not, and merging two
lanes does not depend on their order (R191–R193). -/
def Obligations.ExactSumsHaveNoOrder : Prop :=
  ∀ lane : Nat,
    (∀ x y : Sys2Proof.Machine.Num, exaAdd (exaAdd lane x) y = exaAdd (exaAdd lane y) x)
    ∧ (∀ other : Nat, exaSum lane other = exaSum other lane)
    ∧ (∀ (other : Nat) (x : Sys2Proof.Machine.Num), exaSum (exaAdd lane x) other = exaAdd (exaSum lane other) x)

/-- EKH64 is the function of R281, and for a fixed salt it is a bijection of 64-bit keys, so that two
different keys never share a hash under one salt. -/
def Obligations.EkhIsABijection : Prop :=
  (∀ k s : BitVec 64,
    let x := k ^^^ 0x5C3EA0F127D9B46B
    let x := x ^^^ (x >>> 31)
    let x := x * 0xC2B54D193A8F6E07
    let x := x ^^^ s
    let x := x ^^^ (x >>> 29)
    let x := x * 0x8E61F3A5D4729B1B
    ekh64 k s = x ^^^ (x >>> 32))
  ∧ ∀ s : BitVec 64, Function.Bijective fun k : BitVec 64 => ekh64 k s

/-- A take or a tap in cycle a compares the word's stamp with (a − L) mod 8; if they differ the tile requests a halt with
reason STAMP, which the halt record takes and the fabric stops for, and in either case the word reaches its SI end
and, if that has room, enters it at the end of the cycle (R74). -/
def Obligations.StampsAreCompared : Prop :=
  ∀ (s : State) (t : TileNo) (v : SSub) (w : Word) (x : Tile),
    let z := s.slotTile t.toNat 3
    let now := s.fab.scc
    let q : BitVec 6 := v.fin.setWidth 6
    let expected : BitVec 3 := (now - v.lat.setWidth 48).setWidth 3
    SlotOpen s t 3 → v.rsv = 0 → v.track.toNat < 48 → v.lat ≠ 0 →
    (z.bundle.any fun b => b.taken.contains (trackKey v.west v.track)) = false →
    (z.modBundle fun b => { b with taken := trackKey v.west v.track :: b.taken }).claimPush 3 q = .ok x →
    x.wordAt v.west v.track.toNat = some w →
    let r : Result := { dst := q, data := w.data.setWidth 4096, due := now, issued := now, iaddr := x.iaddr, slot := 3
                        flags := 0, mark := w.mark }
    let y := { x with arrived := x.arrived ++ [r] }
    let f : Failure := { slot := 3, reason := 1, subcode := 0, detail := stampDetail expected w.stamp v.track.toNat v.west }
    let got (u : Tile) (taken : Bool) : Tile :=
      if taken || u.marked v.west v.track.toNat then u.setWord v.west v.track.toNat none
      else { u with taps := (trackKey v.west v.track, q) :: u.taps }
    (w.stamp = expected →
      Issues (.take t v) s t (got y true) ∧ Issues (.tap t v) s t (got y false))
    ∧ (w.stamp ≠ expected →
      Issues (.take t v) s t (got (y.softFail now f) true) ∧ Issues (.tap t v) s t (got (y.softFail now f) false)
      ∧ ∀ (taken : Bool) (u : Tile), u = got (y.softFail now f) taken → (s.tile t.toNat).req = none → x.pad.fails = [] →
        (s.afterSlot t u).fab.haltRec = s.fab.haltRec.take t.toNat (tileSource t.toNat 3 z.iaddr) now 1 0 f.detail
        ∧ (s.afterSlot t u).fab.hold.halt = true ∧ (s.afterSlot t u).stew.program.aborted = true)
    ∧ (∀ z : Tile, (z.end64 q).length < qeDepth q →
      z.enterDst now q [r] = (z.setEnd64 q (z.end64 q ++ [{ data := w.data, cyc := now, mark := w.mark }]), none))

/-- A consumer rebuilds its value from a short beacon by the signed difference of the low 32 bits, which gives the counter's
value while the two differ by less than 2^31 ns, within the reading error of 4 ns; one without a valid
value waits for a full beacon and takes no PTP timestamp; without a beacon for 2^31 ns it has no valid value, and none
has one at reset (R53). The beacon's reading error is free within ±4 ns (R52). -/
def Clause.ConsumersRebuildTime : Prop :=
  (∀ (v : BitVec 64) (b : BitVec 32),
    let d : Nat := (b.toNat + 2 ^ 32 - v.toNat % 2 ^ 32) % 2 ^ 32
    rebuild v b = if d < 2 ^ 31 then v + BitVec.ofNat 64 d else v - BitVec.ofNat 64 (2 ^ 32 - d))
  ∧ (∀ v t : BitVec 64, -(2 ^ 31) ≤ (t - v).toInt → (t - v).toInt < 2 ^ 31 → rebuild v (t.setWidth 32) = t)
  ∧ (∀ (s : State) (d : BitVec 7) (missed : List (BitVec 7)), s.beaconDue = true → s.beaconFull = false →
    isConsumer s.grade d.toNat = true → d ∉ missed →
    let c : Consumer := Sparse.get {} s.clk.consumers d.toNat
    ∃ s' : State, Runs (.beacon false missed) s s' ∧
      (c.valid = false → Sparse.get {} s'.clk.consumers d.toNat = c)
      ∧ (c.valid = true → -(2 ^ 30) ≤ (s.now - c.value).toInt → (s.now - c.value).toInt ≤ 2 ^ 30 →
        let c' : Consumer := Sparse.get {} s'.clk.consumers d.toNat
        c'.lastBeacon = s.clk.clk ∧ c'.valid = true ∧ -4 ≤ (c'.value - s.now).toInt ∧ (c'.value - s.now).toInt ≤ 4))
  ∧ (∀ (s : State) port sub kind sent (oneStep : Bool) locked, s.subIn port sub = true →
    (s.subPort port sub).up = true →
    (Sparse.get ({} : Consumer) s.clk.consumers (90 + port.toNat)).valid = false →
    Runs (.ptpEventMessage port sub kind sent oneStep locked) s
      { s with clk := { s.clk with ptpLocked := locked, valid := s.clk.valid || locked } })
  ∧ (∀ (s : State) (d : BitVec 7),
    let c : Consumer := Sparse.get {} s.clk.consumers d.toNat
    c.valid = true → c.lastBeacon + 2 ^ 31 * nsUnits ≤ s.clk.clk →
    Runs (.beaconTimeout d) s { s with clk := { s.clk with
      consumers := Sparse.set {} s.clk.consumers d.toNat { c with valid := false } } })
  ∧ (∀ d : Nat, (Sparse.get ({} : Consumer) State.reset.clk.consumers d).valid = false)

/-- The time counter and its distribution, and what a consumer rebuilds. Choices of the model in it: log entries 8, 102, 103. -/
def Obligations.TimeIsDistributed : Prop := Clause.TimeIsDistributed ∧ Clause.ConsumersRebuildTime

/-- Of two halt requests the record keeps the one of the lower request cycle, and in one cycle the one of the lower rank,
whichever is made first: the record that both leave is the same (R91). -/
def Obligations.HaltRecordHasNoOrder : Prop :=
  ∀ (h : HaltRecord) (r1 r2 : Nat) (src1 src2 : BitVec 64) (c1 c2 : Scc) (why1 why2 : BitVec 8) (sub1 sub2 : BitVec 4)
    (d1 d2 : BitVec 32),
    h.valid = false → (c1 = c2 → r1 ≠ r2) → c1 - c2 ≠ 2 ^ 47 →
    (h.take r1 src1 c1 why1 sub1 d1).take r2 src2 c2 why2 sub2 d2
      = (h.take r2 src2 c2 why2 sub2 d2).take r1 src1 c1 why1 sub1 d1

/-! ## Memory -/

/-- An ST8 that completes stores its eight bytes, the least significant first, and a scheduled store that lands stores its
lines at the slice addresses of its access; every other byte of memory keeps its value (R6, R227, R278). Choices of the model in it: log entry 16. -/
def Obligations.StoresReachMemory : Prop :=
  ∀ s : State,
    (∀ (k : BitVec 4) (n : BitVec 32) (i : BitVec 20) (p : Post) (t : Thread) (a : Access) as (v : BitVec 64),
      s.postOf k.toNat n = some p → Sparse.find? i.toNat p.threads = some t → t.accesses = a :: as → a.kind = .st8 v →
      ∃ s', Runs (.scriptAccessComplete k n i false) s s' ∧
        let at' := k.toNat * 0x1000000000 + a.addr
        (∀ b, b < at' ∨ at' + 8 ≤ b → Mem.byte s'.mem b = Mem.byte s.mem b)
        ∧ (s.ecc = [] → Mem.readBytes s'.mem at' 8 = bytesOf v.toNat 8))
    ∧ (∀ (t : TileNo) w, s.running = true →
      ((s.tile t.toNat).pad.writes.find? fun v => v.due = s.fab.scc) = some w → w.spec = false →
      ∃ s', Runs (.scratchpadWriteLand t) s s' ∧
        let lines := padLines w.wide w.addr.toNat
        (∀ b, (∀ l ∈ lines, b < padAddr t.toNat (64 * l) ∨ padAddr t.toNat (64 * l) + 64 ≤ b) →
          Mem.byte s'.mem b = Mem.byte s.mem b)
        ∧ (∀ j l, lines[j]? = some l →
          Mem.line s'.mem (padAddr t.toNat (64 * l)) = w.data.extractLsb' (512 * j) 512))

/-! ## Frames and invariants -/

/-- The tile of a command that a tile's slot issues. -/
def slotTileOf : Instr → Option TileNo
  | .mma t _ | .ldw t _ | .mov t _ | .fadd t _ | .fsub t _ | .fmul t _ | .fma t _ | .fmax t _ | .fmin t _ | .fabs t _
  | .fneg t _ | .fcmpgt t _ | .fcmpeq t _ | .sel t _ | .exp t _ | .log t _ | .tanh t _ | .sigm t _ | .rsqrt t _
  | .iadd t _ | .isub t _ | .imul t _ | .and_ t _ | .or_ t _ | .xor t _ | .shl t _ | .shr t _ | .sar t _ | .rot t _
  | .cvtn t _ | .cvtw t _ | .rng t _ | .xclr t _ | .xadd t _ | .xsum t _ | .xrd t _ | .xout t _ | .xin t _
  | .dadd t _ | .dsub t _ | .dmul t _ | .dfma t _ | .f2d t _ | .d2f t _
  | .ld t _ | .st t _ | .ldv t _ | .stv t _ | .ocw t _ | .pget t _ | .pput t _ | .gpost t _
  | .take t _ | .tap t _ | .drive t _ | .move t _
  | .loop t _ | .loopEnd t _ _ | .jump t _ | .idle t _ | .endProgram t _ | .tadd t _ | .tsub t _ | .wait t _ | .drain t _
  | .farm t _ | .agset t _ | .agadd t _ | .eopen t _ | .eres t _ | .vbr t _ | .tsig t _ | .gen t _ | .nop t _
  | .reservedOpcodeIssue t _ => some t
  | _ => none

/-- A command of a tile's slot, whether it completes or halts, changes no byte of memory, no till, no other tile, no field,
no stack and nothing outside the fabric but the program's abort and the tallies (R98, R141, R142, R159). -/
def Obligations.SlotCommandsKeepTheRest : Prop :=
  ∀ (i : Instr) (t : TileNo) (s s' : State), slotTileOf i = some t → exec i s = .next s' →
    s'.mem = s.mem ∧ s'.ecc = s.ecc ∧ s'.fab.tills = s.fab.tills ∧ s'.fab.tillQueue = s.fab.tillQueue
    ∧ s'.fab.fields = s.fab.fields ∧ s'.fab.dies = s.fab.dies ∧ s'.fab.transits = s.fab.transits ∧ s'.fab.scc = s.fab.scc
    ∧ (∀ n, n ≠ t.toNat → s'.tile n = s.tile n)
    ∧ s'.heath = s.heath ∧ s'.house = s.house ∧ s'.vault = s.vault ∧ s'.surv = s.surv ∧ s'.power = s.power
    ∧ s'.clk = s.clk ∧ s'.egress = s.egress ∧ s'.pending = s.pending

/-- QUERY, LAST_RESULT, READ_HALT and the reading form of TILLS change the mailbox, its session and the tallies only: the
fabric, the clocks, the memory, the heath, the trust and survival state and the program keep their values (R431). -/
def Obligations.ReadingCommandsKeepTheRest : Prop :=
  ∀ (s s' : State) (f : Frame) (i : Instr),
    (i = .query f ∨ (∃ o, i = .lastResult f o) ∨ i = .readHalt f ∨ (∃ n c, i = .tillsRead f n c)) →
    exec i s = .next s' →
    s'.fab = s.fab ∧ s'.clk = s.clk ∧ s'.mem = s.mem ∧ s'.ecc = s.ecc ∧ s'.heath = s.heath ∧ s'.vault = s.vault
    ∧ s'.surv = s.surv ∧ s'.power = s.power ∧ s'.stew.program = s.stew.program ∧ s'.stew.state = s.stew.state
    ∧ s'.house.receipts = s.house.receipts ∧ s'.pending = s.pending

/-- A step takes one command from the front of the queue and puts none into it; with an empty queue it puts in the commands of
the next bundle, if one is due, and changes nothing else, or the queue stays empty while a period passes. -/
def Obligations.StepTakesOneCommand : Prop :=
  ∀ s s' : State, step s = .next s' →
    (s.pending ≠ [] → s'.pending = s.pending.tail)
    ∧ (s.pending = [] → (∀ cs, s.bundleNext = some cs → s' = { s with pending := cs })
      ∧ (s.bundleNext = none → s'.pending = []))

/-- Every command answers a next state: the SG4 turns every error into an effect on its state (R4, R90, R141, R425). -/
def Obligations.EveryCommandAnswersNext : Prop :=
  ∀ (c : Instr) (s : State), ∃ s', Runs c s s'

/-- Every step keeps the memory in its canonical form: addresses strictly rising and no entry equal to the zero that an
unlisted address reads as. Choices of the model in it: log entry 16. -/
def Obligations.StepsKeepMemoryCanonical : Prop :=
  ∀ s s' : State, s.MemoryOk → step s = .next s' → s'.MemoryOk

/-- Right after power-on reset: CAP_1.STATE 0, frequency step 7, every till and every byte of memory zero, no halt recorded,
no hold, no link up, no session and an empty queue (R47, R95, R296, R443, R508, R512). Choices of the model in it: log entries 13, 16, 17, 140. -/
def Obligations.ResetIsClean : Prop :=
  State.reset.MemoryOk ∧ State.reset.QueueOk ∧ State.reset.pending = [] ∧ State.reset.stew.state = 0
    ∧ State.reset.clk.step = 7 ∧ (∀ n, State.reset.till n = 0) ∧ (∀ a, Mem.byte State.reset.mem a = 0)
    ∧ State.reset.fab.haltRec.valid = false ∧ State.reset.fab.hold.held = false
    ∧ (∀ k, (State.reset.link k).st ≠ 3) ∧ State.reset.house.sessions = []
end

