-- ==== Sys2Proof/Laws/Command.lean ====
section
/-!
SUPPORT. What a mailbox frame can do: an accepted one runs its command's body, and its reply says what came of it.
-/
namespace Sys2Proof.Machine

/-- A frame whose datagram is accepted opens its session. -/
theorem State.openFrame_hears {s : State} {f : Frame} {y : Session} (h : Hears s f y) :
    s.openFrame f = (s.heard f y, true) := by
  obtain ⟨h1, h2, h3, ⟨h4, h5, h6⟩, h7⟩ := h
  simp [State.openFrame, State.hear, State.heard, h1, h2, h3, h4, h5, h6, h7]

/-- What stands before the body of an accepted command does not stop it. -/
theorem State.command_accepted {s : State} {f : Frame} {c : Command} {y : Session} (body : Body)
    (h : Accepts s f c y) (hc : c.code ≠ 0x02) :
    s.command f c body = match body (s.heard f y) with
      | .error r => (s.heard f y).complete f.mb f.tag c.code r []
      | .ok (t, .refused r) => t.complete f.mb f.tag c.code r []
      | .ok (t, .result data) => t.answers f c.code data
      | .ok (t, .later) =>
        { t with stew := { t.stew with stepReplies := t.stew.stepReplies ++ [(f.mb, f.tag)] } }.count .steward 0xA6 0 1
      | .ok (t, .long w) => t.begins f c.code w := by
  obtain ⟨h1, hf, ⟨h2, hs⟩, ⟨hk, h3⟩, hl, h4, h5⟩ := h
  have h2' : (s.heard f y).stew.longOp = none := h2
  have h4' : ((s.heard f y).mailbox f.mb).tag ≠ some f.tag := h4.resolve_left hc
  unfold State.command State.runFrame
  have hc' : ¬ c.code = 2#8 := hc
  simp only [State.openFrame_hears h1, hl, hs, hf, hk, h2', h3, h5, State.answers, State.begins]
  rcases body (s.heard f y) with r | ⟨t, d⟩
  · simp [h4']
  · cases d <;> simp [h4', hc']

/-- An accepted command that gives a result answers with it. -/
theorem State.command_result {s t : State} {f : Frame} {c : Command} {y : Session} {body : Body} {data : List Byte}
    (h : Accepts s f c y) (hc : c.code ≠ 0x02) (hb : body (s.heard f y) = .ok (t, .result data)) :
    s.command f c body = t.answers f c.code data := by
  rw [State.command_accepted body h hc, hb]

/-- An accepted command that starts a long operation answers BUSY. -/
theorem State.command_long {s t : State} {f : Frame} {c : Command} {y : Session} {body : Body} {w : LongWork}
    (h : Accepts s f c y) (hc : c.code ≠ 0x02) (hb : body (s.heard f y) = .ok (t, .long w)) :
    s.command f c body = t.begins f c.code w := by
  rw [State.command_accepted body h hc, hb]

/-- An accepted command whose own checks refuse it is answered with the refusal, and nothing else changes. -/
theorem State.command_refused {s : State} {f : Frame} {c : Command} {y : Session} {body : Body} {r : Refused}
    (h : Accepts s f c y) (hc : c.code ≠ 0x02) (hb : body (s.heard f y) = .error r) :
    s.command f c body = (s.heard f y).complete f.mb f.tag c.code r [] := by
  rw [State.command_accepted body h hc, hb]

end Sys2Proof.Machine
end

