-- ==== Sys2Proof/Laws/Issue.lean ====
section
/-!
SUPPORT. What a slot operation can do: in an open slot its body decides, and in no other slot does anything but the trial of a
failed bundle change.
-/
namespace Sys2Proof.Machine

/-- In an open slot, a body that passes its checks leaves the tile as it says. -/
theorem State.issue_ok {s : State} {t : TileNo} {slot : Nat} {body : IssueEnv → Tile → Except Failure Tile}
    {uses : Bundle → Bundle} {y : Tile} (h : SlotOpen s t slot)
    (hb : body (s.issueEnv t.toNat) (s.slotTile t.toNat slot) = .ok y) :
    s.issue t slot body uses = s.afterSlot t y := by
  obtain ⟨h1, h2, h3, h4, h5, h6⟩ := h
  have h4' : ¬(((s.tile t.toNat).bundleIn s.fab.scc).isNone && !(s.tile t.toNat).issues s.fab.scc) = true := by
    rcases h4 with h | h <;> simp [h]
    cases hb' : (s.tile t.toNat).bundleIn s.fab.scc <;> simp_all
  unfold State.issue
  simp only [h1, h2, h3, h5, if_neg h6, h4', hb, Bool.not_true, Bool.or_self, Bool.false_eq_true, if_false, State.afterSlot]

/-- In an open slot, a body that fails a check halts the tile with that failure. -/
theorem State.issue_error {s : State} {t : TileNo} {slot : Nat} {body : IssueEnv → Tile → Except Failure Tile}
    {uses : Bundle → Bundle} {f : Failure} (h : SlotOpen s t slot)
    (hb : body (s.issueEnv t.toNat) (s.slotTile t.toNat slot) = .error f) :
    s.issue t slot body uses
      = (s.openSlot t.toNat).failIssue t.toNat ((s.slotTile t.toNat slot).modBundle uses) f := by
  obtain ⟨h1, h2, h3, h4, h5, h6⟩ := h
  have h4' : ¬(((s.tile t.toNat).bundleIn s.fab.scc).isNone && !(s.tile t.toNat).issues s.fab.scc) = true := by
    rcases h4 with h | h <;> simp [h]
    cases hb' : (s.tile t.toNat).bundleIn s.fab.scc <;> simp_all
  unfold State.issue
  simp only [h1, h2, h3, h5, if_neg h6, h4', hb, Bool.not_true, Bool.or_self, Bool.false_eq_true, if_false]

/-- While no schedule cycle runs, no slot operation changes anything. -/
theorem State.issue_of_stands {s : State} {t : TileNo} {slot : Nat} {body : IssueEnv → Tile → Except Failure Tile}
    {uses : Bundle → Bundle} (h : s.running = false) : s.issue t slot body uses = s := by
  simp [State.issue, h]

@[simp] theorem issueEnv_now (s : State) (n : Nat) : (s.issueEnv n).now = s.fab.scc := rfl
@[simp] theorem issueEnv_tile (s : State) (n : Nat) : (s.issueEnv n).tile = n := rfl
@[simp] theorem issueEnv_grade (s : State) (n : Nat) : (s.issueEnv n).grade = s.grade := rfl

@[simp] theorem except_ok_bind {ε α β : Type} (a : α) (f : α → Except ε β) : (Except.ok a >>= f) = f a := rfl
@[simp] theorem except_error_bind {ε α β : Type} (e : ε) (f : α → Except ε β) :
    ((Except.error e : Except ε α) >>= f) = .error e := rfl

@[simp] theorem check_true (f : Failure) : check true f = .ok () := rfl
@[simp] theorem check_false (f : Failure) : check false f = .error f := rfl

/-- A queue end with a word that can be popped gives that word. -/
theorem Tile.pop64_ok {x : Tile} {now : Scc} {slot : Nat} {q : BitVec 6} {e : Entry} {es : List Entry}
    (h : x.CanPop now q e es) : x.pop64 now slot q = .ok (e.data, x.afterPop q e es) := by
  obtain ⟨h1, h2, h3, h4⟩ := h
  simp [Tile.pop64, h1, h2, h3, Tile.afterPop]
  exact h4

/-- Outside an open group a posted operation sets out at once. -/
theorem Tile.post_goes {x : Tile} {now : Scc} {slot : Nat} {p : Posted} {go : Tile → Tile}
    (h : x.speculative now = false) : x.post now slot p go = .ok (go x) := by
  simp [Tile.post, h]

/-- In an open group with room a posted operation waits in the operation escrow queue. -/
theorem Tile.post_waits {x : Tile} {now : Scc} {slot : Nat} {p : Posted} {go : Tile → Tile}
    (h : x.speculative now = true) (hl : x.heldCount < 64) :
    x.post now slot p go = .ok { x with esc := { x.esc with held := x.esc.held ++ [(now, p)] } } := by
  simp [Tile.post, h, Nat.not_le.mpr hl]

/-- Leaving the bundle as it is leaves the tile as it is. -/
@[simp] theorem Tile.modBundle_same (x : Tile) : x.modBundle (fun b => b) = x := by
  cases hb : x.bundle <;> cases x <;> simp_all [Tile.modBundle]

end Sys2Proof.Machine
end

