-- ==== Sys2Proof/Laws/Script.lean ====
section
/-!
SUPPORT. What a script instruction can do: for an item that can run it, its body decides.
-/
namespace Sys2Proof.Machine

/-- An instruction whose body gives a thread leaves that thread. -/
theorem State.script_ok {s : State} {k : BitVec 4} {post : BitVec 32} {item : BitVec 20} {o : ScriptOp} {n : Needs}
    {body : Post → Thread → Except ScriptFault Thread} {p : Post} {t t' : Thread} (h : ScriptOpen s k post item o n p t)
    (hb : body p { t with pc := t.pc + 1, count := t.count + 1 } = .ok t') :
    s.script k post item o n body = s.afterScript k post item t' := by
  obtain ⟨h1, ⟨h2, h2'⟩, h3, h4, ⟨h5, h5'⟩, h6⟩ := h
  simp [State.script, h1, h2, h2', h3, h4, h6, Nat.not_lt.mpr h5, Nat.not_le.mpr h5', hb, State.afterScript]

/-- An instruction whose body faults stops its post. -/
theorem State.script_error {s : State} {k : BitVec 4} {post : BitVec 32} {item : BitVec 20} {o : ScriptOp} {n : Needs}
    {body : Post → Thread → Except ScriptFault Thread} {p : Post} {t : Thread} {f : ScriptFault}
    (h : ScriptOpen s k post item o n p t) (hb : body p { t with pc := t.pc + 1, count := t.count + 1 } = .error f) :
    s.script k post item o n body = s.scriptFault k.toNat p t.pc f := by
  obtain ⟨h1, ⟨h2, h2'⟩, h3, h4, ⟨h5, h5'⟩, h6⟩ := h
  simp [State.script, h1, h2, h2', h3, h4, h6, Nat.not_lt.mpr h5, Nat.not_le.mpr h5', hb]

end Sys2Proof.Machine
end

