-- ==== Sys2Proof/Laws/Sparse.lean ====
section
/-!
SUPPORT. The laws of sparse tables and of the byte memory: reading back what was written, other keys unchanged, and the
canonical form kept by every operation.
-/
namespace Sys2Proof.Machine

/-! ## Reading after writing -/

theorem Sparse.find?_erase_self {α : Type} (k : Nat) (m : SMap α) : Sparse.find? k (Sparse.erase k m) = none := by
  induction m with
  | nil => rfl
  | cons e m ih =>
    obtain ⟨j, a⟩ := e
    by_cases h : j = k
    · simpa [Sparse.erase, h] using ih
    · simpa [Sparse.erase, Sparse.find?, h] using ih

theorem Sparse.find?_erase_other {α : Type} {j k : Nat} (h : j ≠ k) (m : SMap α) :
    Sparse.find? j (Sparse.erase k m) = Sparse.find? j m := by
  induction m with
  | nil => rfl
  | cons e m ih =>
    obtain ⟨i, a⟩ := e
    by_cases hi : i = k
    · have : ¬ i = j := fun e => h (e ▸ hi)
      simpa [Sparse.erase, Sparse.find?, hi, this, Ne.symm h] using ih
    · by_cases hj : i = j
      · simp [Sparse.erase, Sparse.find?, hj, h]
      · simpa [Sparse.erase, Sparse.find?, hi, hj] using ih

theorem Sparse.find?_put_self {α : Type} (k : Nat) (v : α) (m : SMap α) :
    Sparse.find? k (Sparse.put k v m) = some v := by
  induction m with
  | nil => simp [Sparse.put, Sparse.find?]
  | cons e m ih =>
    obtain ⟨j, a⟩ := e
    simp only [Sparse.put]
    split
    · simp [Sparse.find?]
    · split
      · simp [Sparse.find?]
      · next h _ => simpa [Sparse.find?, h] using ih

theorem Sparse.find?_put_other {α : Type} {j k : Nat} (h : j ≠ k) (v : α) (m : SMap α) :
    Sparse.find? j (Sparse.put k v m) = Sparse.find? j m := by
  have h' : ¬ k = j := fun e => h e.symm
  induction m with
  | nil => simp [Sparse.put, Sparse.find?, h']
  | cons e m ih =>
    obtain ⟨i, a⟩ := e
    simp only [Sparse.put]
    split
    · next hi => simp [Sparse.find?, hi, h']
    · split
      · simp [Sparse.find?, h']
      · by_cases hj : i = j
        · simp [Sparse.find?, hj]
        · simpa [Sparse.find?, hj] using ih

/-- A key reads back what was written to it. -/
@[simp] theorem Sparse.get_set_self {α : Type} [DecidableEq α] (d : α) (m : SMap α) (k : Nat) (v : α) :
    Sparse.get d (Sparse.set d m k v) k = v := by
  unfold Sparse.get Sparse.set
  split
  · next h => simp [Sparse.find?_erase_self, h]
  · simp [Sparse.find?_put_self]

/-- A write leaves every other key alone. -/
theorem Sparse.get_set_other {α : Type} [DecidableEq α] {j k : Nat} (h : j ≠ k) (d : α) (m : SMap α) (v : α) :
    Sparse.get d (Sparse.set d m k v) j = Sparse.get d m j := by
  unfold Sparse.get Sparse.set
  split
  · rw [Sparse.find?_erase_other h]
  · rw [Sparse.find?_put_other h]

/-- What a map reads after one entry has been set. -/
theorem Sparse.get_set {α : Type} [DecidableEq α] (d : α) (m : SMap α) (k j : Nat) (v : α) :
    Sparse.get d (Sparse.set d m k v) j = if j = k then v else Sparse.get d m j := by
  by_cases h : j = k
  · subst h; simp
  · rw [if_neg h, Sparse.get_set_other h]

/-- A byte reads back what was stored. -/
@[simp] theorem Mem.byte_setByte_self (m : Memory) (a : Nat) (v : Byte) : Mem.byte (Mem.setByte m a v) a = v :=
  Sparse.get_set_self 0 m a v

/-- Storing a byte leaves every other byte alone. -/
theorem Mem.byte_setByte_other {a b : Nat} (h : b ≠ a) (m : Memory) (v : Byte) :
    Mem.byte (Mem.setByte m a v) b = Mem.byte m b :=
  Sparse.get_set_other h 0 m v

/-- A stored number changes no byte outside it. -/
theorem Mem.byte_writeNat_other {b : Nat} (n : Nat) : ∀ (m : Memory) (a v : Nat), b < a ∨ a + n ≤ b →
    Mem.byte (Mem.writeNat m a n v) b = Mem.byte m b := by
  induction n with
  | zero => intros; rfl
  | succ n ih =>
    intro m a v h
    rw [Mem.writeNat, ih _ _ _ (by omega), Mem.byte_setByte_other (by omega)]

/-- A number reads back as it was stored. -/
theorem Mem.readNat_writeNat (n : Nat) : ∀ (m : Memory) (a v : Nat), Mem.readNat (Mem.writeNat m a n v) a n = v % 256 ^ n := by
  have frame : ∀ n (m m' : Memory) a, (∀ b, a ≤ b → Mem.byte m b = Mem.byte m' b) → Mem.readNat m a n = Mem.readNat m' a n := by
    intro n
    induction n with
    | zero => intros; rfl
    | succ n ih =>
      intro m m' a h
      rw [Mem.readNat, Mem.readNat, h a (Nat.le_refl a), ih m m' (a + 1) fun b hb => h b (by omega)]
  induction n with
  | zero => intro m a v; simp [Mem.readNat, Nat.mod_one]
  | succ n ih =>
    intro m a v
    rw [Mem.writeNat, Mem.readNat, ih, Mem.byte_writeNat_other _ _ _ _ (by omega), Mem.byte_setByte_self, Nat.pow_succ,
      Nat.mul_comm (256 ^ n), Nat.mod_mul, BitVec.toNat_ofNat]

/-- A line reads back as it was stored. -/
@[simp] theorem Mem.line_setLine_self (m : Memory) (a : Nat) (v : Line) : Mem.line (Mem.setLine m a v) a = v := by
  apply BitVec.eq_of_toNat_eq
  rw [Mem.line, Mem.setLine, Mem.readNat_writeNat, BitVec.toNat_ofNat]
  have : v.toNat < 2 ^ 512 := v.isLt
  rw [show (256 : Nat) = 2 ^ 8 from rfl, ← Nat.pow_mul, Nat.mod_mod, Nat.mod_eq_of_lt this]

/-- A stored line changes no byte outside it. -/
theorem Mem.byte_setLine_other {a b : Nat} (h : b < a ∨ a + 64 ≤ b) (m : Memory) (v : Line) :
    Mem.byte (Mem.setLine m a v) b = Mem.byte m b :=
  Mem.byte_writeNat_other 64 m a v.toNat h

/-! ## The canonical form -/

/-- The bound of a canonical tail may be lowered. -/
theorem Sparse.wfAbove_weaken {α : Type} [DecidableEq α] {d : α} {lo : Nat} {m : SMap α}
    (h : Sparse.wfAbove d (some lo) m = true) : Sparse.wfAbove d none m = true := by
  cases m with
  | nil => rfl
  | cons e m => simp_all [Sparse.wfAbove]

theorem Sparse.wfAbove_lower {α : Type} [DecidableEq α] {d : α} {lo hi : Nat} {m : SMap α} (hl : lo ≤ hi)
    (h : Sparse.wfAbove d (some hi) m = true) : Sparse.wfAbove d (some lo) m = true := by
  cases m with
  | nil => rfl
  | cons e m =>
    simp only [Sparse.wfAbove, Bool.and_eq_true, decide_eq_true_eq] at h ⊢
    exact ⟨⟨by omega, h.1.2⟩, h.2⟩

/-- Leaving entries out keeps the canonical form. -/
theorem Sparse.wfAbove_filter {α : Type} [DecidableEq α] {d : α} (p : Nat × α → Bool) (m : SMap α) :
    ∀ lo, Sparse.wfAbove d lo m = true → Sparse.wfAbove d lo (m.filter p) = true := by
  induction m with
  | nil => intro lo _; cases lo <;> rfl
  | cons e m ih =>
    intro lo h
    simp only [Sparse.wfAbove, Bool.and_eq_true] at h
    by_cases hp : p e = true
    · simp only [List.filter_cons, hp, if_true, Sparse.wfAbove, Bool.and_eq_true]
      exact ⟨h.1, ih _ h.2⟩
    · simp only [List.filter_cons, hp, Bool.false_eq_true, if_false]
      have h2 := ih _ h.2
      cases lo with
      | none => exact Sparse.wfAbove_weaken h2
      | some l => exact Sparse.wfAbove_lower (by have := h.1.1; simp at this; omega) h2

theorem Sparse.wfAbove_put {α : Type} [DecidableEq α] {d v : α} {k : Nat} (hv : v ≠ d) (m : SMap α) :
    ∀ lo : Option Nat, (∀ l, lo = some l → l < k) → Sparse.wfAbove d lo m = true →
      Sparse.wfAbove d lo (Sparse.put k v m) = true := by
  induction m with
  | nil => intro lo hl _; cases lo <;> simp_all [Sparse.put, Sparse.wfAbove]
  | cons e m ih =>
    obtain ⟨j, a⟩ := e
    intro lo hl h
    simp only [Sparse.wfAbove, Bool.and_eq_true, bne_iff_ne, ne_eq] at h
    simp only [Sparse.put]
    split
    · next hj =>
      subst hj
      simp only [Sparse.wfAbove, Bool.and_eq_true, bne_iff_ne, ne_eq]
      exact ⟨⟨h.1.1, hv⟩, h.2⟩
    · split
      · next hj hk =>
        simp only [Sparse.wfAbove, Bool.and_eq_true, bne_iff_ne, ne_eq, decide_eq_true_eq]
        refine ⟨⟨?_, hv⟩, ⟨hk, h.1.2⟩, h.2⟩
        cases lo with
        | none => rfl
        | some l => simpa using hl l rfl
      · next hj hk =>
        simp only [Sparse.wfAbove, Bool.and_eq_true, bne_iff_ne, ne_eq]
        refine ⟨h.1, ih (some j) ?_ h.2⟩
        intro l hl'
        cases hl'
        omega

/-- A write keeps the canonical form. -/
theorem Sparse.wf_set {α : Type} [DecidableEq α] {d : α} {m : SMap α} (h : Sparse.wf d m = true) (k : Nat) (v : α) :
    Sparse.wf d (Sparse.set d m k v) = true := by
  unfold Sparse.set
  split
  · exact Sparse.wfAbove_filter _ _ _ h
  · next hv => exact Sparse.wfAbove_put hv m none (by simp) h

theorem Memory.wf_setByte {m : Memory} (h : m.wf = true) (a : Nat) (v : Byte) : Memory.wf (Mem.setByte m a v) = true :=
  Sparse.wf_set h a v

theorem Memory.wf_filter {m : Memory} (h : m.wf = true) (p : Host.Cell → Bool) : Memory.wf (m.filter p) = true :=
  Sparse.wfAbove_filter p m none h

theorem Memory.wf_writeNat (n : Nat) : ∀ {m : Memory} (_ : m.wf = true) (a v : Nat), Memory.wf (Mem.writeNat m a n v) = true := by
  induction n with
  | zero => intro m h a v; exact h
  | succ n ih => intro m h a v; exact ih (Memory.wf_setByte h _ _) _ _

theorem Memory.wf_setLine {m : Memory} (h : m.wf = true) (a : Nat) (v : Line) : Memory.wf (Mem.setLine m a v) = true :=
  Memory.wf_writeNat 64 h a v.toNat

theorem Memory.wf_writeBytes (bs : List Byte) : ∀ {m : Memory} (_ : m.wf = true) (a : Nat),
    Memory.wf (Mem.writeBytes m a bs) = true := by
  induction bs with
  | nil => intro m h a; exact h
  | cons b bs ih => intro m h a; exact ih (Memory.wf_setByte h _ _) _

theorem Memory.wf_clear {m : Memory} (h : m.wf = true) (a n : Nat) : Memory.wf (Mem.clear m a n) = true :=
  Memory.wf_filter h _

/-- Any run of byte stores keeps the canonical form. -/
theorem Memory.wf_foldl {β : Type} (f : Memory → β → Memory) (hf : ∀ m b, Memory.wf m = true → Memory.wf (f m b) = true)
    (l : List β) : ∀ {m : Memory}, m.wf = true → Memory.wf (l.foldl f m) = true := by
  induction l with
  | nil => intro m h; exact h
  | cons b l ih => intro m h; exact ih (hf _ _ h)

theorem Memory.wf_copy {m : Memory} (h : m.wf = true) (src dst n : Nat) : Memory.wf (Mem.copy m src dst n) = true :=
  Memory.wf_foldl _ (fun _ _ h => Memory.wf_setByte h _ _) _ (Memory.wf_clear h dst n)

theorem Memory.wf_fill (f : Nat → Byte) {m : Memory} (h : m.wf = true) (a n : Nat) :
    Memory.wf (Mem.fill f m a n) = true := by
  induction n with
  | zero => exact h
  | succ n ih => exact Memory.wf_setByte ih _ _

end Sys2Proof.Machine
end

