-- ==== Sys2Proof/Laws/State.lean ====
section
/-!
SUPPORT. What each named update of the state leaves alone, field by field, and what it stores reads back as: true by
unfolding, so that no later proof unfolds a record update.
-/
namespace Sys2Proof.Machine

/-! ## setTile -/

@[simp] theorem State.setTile_clk (s : State) (t : Nat) (x : Tile) : (s.setTile t x).clk = s.clk := rfl
@[simp] theorem State.setTile_heath (s : State) (t : Nat) (x : Tile) : (s.setTile t x).heath = s.heath := rfl
@[simp] theorem State.setTile_house (s : State) (t : Nat) (x : Tile) : (s.setTile t x).house = s.house := rfl
@[simp] theorem State.setTile_stew (s : State) (t : Nat) (x : Tile) : (s.setTile t x).stew = s.stew := rfl
@[simp] theorem State.setTile_vault (s : State) (t : Nat) (x : Tile) : (s.setTile t x).vault = s.vault := rfl
@[simp] theorem State.setTile_surv (s : State) (t : Nat) (x : Tile) : (s.setTile t x).surv = s.surv := rfl
@[simp] theorem State.setTile_power (s : State) (t : Nat) (x : Tile) : (s.setTile t x).power = s.power := rfl
@[simp] theorem State.setTile_mem (s : State) (t : Nat) (x : Tile) : (s.setTile t x).mem = s.mem := rfl
@[simp] theorem State.setTile_ecc (s : State) (t : Nat) (x : Tile) : (s.setTile t x).ecc = s.ecc := rfl
@[simp] theorem State.setTile_egress (s : State) (t : Nat) (x : Tile) : (s.setTile t x).egress = s.egress := rfl
@[simp] theorem State.setTile_fresh (s : State) (t : Nat) (x : Tile) : (s.setTile t x).fresh = s.fresh := rfl
@[simp] theorem State.setTile_pending (s : State) (t : Nat) (x : Tile) : (s.setTile t x).pending = s.pending := rfl
@[simp] theorem State.setTile_fab_saves (s : State) (t : Nat) (x : Tile) :
    (s.setTile t x).fab.saves = s.fab.saves := rfl
@[simp] theorem State.setTile_fab_trials (s : State) (t : Nat) (x : Tile) :
    (s.setTile t x).fab.trials = s.fab.trials := rfl
@[simp] theorem State.setTile_fab_fields (s : State) (t : Nat) (x : Tile) :
    (s.setTile t x).fab.fields = s.fab.fields := rfl
@[simp] theorem State.setTile_fab_dies (s : State) (t : Nat) (x : Tile) : (s.setTile t x).fab.dies = s.fab.dies := rfl
@[simp] theorem State.setTile_fab_transits (s : State) (t : Nat) (x : Tile) :
    (s.setTile t x).fab.transits = s.fab.transits := rfl
@[simp] theorem State.setTile_fab_scc (s : State) (t : Nat) (x : Tile) : (s.setTile t x).fab.scc = s.fab.scc := rfl
@[simp] theorem State.setTile_fab_hold (s : State) (t : Nat) (x : Tile) : (s.setTile t x).fab.hold = s.fab.hold := rfl
@[simp] theorem State.setTile_fab_haltRec (s : State) (t : Nat) (x : Tile) :
    (s.setTile t x).fab.haltRec = s.fab.haltRec := rfl
@[simp] theorem State.setTile_fab_drains (s : State) (t : Nat) (x : Tile) :
    (s.setTile t x).fab.drains = s.fab.drains := rfl
@[simp] theorem State.setTile_fab_tills (s : State) (t : Nat) (x : Tile) :
    (s.setTile t x).fab.tills = s.fab.tills := rfl
@[simp] theorem State.setTile_fab_tillQueue (s : State) (t : Nat) (x : Tile) :
    (s.setTile t x).fab.tillQueue = s.fab.tillQueue := rfl
@[simp] theorem State.setTile_fab_beat (s : State) (t : Nat) (x : Tile) : (s.setTile t x).fab.beat = s.fab.beat := rfl

/-! ## setField -/

@[simp] theorem State.setField_clk (s : State) (f : Nat) (x : Field) : (s.setField f x).clk = s.clk := rfl
@[simp] theorem State.setField_heath (s : State) (f : Nat) (x : Field) : (s.setField f x).heath = s.heath := rfl
@[simp] theorem State.setField_house (s : State) (f : Nat) (x : Field) : (s.setField f x).house = s.house := rfl
@[simp] theorem State.setField_stew (s : State) (f : Nat) (x : Field) : (s.setField f x).stew = s.stew := rfl
@[simp] theorem State.setField_vault (s : State) (f : Nat) (x : Field) : (s.setField f x).vault = s.vault := rfl
@[simp] theorem State.setField_surv (s : State) (f : Nat) (x : Field) : (s.setField f x).surv = s.surv := rfl
@[simp] theorem State.setField_power (s : State) (f : Nat) (x : Field) : (s.setField f x).power = s.power := rfl
@[simp] theorem State.setField_mem (s : State) (f : Nat) (x : Field) : (s.setField f x).mem = s.mem := rfl
@[simp] theorem State.setField_ecc (s : State) (f : Nat) (x : Field) : (s.setField f x).ecc = s.ecc := rfl
@[simp] theorem State.setField_egress (s : State) (f : Nat) (x : Field) : (s.setField f x).egress = s.egress := rfl
@[simp] theorem State.setField_fresh (s : State) (f : Nat) (x : Field) : (s.setField f x).fresh = s.fresh := rfl
@[simp] theorem State.setField_pending (s : State) (f : Nat) (x : Field) : (s.setField f x).pending = s.pending := rfl
@[simp] theorem State.setField_fab_tiles (s : State) (f : Nat) (x : Field) :
    (s.setField f x).fab.tiles = s.fab.tiles := rfl
@[simp] theorem State.setField_fab_saves (s : State) (f : Nat) (x : Field) :
    (s.setField f x).fab.saves = s.fab.saves := rfl
@[simp] theorem State.setField_fab_trials (s : State) (f : Nat) (x : Field) :
    (s.setField f x).fab.trials = s.fab.trials := rfl
@[simp] theorem State.setField_fab_dies (s : State) (f : Nat) (x : Field) :
    (s.setField f x).fab.dies = s.fab.dies := rfl
@[simp] theorem State.setField_fab_transits (s : State) (f : Nat) (x : Field) :
    (s.setField f x).fab.transits = s.fab.transits := rfl
@[simp] theorem State.setField_fab_scc (s : State) (f : Nat) (x : Field) : (s.setField f x).fab.scc = s.fab.scc := rfl
@[simp] theorem State.setField_fab_hold (s : State) (f : Nat) (x : Field) :
    (s.setField f x).fab.hold = s.fab.hold := rfl
@[simp] theorem State.setField_fab_haltRec (s : State) (f : Nat) (x : Field) :
    (s.setField f x).fab.haltRec = s.fab.haltRec := rfl
@[simp] theorem State.setField_fab_drains (s : State) (f : Nat) (x : Field) :
    (s.setField f x).fab.drains = s.fab.drains := rfl
@[simp] theorem State.setField_fab_tills (s : State) (f : Nat) (x : Field) :
    (s.setField f x).fab.tills = s.fab.tills := rfl
@[simp] theorem State.setField_fab_tillQueue (s : State) (f : Nat) (x : Field) :
    (s.setField f x).fab.tillQueue = s.fab.tillQueue := rfl
@[simp] theorem State.setField_fab_beat (s : State) (f : Nat) (x : Field) :
    (s.setField f x).fab.beat = s.fab.beat := rfl

/-! ## setDie -/

@[simp] theorem State.setDie_clk (s : State) (d : Nat) (x : Die) : (s.setDie d x).clk = s.clk := rfl
@[simp] theorem State.setDie_heath (s : State) (d : Nat) (x : Die) : (s.setDie d x).heath = s.heath := rfl
@[simp] theorem State.setDie_house (s : State) (d : Nat) (x : Die) : (s.setDie d x).house = s.house := rfl
@[simp] theorem State.setDie_stew (s : State) (d : Nat) (x : Die) : (s.setDie d x).stew = s.stew := rfl
@[simp] theorem State.setDie_vault (s : State) (d : Nat) (x : Die) : (s.setDie d x).vault = s.vault := rfl
@[simp] theorem State.setDie_surv (s : State) (d : Nat) (x : Die) : (s.setDie d x).surv = s.surv := rfl
@[simp] theorem State.setDie_power (s : State) (d : Nat) (x : Die) : (s.setDie d x).power = s.power := rfl
@[simp] theorem State.setDie_mem (s : State) (d : Nat) (x : Die) : (s.setDie d x).mem = s.mem := rfl
@[simp] theorem State.setDie_ecc (s : State) (d : Nat) (x : Die) : (s.setDie d x).ecc = s.ecc := rfl
@[simp] theorem State.setDie_egress (s : State) (d : Nat) (x : Die) : (s.setDie d x).egress = s.egress := rfl
@[simp] theorem State.setDie_fresh (s : State) (d : Nat) (x : Die) : (s.setDie d x).fresh = s.fresh := rfl
@[simp] theorem State.setDie_pending (s : State) (d : Nat) (x : Die) : (s.setDie d x).pending = s.pending := rfl
@[simp] theorem State.setDie_fab_tiles (s : State) (d : Nat) (x : Die) : (s.setDie d x).fab.tiles = s.fab.tiles := rfl
@[simp] theorem State.setDie_fab_saves (s : State) (d : Nat) (x : Die) : (s.setDie d x).fab.saves = s.fab.saves := rfl
@[simp] theorem State.setDie_fab_trials (s : State) (d : Nat) (x : Die) :
    (s.setDie d x).fab.trials = s.fab.trials := rfl
@[simp] theorem State.setDie_fab_fields (s : State) (d : Nat) (x : Die) :
    (s.setDie d x).fab.fields = s.fab.fields := rfl
@[simp] theorem State.setDie_fab_transits (s : State) (d : Nat) (x : Die) :
    (s.setDie d x).fab.transits = s.fab.transits := rfl
@[simp] theorem State.setDie_fab_scc (s : State) (d : Nat) (x : Die) : (s.setDie d x).fab.scc = s.fab.scc := rfl
@[simp] theorem State.setDie_fab_hold (s : State) (d : Nat) (x : Die) : (s.setDie d x).fab.hold = s.fab.hold := rfl
@[simp] theorem State.setDie_fab_haltRec (s : State) (d : Nat) (x : Die) :
    (s.setDie d x).fab.haltRec = s.fab.haltRec := rfl
@[simp] theorem State.setDie_fab_drains (s : State) (d : Nat) (x : Die) :
    (s.setDie d x).fab.drains = s.fab.drains := rfl
@[simp] theorem State.setDie_fab_tills (s : State) (d : Nat) (x : Die) : (s.setDie d x).fab.tills = s.fab.tills := rfl
@[simp] theorem State.setDie_fab_tillQueue (s : State) (d : Nat) (x : Die) :
    (s.setDie d x).fab.tillQueue = s.fab.tillQueue := rfl
@[simp] theorem State.setDie_fab_beat (s : State) (d : Nat) (x : Die) : (s.setDie d x).fab.beat = s.fab.beat := rfl

/-! ## setTill -/

@[simp] theorem State.setTill_clk (s : State) (n : Nat) (v : BitVec 32) : (s.setTill n v).clk = s.clk := rfl
@[simp] theorem State.setTill_heath (s : State) (n : Nat) (v : BitVec 32) : (s.setTill n v).heath = s.heath := rfl
@[simp] theorem State.setTill_house (s : State) (n : Nat) (v : BitVec 32) : (s.setTill n v).house = s.house := rfl
@[simp] theorem State.setTill_stew (s : State) (n : Nat) (v : BitVec 32) : (s.setTill n v).stew = s.stew := rfl
@[simp] theorem State.setTill_vault (s : State) (n : Nat) (v : BitVec 32) : (s.setTill n v).vault = s.vault := rfl
@[simp] theorem State.setTill_surv (s : State) (n : Nat) (v : BitVec 32) : (s.setTill n v).surv = s.surv := rfl
@[simp] theorem State.setTill_power (s : State) (n : Nat) (v : BitVec 32) : (s.setTill n v).power = s.power := rfl
@[simp] theorem State.setTill_mem (s : State) (n : Nat) (v : BitVec 32) : (s.setTill n v).mem = s.mem := rfl
@[simp] theorem State.setTill_ecc (s : State) (n : Nat) (v : BitVec 32) : (s.setTill n v).ecc = s.ecc := rfl
@[simp] theorem State.setTill_egress (s : State) (n : Nat) (v : BitVec 32) : (s.setTill n v).egress = s.egress := rfl
@[simp] theorem State.setTill_fresh (s : State) (n : Nat) (v : BitVec 32) : (s.setTill n v).fresh = s.fresh := rfl
@[simp] theorem State.setTill_pending (s : State) (n : Nat) (v : BitVec 32) : (s.setTill n v).pending = s.pending := rfl
@[simp] theorem State.setTill_fab_tiles (s : State) (n : Nat) (v : BitVec 32) :
    (s.setTill n v).fab.tiles = s.fab.tiles := rfl
@[simp] theorem State.setTill_fab_saves (s : State) (n : Nat) (v : BitVec 32) :
    (s.setTill n v).fab.saves = s.fab.saves := rfl
@[simp] theorem State.setTill_fab_trials (s : State) (n : Nat) (v : BitVec 32) :
    (s.setTill n v).fab.trials = s.fab.trials := rfl
@[simp] theorem State.setTill_fab_fields (s : State) (n : Nat) (v : BitVec 32) :
    (s.setTill n v).fab.fields = s.fab.fields := rfl
@[simp] theorem State.setTill_fab_dies (s : State) (n : Nat) (v : BitVec 32) :
    (s.setTill n v).fab.dies = s.fab.dies := rfl
@[simp] theorem State.setTill_fab_transits (s : State) (n : Nat) (v : BitVec 32) :
    (s.setTill n v).fab.transits = s.fab.transits := rfl
@[simp] theorem State.setTill_fab_scc (s : State) (n : Nat) (v : BitVec 32) : (s.setTill n v).fab.scc = s.fab.scc := rfl
@[simp] theorem State.setTill_fab_hold (s : State) (n : Nat) (v : BitVec 32) :
    (s.setTill n v).fab.hold = s.fab.hold := rfl
@[simp] theorem State.setTill_fab_haltRec (s : State) (n : Nat) (v : BitVec 32) :
    (s.setTill n v).fab.haltRec = s.fab.haltRec := rfl
@[simp] theorem State.setTill_fab_drains (s : State) (n : Nat) (v : BitVec 32) :
    (s.setTill n v).fab.drains = s.fab.drains := rfl
@[simp] theorem State.setTill_fab_tillQueue (s : State) (n : Nat) (v : BitVec 32) :
    (s.setTill n v).fab.tillQueue = s.fab.tillQueue := rfl
@[simp] theorem State.setTill_fab_beat (s : State) (n : Nat) (v : BitVec 32) :
    (s.setTill n v).fab.beat = s.fab.beat := rfl

/-! ## setStack -/

@[simp] theorem State.setStack_fab (s : State) (k : Nat) (x : Stack) : (s.setStack k x).fab = s.fab := rfl
@[simp] theorem State.setStack_clk (s : State) (k : Nat) (x : Stack) : (s.setStack k x).clk = s.clk := rfl
@[simp] theorem State.setStack_house (s : State) (k : Nat) (x : Stack) : (s.setStack k x).house = s.house := rfl
@[simp] theorem State.setStack_stew (s : State) (k : Nat) (x : Stack) : (s.setStack k x).stew = s.stew := rfl
@[simp] theorem State.setStack_vault (s : State) (k : Nat) (x : Stack) : (s.setStack k x).vault = s.vault := rfl
@[simp] theorem State.setStack_surv (s : State) (k : Nat) (x : Stack) : (s.setStack k x).surv = s.surv := rfl
@[simp] theorem State.setStack_power (s : State) (k : Nat) (x : Stack) : (s.setStack k x).power = s.power := rfl
@[simp] theorem State.setStack_mem (s : State) (k : Nat) (x : Stack) : (s.setStack k x).mem = s.mem := rfl
@[simp] theorem State.setStack_ecc (s : State) (k : Nat) (x : Stack) : (s.setStack k x).ecc = s.ecc := rfl
@[simp] theorem State.setStack_egress (s : State) (k : Nat) (x : Stack) : (s.setStack k x).egress = s.egress := rfl
@[simp] theorem State.setStack_fresh (s : State) (k : Nat) (x : Stack) : (s.setStack k x).fresh = s.fresh := rfl
@[simp] theorem State.setStack_pending (s : State) (k : Nat) (x : Stack) : (s.setStack k x).pending = s.pending := rfl
@[simp] theorem State.setStack_heath_id (s : State) (k : Nat) (x : Stack) :
    (s.setStack k x).heath.id = s.heath.id := rfl
@[simp] theorem State.setStack_heath_links (s : State) (k : Nat) (x : Stack) :
    (s.setStack k x).heath.links = s.heath.links := rfl
@[simp] theorem State.setStack_heath_outq (s : State) (k : Nat) (x : Stack) :
    (s.setStack k x).heath.outq = s.heath.outq := rfl
@[simp] theorem State.setStack_heath_stranded (s : State) (k : Nat) (x : Stack) :
    (s.setStack k x).heath.stranded = s.heath.stranded := rfl
@[simp] theorem State.setStack_heath_loopq (s : State) (k : Nat) (x : Stack) :
    (s.setStack k x).heath.loopq = s.heath.loopq := rfl
@[simp] theorem State.setStack_heath_route (s : State) (k : Nat) (x : Stack) :
    (s.setStack k x).heath.route = s.heath.route := rfl
@[simp] theorem State.setStack_heath_rot (s : State) (k : Nat) (x : Stack) :
    (s.setStack k x).heath.rot = s.heath.rot := rfl
@[simp] theorem State.setStack_heath_devmapA (s : State) (k : Nat) (x : Stack) :
    (s.setStack k x).heath.devmapA = s.heath.devmapA := rfl
@[simp] theorem State.setStack_heath_devmapB (s : State) (k : Nat) (x : Stack) :
    (s.setStack k x).heath.devmapB = s.heath.devmapB := rfl
@[simp] theorem State.setStack_heath_devSel (s : State) (k : Nat) (x : Stack) :
    (s.setStack k x).heath.devSel = s.heath.devSel := rfl
@[simp] theorem State.setStack_heath_tree (s : State) (k : Nat) (x : Stack) :
    (s.setStack k x).heath.tree = s.heath.tree := rfl
@[simp] theorem State.setStack_heath_channels (s : State) (k : Nat) (x : Stack) :
    (s.setStack k x).heath.channels = s.heath.channels := rfl
@[simp] theorem State.setStack_heath_mlist (s : State) (k : Nat) (x : Stack) :
    (s.setStack k x).heath.mlist = s.heath.mlist := rfl
@[simp] theorem State.setStack_heath_receivers (s : State) (k : Nat) (x : Stack) :
    (s.setStack k x).heath.receivers = s.heath.receivers := rfl
@[simp] theorem State.setStack_heath_controlTid (s : State) (k : Nat) (x : Stack) :
    (s.setStack k x).heath.controlTid = s.heath.controlTid := rfl
@[simp] theorem State.setStack_heath_routeFault (s : State) (k : Nat) (x : Stack) :
    (s.setStack k x).heath.routeFault = s.heath.routeFault := rfl
@[simp] theorem State.setStack_heath_joining (s : State) (k : Nat) (x : Stack) :
    (s.setStack k x).heath.joining = s.heath.joining := rfl
@[simp] theorem State.setStack_heath_inbox (s : State) (k : Nat) (x : Stack) :
    (s.setStack k x).heath.inbox = s.heath.inbox := rfl
@[simp] theorem State.setStack_heath_refusals (s : State) (k : Nat) (x : Stack) :
    (s.setStack k x).heath.refusals = s.heath.refusals := rfl

/-! ## setLink -/

@[simp] theorem State.setLink_fab (s : State) (k : Nat) (x : Link) : (s.setLink k x).fab = s.fab := rfl
@[simp] theorem State.setLink_clk (s : State) (k : Nat) (x : Link) : (s.setLink k x).clk = s.clk := rfl
@[simp] theorem State.setLink_house (s : State) (k : Nat) (x : Link) : (s.setLink k x).house = s.house := rfl
@[simp] theorem State.setLink_stew (s : State) (k : Nat) (x : Link) : (s.setLink k x).stew = s.stew := rfl
@[simp] theorem State.setLink_vault (s : State) (k : Nat) (x : Link) : (s.setLink k x).vault = s.vault := rfl
@[simp] theorem State.setLink_surv (s : State) (k : Nat) (x : Link) : (s.setLink k x).surv = s.surv := rfl
@[simp] theorem State.setLink_power (s : State) (k : Nat) (x : Link) : (s.setLink k x).power = s.power := rfl
@[simp] theorem State.setLink_mem (s : State) (k : Nat) (x : Link) : (s.setLink k x).mem = s.mem := rfl
@[simp] theorem State.setLink_ecc (s : State) (k : Nat) (x : Link) : (s.setLink k x).ecc = s.ecc := rfl
@[simp] theorem State.setLink_egress (s : State) (k : Nat) (x : Link) : (s.setLink k x).egress = s.egress := rfl
@[simp] theorem State.setLink_fresh (s : State) (k : Nat) (x : Link) : (s.setLink k x).fresh = s.fresh := rfl
@[simp] theorem State.setLink_pending (s : State) (k : Nat) (x : Link) : (s.setLink k x).pending = s.pending := rfl
@[simp] theorem State.setLink_heath_id (s : State) (k : Nat) (x : Link) : (s.setLink k x).heath.id = s.heath.id := rfl
@[simp] theorem State.setLink_heath_outq (s : State) (k : Nat) (x : Link) :
    (s.setLink k x).heath.outq = s.heath.outq := rfl
@[simp] theorem State.setLink_heath_stranded (s : State) (k : Nat) (x : Link) :
    (s.setLink k x).heath.stranded = s.heath.stranded := rfl
@[simp] theorem State.setLink_heath_loopq (s : State) (k : Nat) (x : Link) :
    (s.setLink k x).heath.loopq = s.heath.loopq := rfl
@[simp] theorem State.setLink_heath_route (s : State) (k : Nat) (x : Link) :
    (s.setLink k x).heath.route = s.heath.route := rfl
@[simp] theorem State.setLink_heath_rot (s : State) (k : Nat) (x : Link) :
    (s.setLink k x).heath.rot = s.heath.rot := rfl
@[simp] theorem State.setLink_heath_devmapA (s : State) (k : Nat) (x : Link) :
    (s.setLink k x).heath.devmapA = s.heath.devmapA := rfl
@[simp] theorem State.setLink_heath_devmapB (s : State) (k : Nat) (x : Link) :
    (s.setLink k x).heath.devmapB = s.heath.devmapB := rfl
@[simp] theorem State.setLink_heath_devSel (s : State) (k : Nat) (x : Link) :
    (s.setLink k x).heath.devSel = s.heath.devSel := rfl
@[simp] theorem State.setLink_heath_tree (s : State) (k : Nat) (x : Link) :
    (s.setLink k x).heath.tree = s.heath.tree := rfl
@[simp] theorem State.setLink_heath_channels (s : State) (k : Nat) (x : Link) :
    (s.setLink k x).heath.channels = s.heath.channels := rfl
@[simp] theorem State.setLink_heath_mlist (s : State) (k : Nat) (x : Link) :
    (s.setLink k x).heath.mlist = s.heath.mlist := rfl
@[simp] theorem State.setLink_heath_receivers (s : State) (k : Nat) (x : Link) :
    (s.setLink k x).heath.receivers = s.heath.receivers := rfl
@[simp] theorem State.setLink_heath_memStacks (s : State) (k : Nat) (x : Link) :
    (s.setLink k x).heath.memStacks = s.heath.memStacks := rfl
@[simp] theorem State.setLink_heath_controlTid (s : State) (k : Nat) (x : Link) :
    (s.setLink k x).heath.controlTid = s.heath.controlTid := rfl
@[simp] theorem State.setLink_heath_routeFault (s : State) (k : Nat) (x : Link) :
    (s.setLink k x).heath.routeFault = s.heath.routeFault := rfl
@[simp] theorem State.setLink_heath_joining (s : State) (k : Nat) (x : Link) :
    (s.setLink k x).heath.joining = s.heath.joining := rfl
@[simp] theorem State.setLink_heath_inbox (s : State) (k : Nat) (x : Link) :
    (s.setLink k x).heath.inbox = s.heath.inbox := rfl
@[simp] theorem State.setLink_heath_refusals (s : State) (k : Nat) (x : Link) :
    (s.setLink k x).heath.refusals = s.heath.refusals := rfl

/-! ## setChan -/

@[simp] theorem State.setChan_fab (s : State) (c : Nat) (x : Channel) : (s.setChan c x).fab = s.fab := rfl
@[simp] theorem State.setChan_clk (s : State) (c : Nat) (x : Channel) : (s.setChan c x).clk = s.clk := rfl
@[simp] theorem State.setChan_house (s : State) (c : Nat) (x : Channel) : (s.setChan c x).house = s.house := rfl
@[simp] theorem State.setChan_stew (s : State) (c : Nat) (x : Channel) : (s.setChan c x).stew = s.stew := rfl
@[simp] theorem State.setChan_vault (s : State) (c : Nat) (x : Channel) : (s.setChan c x).vault = s.vault := rfl
@[simp] theorem State.setChan_surv (s : State) (c : Nat) (x : Channel) : (s.setChan c x).surv = s.surv := rfl
@[simp] theorem State.setChan_power (s : State) (c : Nat) (x : Channel) : (s.setChan c x).power = s.power := rfl
@[simp] theorem State.setChan_mem (s : State) (c : Nat) (x : Channel) : (s.setChan c x).mem = s.mem := rfl
@[simp] theorem State.setChan_ecc (s : State) (c : Nat) (x : Channel) : (s.setChan c x).ecc = s.ecc := rfl
@[simp] theorem State.setChan_egress (s : State) (c : Nat) (x : Channel) : (s.setChan c x).egress = s.egress := rfl
@[simp] theorem State.setChan_fresh (s : State) (c : Nat) (x : Channel) : (s.setChan c x).fresh = s.fresh := rfl
@[simp] theorem State.setChan_pending (s : State) (c : Nat) (x : Channel) : (s.setChan c x).pending = s.pending := rfl
@[simp] theorem State.setChan_heath_id (s : State) (c : Nat) (x : Channel) :
    (s.setChan c x).heath.id = s.heath.id := rfl
@[simp] theorem State.setChan_heath_links (s : State) (c : Nat) (x : Channel) :
    (s.setChan c x).heath.links = s.heath.links := rfl
@[simp] theorem State.setChan_heath_outq (s : State) (c : Nat) (x : Channel) :
    (s.setChan c x).heath.outq = s.heath.outq := rfl
@[simp] theorem State.setChan_heath_stranded (s : State) (c : Nat) (x : Channel) :
    (s.setChan c x).heath.stranded = s.heath.stranded := rfl
@[simp] theorem State.setChan_heath_loopq (s : State) (c : Nat) (x : Channel) :
    (s.setChan c x).heath.loopq = s.heath.loopq := rfl
@[simp] theorem State.setChan_heath_route (s : State) (c : Nat) (x : Channel) :
    (s.setChan c x).heath.route = s.heath.route := rfl
@[simp] theorem State.setChan_heath_rot (s : State) (c : Nat) (x : Channel) :
    (s.setChan c x).heath.rot = s.heath.rot := rfl
@[simp] theorem State.setChan_heath_devmapA (s : State) (c : Nat) (x : Channel) :
    (s.setChan c x).heath.devmapA = s.heath.devmapA := rfl
@[simp] theorem State.setChan_heath_devmapB (s : State) (c : Nat) (x : Channel) :
    (s.setChan c x).heath.devmapB = s.heath.devmapB := rfl
@[simp] theorem State.setChan_heath_devSel (s : State) (c : Nat) (x : Channel) :
    (s.setChan c x).heath.devSel = s.heath.devSel := rfl
@[simp] theorem State.setChan_heath_tree (s : State) (c : Nat) (x : Channel) :
    (s.setChan c x).heath.tree = s.heath.tree := rfl
@[simp] theorem State.setChan_heath_mlist (s : State) (c : Nat) (x : Channel) :
    (s.setChan c x).heath.mlist = s.heath.mlist := rfl
@[simp] theorem State.setChan_heath_receivers (s : State) (c : Nat) (x : Channel) :
    (s.setChan c x).heath.receivers = s.heath.receivers := rfl
@[simp] theorem State.setChan_heath_memStacks (s : State) (c : Nat) (x : Channel) :
    (s.setChan c x).heath.memStacks = s.heath.memStacks := rfl
@[simp] theorem State.setChan_heath_controlTid (s : State) (c : Nat) (x : Channel) :
    (s.setChan c x).heath.controlTid = s.heath.controlTid := rfl
@[simp] theorem State.setChan_heath_routeFault (s : State) (c : Nat) (x : Channel) :
    (s.setChan c x).heath.routeFault = s.heath.routeFault := rfl
@[simp] theorem State.setChan_heath_joining (s : State) (c : Nat) (x : Channel) :
    (s.setChan c x).heath.joining = s.heath.joining := rfl
@[simp] theorem State.setChan_heath_inbox (s : State) (c : Nat) (x : Channel) :
    (s.setChan c x).heath.inbox = s.heath.inbox := rfl
@[simp] theorem State.setChan_heath_refusals (s : State) (c : Nat) (x : Channel) :
    (s.setChan c x).heath.refusals = s.heath.refusals := rfl

/-! ## setRecv -/

@[simp] theorem State.setRecv_fab (s : State) (k : Nat) (x : Receiver) : (s.setRecv k x).fab = s.fab := rfl
@[simp] theorem State.setRecv_clk (s : State) (k : Nat) (x : Receiver) : (s.setRecv k x).clk = s.clk := rfl
@[simp] theorem State.setRecv_house (s : State) (k : Nat) (x : Receiver) : (s.setRecv k x).house = s.house := rfl
@[simp] theorem State.setRecv_stew (s : State) (k : Nat) (x : Receiver) : (s.setRecv k x).stew = s.stew := rfl
@[simp] theorem State.setRecv_vault (s : State) (k : Nat) (x : Receiver) : (s.setRecv k x).vault = s.vault := rfl
@[simp] theorem State.setRecv_surv (s : State) (k : Nat) (x : Receiver) : (s.setRecv k x).surv = s.surv := rfl
@[simp] theorem State.setRecv_power (s : State) (k : Nat) (x : Receiver) : (s.setRecv k x).power = s.power := rfl
@[simp] theorem State.setRecv_mem (s : State) (k : Nat) (x : Receiver) : (s.setRecv k x).mem = s.mem := rfl
@[simp] theorem State.setRecv_ecc (s : State) (k : Nat) (x : Receiver) : (s.setRecv k x).ecc = s.ecc := rfl
@[simp] theorem State.setRecv_egress (s : State) (k : Nat) (x : Receiver) : (s.setRecv k x).egress = s.egress := rfl
@[simp] theorem State.setRecv_fresh (s : State) (k : Nat) (x : Receiver) : (s.setRecv k x).fresh = s.fresh := rfl
@[simp] theorem State.setRecv_pending (s : State) (k : Nat) (x : Receiver) : (s.setRecv k x).pending = s.pending := rfl
@[simp] theorem State.setRecv_heath_id (s : State) (k : Nat) (x : Receiver) :
    (s.setRecv k x).heath.id = s.heath.id := rfl
@[simp] theorem State.setRecv_heath_links (s : State) (k : Nat) (x : Receiver) :
    (s.setRecv k x).heath.links = s.heath.links := rfl
@[simp] theorem State.setRecv_heath_outq (s : State) (k : Nat) (x : Receiver) :
    (s.setRecv k x).heath.outq = s.heath.outq := rfl
@[simp] theorem State.setRecv_heath_stranded (s : State) (k : Nat) (x : Receiver) :
    (s.setRecv k x).heath.stranded = s.heath.stranded := rfl
@[simp] theorem State.setRecv_heath_loopq (s : State) (k : Nat) (x : Receiver) :
    (s.setRecv k x).heath.loopq = s.heath.loopq := rfl
@[simp] theorem State.setRecv_heath_route (s : State) (k : Nat) (x : Receiver) :
    (s.setRecv k x).heath.route = s.heath.route := rfl
@[simp] theorem State.setRecv_heath_rot (s : State) (k : Nat) (x : Receiver) :
    (s.setRecv k x).heath.rot = s.heath.rot := rfl
@[simp] theorem State.setRecv_heath_devmapA (s : State) (k : Nat) (x : Receiver) :
    (s.setRecv k x).heath.devmapA = s.heath.devmapA := rfl
@[simp] theorem State.setRecv_heath_devmapB (s : State) (k : Nat) (x : Receiver) :
    (s.setRecv k x).heath.devmapB = s.heath.devmapB := rfl
@[simp] theorem State.setRecv_heath_devSel (s : State) (k : Nat) (x : Receiver) :
    (s.setRecv k x).heath.devSel = s.heath.devSel := rfl
@[simp] theorem State.setRecv_heath_tree (s : State) (k : Nat) (x : Receiver) :
    (s.setRecv k x).heath.tree = s.heath.tree := rfl
@[simp] theorem State.setRecv_heath_channels (s : State) (k : Nat) (x : Receiver) :
    (s.setRecv k x).heath.channels = s.heath.channels := rfl
@[simp] theorem State.setRecv_heath_mlist (s : State) (k : Nat) (x : Receiver) :
    (s.setRecv k x).heath.mlist = s.heath.mlist := rfl
@[simp] theorem State.setRecv_heath_memStacks (s : State) (k : Nat) (x : Receiver) :
    (s.setRecv k x).heath.memStacks = s.heath.memStacks := rfl
@[simp] theorem State.setRecv_heath_controlTid (s : State) (k : Nat) (x : Receiver) :
    (s.setRecv k x).heath.controlTid = s.heath.controlTid := rfl
@[simp] theorem State.setRecv_heath_routeFault (s : State) (k : Nat) (x : Receiver) :
    (s.setRecv k x).heath.routeFault = s.heath.routeFault := rfl
@[simp] theorem State.setRecv_heath_joining (s : State) (k : Nat) (x : Receiver) :
    (s.setRecv k x).heath.joining = s.heath.joining := rfl
@[simp] theorem State.setRecv_heath_inbox (s : State) (k : Nat) (x : Receiver) :
    (s.setRecv k x).heath.inbox = s.heath.inbox := rfl
@[simp] theorem State.setRecv_heath_refusals (s : State) (k : Nat) (x : Receiver) :
    (s.setRecv k x).heath.refusals = s.heath.refusals := rfl

/-! ## setIsland -/

@[simp] theorem State.setIsland_fab (s : State) (d : Nat) (x : Island) : (s.setIsland d x).fab = s.fab := rfl
@[simp] theorem State.setIsland_heath (s : State) (d : Nat) (x : Island) : (s.setIsland d x).heath = s.heath := rfl
@[simp] theorem State.setIsland_house (s : State) (d : Nat) (x : Island) : (s.setIsland d x).house = s.house := rfl
@[simp] theorem State.setIsland_stew (s : State) (d : Nat) (x : Island) : (s.setIsland d x).stew = s.stew := rfl
@[simp] theorem State.setIsland_vault (s : State) (d : Nat) (x : Island) : (s.setIsland d x).vault = s.vault := rfl
@[simp] theorem State.setIsland_surv (s : State) (d : Nat) (x : Island) : (s.setIsland d x).surv = s.surv := rfl
@[simp] theorem State.setIsland_power (s : State) (d : Nat) (x : Island) : (s.setIsland d x).power = s.power := rfl
@[simp] theorem State.setIsland_mem (s : State) (d : Nat) (x : Island) : (s.setIsland d x).mem = s.mem := rfl
@[simp] theorem State.setIsland_ecc (s : State) (d : Nat) (x : Island) : (s.setIsland d x).ecc = s.ecc := rfl
@[simp] theorem State.setIsland_egress (s : State) (d : Nat) (x : Island) : (s.setIsland d x).egress = s.egress := rfl
@[simp] theorem State.setIsland_fresh (s : State) (d : Nat) (x : Island) : (s.setIsland d x).fresh = s.fresh := rfl
@[simp] theorem State.setIsland_pending (s : State) (d : Nat) (x : Island) :
    (s.setIsland d x).pending = s.pending := rfl
@[simp] theorem State.setIsland_clk_clk (s : State) (d : Nat) (x : Island) :
    (s.setIsland d x).clk.clk = s.clk.clk := rfl
@[simp] theorem State.setIsland_clk_time (s : State) (d : Nat) (x : Island) :
    (s.setIsland d x).clk.time = s.clk.time := rfl
@[simp] theorem State.setIsland_clk_rate (s : State) (d : Nat) (x : Island) :
    (s.setIsland d x).clk.rate = s.clk.rate := rfl
@[simp] theorem State.setIsland_clk_valid (s : State) (d : Nat) (x : Island) :
    (s.setIsland d x).clk.valid = s.clk.valid := rfl
@[simp] theorem State.setIsland_clk_ptpLocked (s : State) (d : Nat) (x : Island) :
    (s.setIsland d x).clk.ptpLocked = s.clk.ptpLocked := rfl
@[simp] theorem State.setIsland_clk_monotonic (s : State) (d : Nat) (x : Island) :
    (s.setIsland d x).clk.monotonic = s.clk.monotonic := rfl
@[simp] theorem State.setIsland_clk_stepRefused (s : State) (d : Nat) (x : Island) :
    (s.setIsland d x).clk.stepRefused = s.clk.stepRefused := rfl
@[simp] theorem State.setIsland_clk_consumers (s : State) (d : Nat) (x : Island) :
    (s.setIsland d x).clk.consumers = s.clk.consumers := rfl
@[simp] theorem State.setIsland_clk_step (s : State) (d : Nat) (x : Island) :
    (s.setIsland d x).clk.step = s.clk.step := rfl
@[simp] theorem State.setIsland_clk_safeStep (s : State) (d : Nat) (x : Island) :
    (s.setIsland d x).clk.safeStep = s.clk.safeStep := rfl
@[simp] theorem State.setIsland_clk_target (s : State) (d : Nat) (x : Island) :
    (s.setIsland d x).clk.target = s.clk.target := rfl
@[simp] theorem State.setIsland_clk_relocked (s : State) (d : Nat) (x : Island) :
    (s.setIsland d x).clk.relocked = s.clk.relocked := rfl
@[simp] theorem State.setIsland_clk_askedStep (s : State) (d : Nat) (x : Island) :
    (s.setIsland d x).clk.askedStep = s.clk.askedStep := rfl
@[simp] theorem State.setIsland_clk_needWarm (s : State) (d : Nat) (x : Island) :
    (s.setIsland d x).clk.needWarm = s.clk.needWarm := rfl
@[simp] theorem State.setIsland_clk_crossings (s : State) (d : Nat) (x : Island) :
    (s.setIsland d x).clk.crossings = s.clk.crossings := rfl
@[simp] theorem State.setIsland_clk_beacons (s : State) (d : Nat) (x : Island) :
    (s.setIsland d x).clk.beacons = s.clk.beacons := rfl
@[simp] theorem State.setIsland_clk_lastSamples (s : State) (d : Nat) (x : Island) :
    (s.setIsland d x).clk.lastSamples = s.clk.lastSamples := rfl

/-! ## setSub -/

@[simp] theorem State.setSub_fab (s : State) (p : Bool) (i : BitVec 2) (x : SubPort) :
    (s.setSub p i x).fab = s.fab := rfl
@[simp] theorem State.setSub_clk (s : State) (p : Bool) (i : BitVec 2) (x : SubPort) :
    (s.setSub p i x).clk = s.clk := rfl
@[simp] theorem State.setSub_heath (s : State) (p : Bool) (i : BitVec 2) (x : SubPort) :
    (s.setSub p i x).heath = s.heath := rfl
@[simp] theorem State.setSub_stew (s : State) (p : Bool) (i : BitVec 2) (x : SubPort) :
    (s.setSub p i x).stew = s.stew := rfl
@[simp] theorem State.setSub_vault (s : State) (p : Bool) (i : BitVec 2) (x : SubPort) :
    (s.setSub p i x).vault = s.vault := rfl
@[simp] theorem State.setSub_surv (s : State) (p : Bool) (i : BitVec 2) (x : SubPort) :
    (s.setSub p i x).surv = s.surv := rfl
@[simp] theorem State.setSub_power (s : State) (p : Bool) (i : BitVec 2) (x : SubPort) :
    (s.setSub p i x).power = s.power := rfl
@[simp] theorem State.setSub_mem (s : State) (p : Bool) (i : BitVec 2) (x : SubPort) :
    (s.setSub p i x).mem = s.mem := rfl
@[simp] theorem State.setSub_ecc (s : State) (p : Bool) (i : BitVec 2) (x : SubPort) :
    (s.setSub p i x).ecc = s.ecc := rfl
@[simp] theorem State.setSub_egress (s : State) (p : Bool) (i : BitVec 2) (x : SubPort) :
    (s.setSub p i x).egress = s.egress := rfl
@[simp] theorem State.setSub_fresh (s : State) (p : Bool) (i : BitVec 2) (x : SubPort) :
    (s.setSub p i x).fresh = s.fresh := rfl
@[simp] theorem State.setSub_pending (s : State) (p : Bool) (i : BitVec 2) (x : SubPort) :
    (s.setSub p i x).pending = s.pending := rfl
@[simp] theorem State.setSub_house_phy (s : State) (p : Bool) (i : BitVec 2) (x : SubPort) :
    (s.setSub p i x).house.phy = s.house.phy := rfl
@[simp] theorem State.setSub_house_ptpQueue (s : State) (p : Bool) (i : BitVec 2) (x : SubPort) :
    (s.setSub p i x).house.ptpQueue = s.house.ptpQueue := rfl
@[simp] theorem State.setSub_house_sessions (s : State) (p : Bool) (i : BitVec 2) (x : SubPort) :
    (s.setSub p i x).house.sessions = s.house.sessions := rfl
@[simp] theorem State.setSub_house_nextSession (s : State) (p : Bool) (i : BitVec 2) (x : SubPort) :
    (s.setSub p i x).house.nextSession = s.house.nextSession := rfl
@[simp] theorem State.setSub_house_receipts (s : State) (p : Bool) (i : BitVec 2) (x : SubPort) :
    (s.setSub p i x).house.receipts = s.house.receipts := rfl
@[simp] theorem State.setSub_house_nextTicket (s : State) (p : Bool) (i : BitVec 2) (x : SubPort) :
    (s.setSub p i x).house.nextTicket = s.house.nextTicket := rfl
@[simp] theorem State.setSub_house_stopped (s : State) (p : Bool) (i : BitVec 2) (x : SubPort) :
    (s.setSub p i x).house.stopped = s.house.stopped := rfl
@[simp] theorem State.setSub_house_err (s : State) (p : Bool) (i : BitVec 2) (x : SubPort) :
    (s.setSub p i x).house.err = s.house.err := rfl
@[simp] theorem State.setSub_house_errCause (s : State) (p : Bool) (i : BitVec 2) (x : SubPort) :
    (s.setSub p i x).house.errCause = s.house.errCause := rfl
@[simp] theorem State.setSub_house_receiptCfg (s : State) (p : Bool) (i : BitVec 2) (x : SubPort) :
    (s.setSub p i x).house.receiptCfg = s.house.receiptCfg := rfl
@[simp] theorem State.setSub_house_intakes (s : State) (p : Bool) (i : BitVec 2) (x : SubPort) :
    (s.setSub p i x).house.intakes = s.house.intakes := rfl
@[simp] theorem State.setSub_house_outboxes (s : State) (p : Bool) (i : BitVec 2) (x : SubPort) :
    (s.setSub p i x).house.outboxes = s.house.outboxes := rfl
@[simp] theorem State.setSub_house_arrivals (s : State) (p : Bool) (i : BitVec 2) (x : SubPort) :
    (s.setSub p i x).house.arrivals = s.house.arrivals := rfl
@[simp] theorem State.setSub_house_subscribers (s : State) (p : Bool) (i : BitVec 2) (x : SubPort) :
    (s.setSub p i x).house.subscribers = s.house.subscribers := rfl

/-! ## setReceipt -/

@[simp] theorem State.setReceipt_fab (s : State) (n : Nat) (r : Option Receipt) : (s.setReceipt n r).fab = s.fab := rfl
@[simp] theorem State.setReceipt_clk (s : State) (n : Nat) (r : Option Receipt) : (s.setReceipt n r).clk = s.clk := rfl
@[simp] theorem State.setReceipt_heath (s : State) (n : Nat) (r : Option Receipt) :
    (s.setReceipt n r).heath = s.heath := rfl
@[simp] theorem State.setReceipt_stew (s : State) (n : Nat) (r : Option Receipt) :
    (s.setReceipt n r).stew = s.stew := rfl
@[simp] theorem State.setReceipt_vault (s : State) (n : Nat) (r : Option Receipt) :
    (s.setReceipt n r).vault = s.vault := rfl
@[simp] theorem State.setReceipt_surv (s : State) (n : Nat) (r : Option Receipt) :
    (s.setReceipt n r).surv = s.surv := rfl
@[simp] theorem State.setReceipt_power (s : State) (n : Nat) (r : Option Receipt) :
    (s.setReceipt n r).power = s.power := rfl
@[simp] theorem State.setReceipt_mem (s : State) (n : Nat) (r : Option Receipt) : (s.setReceipt n r).mem = s.mem := rfl
@[simp] theorem State.setReceipt_ecc (s : State) (n : Nat) (r : Option Receipt) : (s.setReceipt n r).ecc = s.ecc := rfl
@[simp] theorem State.setReceipt_egress (s : State) (n : Nat) (r : Option Receipt) :
    (s.setReceipt n r).egress = s.egress := rfl
@[simp] theorem State.setReceipt_fresh (s : State) (n : Nat) (r : Option Receipt) :
    (s.setReceipt n r).fresh = s.fresh := rfl
@[simp] theorem State.setReceipt_pending (s : State) (n : Nat) (r : Option Receipt) :
    (s.setReceipt n r).pending = s.pending := rfl
@[simp] theorem State.setReceipt_house_ports (s : State) (n : Nat) (r : Option Receipt) :
    (s.setReceipt n r).house.ports = s.house.ports := rfl
@[simp] theorem State.setReceipt_house_phy (s : State) (n : Nat) (r : Option Receipt) :
    (s.setReceipt n r).house.phy = s.house.phy := rfl
@[simp] theorem State.setReceipt_house_ptpQueue (s : State) (n : Nat) (r : Option Receipt) :
    (s.setReceipt n r).house.ptpQueue = s.house.ptpQueue := rfl
@[simp] theorem State.setReceipt_house_sessions (s : State) (n : Nat) (r : Option Receipt) :
    (s.setReceipt n r).house.sessions = s.house.sessions := rfl
@[simp] theorem State.setReceipt_house_nextSession (s : State) (n : Nat) (r : Option Receipt) :
    (s.setReceipt n r).house.nextSession = s.house.nextSession := rfl
@[simp] theorem State.setReceipt_house_nextTicket (s : State) (n : Nat) (r : Option Receipt) :
    (s.setReceipt n r).house.nextTicket = s.house.nextTicket := rfl
@[simp] theorem State.setReceipt_house_stopped (s : State) (n : Nat) (r : Option Receipt) :
    (s.setReceipt n r).house.stopped = s.house.stopped := rfl
@[simp] theorem State.setReceipt_house_err (s : State) (n : Nat) (r : Option Receipt) :
    (s.setReceipt n r).house.err = s.house.err := rfl
@[simp] theorem State.setReceipt_house_errCause (s : State) (n : Nat) (r : Option Receipt) :
    (s.setReceipt n r).house.errCause = s.house.errCause := rfl
@[simp] theorem State.setReceipt_house_receiptCfg (s : State) (n : Nat) (r : Option Receipt) :
    (s.setReceipt n r).house.receiptCfg = s.house.receiptCfg := rfl
@[simp] theorem State.setReceipt_house_intakes (s : State) (n : Nat) (r : Option Receipt) :
    (s.setReceipt n r).house.intakes = s.house.intakes := rfl
@[simp] theorem State.setReceipt_house_outboxes (s : State) (n : Nat) (r : Option Receipt) :
    (s.setReceipt n r).house.outboxes = s.house.outboxes := rfl
@[simp] theorem State.setReceipt_house_arrivals (s : State) (n : Nat) (r : Option Receipt) :
    (s.setReceipt n r).house.arrivals = s.house.arrivals := rfl
@[simp] theorem State.setReceipt_house_subscribers (s : State) (n : Nat) (r : Option Receipt) :
    (s.setReceipt n r).house.subscribers = s.house.subscribers := rfl

/-! ## modSession -/

@[simp] theorem State.modSession_fab (s : State) (n : BitVec 32) (g : Session → Session) :
    (s.modSession n g).fab = s.fab := rfl
@[simp] theorem State.modSession_clk (s : State) (n : BitVec 32) (g : Session → Session) :
    (s.modSession n g).clk = s.clk := rfl
@[simp] theorem State.modSession_heath (s : State) (n : BitVec 32) (g : Session → Session) :
    (s.modSession n g).heath = s.heath := rfl
@[simp] theorem State.modSession_stew (s : State) (n : BitVec 32) (g : Session → Session) :
    (s.modSession n g).stew = s.stew := rfl
@[simp] theorem State.modSession_vault (s : State) (n : BitVec 32) (g : Session → Session) :
    (s.modSession n g).vault = s.vault := rfl
@[simp] theorem State.modSession_surv (s : State) (n : BitVec 32) (g : Session → Session) :
    (s.modSession n g).surv = s.surv := rfl
@[simp] theorem State.modSession_power (s : State) (n : BitVec 32) (g : Session → Session) :
    (s.modSession n g).power = s.power := rfl
@[simp] theorem State.modSession_mem (s : State) (n : BitVec 32) (g : Session → Session) :
    (s.modSession n g).mem = s.mem := rfl
@[simp] theorem State.modSession_ecc (s : State) (n : BitVec 32) (g : Session → Session) :
    (s.modSession n g).ecc = s.ecc := rfl
@[simp] theorem State.modSession_egress (s : State) (n : BitVec 32) (g : Session → Session) :
    (s.modSession n g).egress = s.egress := rfl
@[simp] theorem State.modSession_fresh (s : State) (n : BitVec 32) (g : Session → Session) :
    (s.modSession n g).fresh = s.fresh := rfl
@[simp] theorem State.modSession_pending (s : State) (n : BitVec 32) (g : Session → Session) :
    (s.modSession n g).pending = s.pending := rfl
@[simp] theorem State.modSession_house_ports (s : State) (n : BitVec 32) (g : Session → Session) :
    (s.modSession n g).house.ports = s.house.ports := rfl
@[simp] theorem State.modSession_house_phy (s : State) (n : BitVec 32) (g : Session → Session) :
    (s.modSession n g).house.phy = s.house.phy := rfl
@[simp] theorem State.modSession_house_ptpQueue (s : State) (n : BitVec 32) (g : Session → Session) :
    (s.modSession n g).house.ptpQueue = s.house.ptpQueue := rfl
@[simp] theorem State.modSession_house_nextSession (s : State) (n : BitVec 32) (g : Session → Session) :
    (s.modSession n g).house.nextSession = s.house.nextSession := rfl
@[simp] theorem State.modSession_house_receipts (s : State) (n : BitVec 32) (g : Session → Session) :
    (s.modSession n g).house.receipts = s.house.receipts := rfl
@[simp] theorem State.modSession_house_nextTicket (s : State) (n : BitVec 32) (g : Session → Session) :
    (s.modSession n g).house.nextTicket = s.house.nextTicket := rfl
@[simp] theorem State.modSession_house_stopped (s : State) (n : BitVec 32) (g : Session → Session) :
    (s.modSession n g).house.stopped = s.house.stopped := rfl
@[simp] theorem State.modSession_house_err (s : State) (n : BitVec 32) (g : Session → Session) :
    (s.modSession n g).house.err = s.house.err := rfl
@[simp] theorem State.modSession_house_errCause (s : State) (n : BitVec 32) (g : Session → Session) :
    (s.modSession n g).house.errCause = s.house.errCause := rfl
@[simp] theorem State.modSession_house_receiptCfg (s : State) (n : BitVec 32) (g : Session → Session) :
    (s.modSession n g).house.receiptCfg = s.house.receiptCfg := rfl
@[simp] theorem State.modSession_house_intakes (s : State) (n : BitVec 32) (g : Session → Session) :
    (s.modSession n g).house.intakes = s.house.intakes := rfl
@[simp] theorem State.modSession_house_outboxes (s : State) (n : BitVec 32) (g : Session → Session) :
    (s.modSession n g).house.outboxes = s.house.outboxes := rfl
@[simp] theorem State.modSession_house_arrivals (s : State) (n : BitVec 32) (g : Session → Session) :
    (s.modSession n g).house.arrivals = s.house.arrivals := rfl
@[simp] theorem State.modSession_house_subscribers (s : State) (n : BitVec 32) (g : Session → Session) :
    (s.modSession n g).house.subscribers = s.house.subscribers := rfl

/-! ## setAssembly -/

@[simp] theorem State.setAssembly_fab (s : State) (a : Option Assembly) : (s.setAssembly a).fab = s.fab := rfl
@[simp] theorem State.setAssembly_clk (s : State) (a : Option Assembly) : (s.setAssembly a).clk = s.clk := rfl
@[simp] theorem State.setAssembly_heath (s : State) (a : Option Assembly) : (s.setAssembly a).heath = s.heath := rfl
@[simp] theorem State.setAssembly_house (s : State) (a : Option Assembly) : (s.setAssembly a).house = s.house := rfl
@[simp] theorem State.setAssembly_vault (s : State) (a : Option Assembly) : (s.setAssembly a).vault = s.vault := rfl
@[simp] theorem State.setAssembly_surv (s : State) (a : Option Assembly) : (s.setAssembly a).surv = s.surv := rfl
@[simp] theorem State.setAssembly_power (s : State) (a : Option Assembly) : (s.setAssembly a).power = s.power := rfl
@[simp] theorem State.setAssembly_mem (s : State) (a : Option Assembly) : (s.setAssembly a).mem = s.mem := rfl
@[simp] theorem State.setAssembly_ecc (s : State) (a : Option Assembly) : (s.setAssembly a).ecc = s.ecc := rfl
@[simp] theorem State.setAssembly_egress (s : State) (a : Option Assembly) : (s.setAssembly a).egress = s.egress := rfl
@[simp] theorem State.setAssembly_fresh (s : State) (a : Option Assembly) : (s.setAssembly a).fresh = s.fresh := rfl
@[simp] theorem State.setAssembly_pending (s : State) (a : Option Assembly) :
    (s.setAssembly a).pending = s.pending := rfl
@[simp] theorem State.setAssembly_stew_grade (s : State) (a : Option Assembly) :
    (s.setAssembly a).stew.grade = s.stew.grade := rfl
@[simp] theorem State.setAssembly_stew_fwVersion (s : State) (a : Option Assembly) :
    (s.setAssembly a).stew.fwVersion = s.stew.fwVersion := rfl
@[simp] theorem State.setAssembly_stew_svn (s : State) (a : Option Assembly) :
    (s.setAssembly a).stew.svn = s.stew.svn := rfl
@[simp] theorem State.setAssembly_stew_state (s : State) (a : Option Assembly) :
    (s.setAssembly a).stew.state = s.stew.state := rfl
@[simp] theorem State.setAssembly_stew_failDomain (s : State) (a : Option Assembly) :
    (s.setAssembly a).stew.failDomain = s.stew.failDomain := rfl
@[simp] theorem State.setAssembly_stew_boardId (s : State) (a : Option Assembly) :
    (s.setAssembly a).stew.boardId = s.stew.boardId := rfl
@[simp] theorem State.setAssembly_stew_feedId (s : State) (a : Option Assembly) :
    (s.setAssembly a).stew.feedId = s.stew.feedId := rfl
@[simp] theorem State.setAssembly_stew_pos (s : State) (a : Option Assembly) :
    (s.setAssembly a).stew.pos = s.stew.pos := rfl
@[simp] theorem State.setAssembly_stew_mailboxes (s : State) (a : Option Assembly) :
    (s.setAssembly a).stew.mailboxes = s.stew.mailboxes := rfl
@[simp] theorem State.setAssembly_stew_longOp (s : State) (a : Option Assembly) :
    (s.setAssembly a).stew.longOp = s.stew.longOp := rfl
@[simp] theorem State.setAssembly_stew_program (s : State) (a : Option Assembly) :
    (s.setAssembly a).stew.program = s.stew.program := rfl
@[simp] theorem State.setAssembly_stew_tallies (s : State) (a : Option Assembly) :
    (s.setAssembly a).stew.tallies = s.stew.tallies := rfl
@[simp] theorem State.setAssembly_stew_smbAddr (s : State) (a : Option Assembly) :
    (s.setAssembly a).stew.smbAddr = s.stew.smbAddr := rfl
@[simp] theorem State.setAssembly_stew_chainIn (s : State) (a : Option Assembly) :
    (s.setAssembly a).stew.chainIn = s.stew.chainIn := rfl
@[simp] theorem State.setAssembly_stew_chainOut (s : State) (a : Option Assembly) :
    (s.setAssembly a).stew.chainOut = s.stew.chainOut := rfl
@[simp] theorem State.setAssembly_stew_booted (s : State) (a : Option Assembly) :
    (s.setAssembly a).stew.booted = s.stew.booted := rfl
@[simp] theorem State.setAssembly_stew_lockstep (s : State) (a : Option Assembly) :
    (s.setAssembly a).stew.lockstep = s.stew.lockstep := rfl
@[simp] theorem State.setAssembly_stew_warmAsked (s : State) (a : Option Assembly) :
    (s.setAssembly a).stew.warmAsked = s.stew.warmAsked := rfl
@[simp] theorem State.setAssembly_stew_warmBy (s : State) (a : Option Assembly) :
    (s.setAssembly a).stew.warmBy = s.stew.warmBy := rfl
@[simp] theorem State.setAssembly_stew_alive (s : State) (a : Option Assembly) :
    (s.setAssembly a).stew.alive = s.stew.alive := rfl
@[simp] theorem State.setAssembly_stew_holdAsked (s : State) (a : Option Assembly) :
    (s.setAssembly a).stew.holdAsked = s.stew.holdAsked := rfl
@[simp] theorem State.setAssembly_stew_sram (s : State) (a : Option Assembly) :
    (s.setAssembly a).stew.sram = s.stew.sram := rfl
@[simp] theorem State.setAssembly_stew_resetAsked (s : State) (a : Option Assembly) :
    (s.setAssembly a).stew.resetAsked = s.stew.resetAsked := rfl
@[simp] theorem State.setAssembly_stew_stepReplies (s : State) (a : Option Assembly) :
    (s.setAssembly a).stew.stepReplies = s.stew.stepReplies := rfl

/-! ## setCap -/

@[simp] theorem State.setCap_fab (s : State) (w : BitVec 16) : (s.setCap w).fab = s.fab := rfl
@[simp] theorem State.setCap_clk (s : State) (w : BitVec 16) : (s.setCap w).clk = s.clk := rfl
@[simp] theorem State.setCap_heath (s : State) (w : BitVec 16) : (s.setCap w).heath = s.heath := rfl
@[simp] theorem State.setCap_house (s : State) (w : BitVec 16) : (s.setCap w).house = s.house := rfl
@[simp] theorem State.setCap_stew (s : State) (w : BitVec 16) : (s.setCap w).stew = s.stew := rfl
@[simp] theorem State.setCap_vault (s : State) (w : BitVec 16) : (s.setCap w).vault = s.vault := rfl
@[simp] theorem State.setCap_surv (s : State) (w : BitVec 16) : (s.setCap w).surv = s.surv := rfl
@[simp] theorem State.setCap_mem (s : State) (w : BitVec 16) : (s.setCap w).mem = s.mem := rfl
@[simp] theorem State.setCap_ecc (s : State) (w : BitVec 16) : (s.setCap w).ecc = s.ecc := rfl
@[simp] theorem State.setCap_egress (s : State) (w : BitVec 16) : (s.setCap w).egress = s.egress := rfl
@[simp] theorem State.setCap_fresh (s : State) (w : BitVec 16) : (s.setCap w).fresh = s.fresh := rfl
@[simp] theorem State.setCap_pending (s : State) (w : BitVec 16) : (s.setCap w).pending = s.pending := rfl
@[simp] theorem State.setCap_power_on (s : State) (w : BitVec 16) : (s.setCap w).power.on = s.power.on := rfl
@[simp] theorem State.setCap_power_pgood (s : State) (w : BitVec 16) : (s.setCap w).power.pgood = s.power.pgood := rfl
@[simp] theorem State.setCap_power_modEn (s : State) (w : BitVec 16) : (s.setCap w).power.modEn = s.power.modEn := rfl
@[simp] theorem State.setCap_power_strapped (s : State) (w : BitVec 16) :
    (s.setCap w).power.strapped = s.power.strapped := rfl
@[simp] theorem State.setCap_power_pgoodAt (s : State) (w : BitVec 16) :
    (s.setCap w).power.pgoodAt = s.power.pgoodAt := rfl
@[simp] theorem State.setCap_power_modEnAt (s : State) (w : BitVec 16) :
    (s.setCap w).power.modEnAt = s.power.modEnAt := rfl
@[simp] theorem State.setCap_power_railsOff (s : State) (w : BitVec 16) :
    (s.setCap w).power.railsOff = s.power.railsOff := rfl
@[simp] theorem State.setCap_power_vin (s : State) (w : BitVec 16) : (s.setCap w).power.vin = s.power.vin := rfl
@[simp] theorem State.setCap_power_pin (s : State) (w : BitVec 16) : (s.setCap w).power.pin = s.power.pin := rfl
@[simp] theorem State.setCap_power_trip (s : State) (w : BitVec 16) : (s.setCap w).power.trip = s.power.trip := rfl
@[simp] theorem State.setCap_power_tripSensor (s : State) (w : BitVec 16) :
    (s.setCap w).power.tripSensor = s.power.tripSensor := rfl
@[simp] theorem State.setCap_power_uvSeen (s : State) (w : BitVec 16) :
    (s.setCap w).power.uvSeen = s.power.uvSeen := rfl
@[simp] theorem State.setCap_power_readings (s : State) (w : BitVec 16) :
    (s.setCap w).power.readings = s.power.readings := rfl
@[simp] theorem State.setCap_power_above (s : State) (w : BitVec 16) : (s.setCap w).power.above = s.power.above := rfl
@[simp] theorem State.setCap_power_below (s : State) (w : BitVec 16) : (s.setCap w).power.below = s.power.below := rfl
@[simp] theorem State.setCap_power_thermalStep (s : State) (w : BitVec 16) :
    (s.setCap w).power.thermalStep = s.power.thermalStep := rfl
@[simp] theorem State.setCap_power_powerStep (s : State) (w : BitVec 16) :
    (s.setCap w).power.powerStep = s.power.powerStep := rfl
@[simp] theorem State.setCap_power_holders (s : State) (w : BitVec 16) :
    (s.setCap w).power.holders = s.power.holders := rfl

/-! ## emit -/

@[simp] theorem State.emit_fab (s : State) (o : Output) : (s.emit o).fab = s.fab := rfl
@[simp] theorem State.emit_clk (s : State) (o : Output) : (s.emit o).clk = s.clk := rfl
@[simp] theorem State.emit_heath (s : State) (o : Output) : (s.emit o).heath = s.heath := rfl
@[simp] theorem State.emit_house (s : State) (o : Output) : (s.emit o).house = s.house := rfl
@[simp] theorem State.emit_stew (s : State) (o : Output) : (s.emit o).stew = s.stew := rfl
@[simp] theorem State.emit_vault (s : State) (o : Output) : (s.emit o).vault = s.vault := rfl
@[simp] theorem State.emit_surv (s : State) (o : Output) : (s.emit o).surv = s.surv := rfl
@[simp] theorem State.emit_power (s : State) (o : Output) : (s.emit o).power = s.power := rfl
@[simp] theorem State.emit_mem (s : State) (o : Output) : (s.emit o).mem = s.mem := rfl
@[simp] theorem State.emit_ecc (s : State) (o : Output) : (s.emit o).ecc = s.ecc := rfl
@[simp] theorem State.emit_fresh (s : State) (o : Output) : (s.emit o).fresh = s.fresh := rfl
@[simp] theorem State.emit_pending (s : State) (o : Output) : (s.emit o).pending = s.pending := rfl

/-! ## draw -/

@[simp] theorem State.draw_fab (s : State) : (s.draw).fab = s.fab := rfl
@[simp] theorem State.draw_clk (s : State) : (s.draw).clk = s.clk := rfl
@[simp] theorem State.draw_heath (s : State) : (s.draw).heath = s.heath := rfl
@[simp] theorem State.draw_house (s : State) : (s.draw).house = s.house := rfl
@[simp] theorem State.draw_stew (s : State) : (s.draw).stew = s.stew := rfl
@[simp] theorem State.draw_vault (s : State) : (s.draw).vault = s.vault := rfl
@[simp] theorem State.draw_surv (s : State) : (s.draw).surv = s.surv := rfl
@[simp] theorem State.draw_power (s : State) : (s.draw).power = s.power := rfl
@[simp] theorem State.draw_mem (s : State) : (s.draw).mem = s.mem := rfl
@[simp] theorem State.draw_ecc (s : State) : (s.draw).ecc = s.ecc := rfl
@[simp] theorem State.draw_egress (s : State) : (s.draw).egress = s.egress := rfl
@[simp] theorem State.draw_pending (s : State) : (s.draw).pending = s.pending := rfl
/-! ## Reading what was stored -/

@[simp] theorem State.tile_setTile (s : State) (t u : Nat) (x : Tile) :
    (s.setTile t x).tile u = if u = t then x else s.tile u := Sparse.get_set _ _ _ _ _
@[simp] theorem State.field_setField (s : State) (f g : Nat) (x : Field) :
    (s.setField f x).field g = if g = f then x else s.field g := Sparse.get_set _ _ _ _ _
@[simp] theorem State.die_setDie (s : State) (d e : Nat) (x : Die) :
    (s.setDie d x).die e = if e = d then x else s.die e := Sparse.get_set _ _ _ _ _
@[simp] theorem State.stack_setStack (s : State) (k j : Nat) (x : Stack) :
    (s.setStack k x).stack j = if j = k then x else s.stack j := Sparse.get_set _ _ _ _ _
@[simp] theorem State.link_setLink (s : State) (k j : Nat) (x : Link) :
    (s.setLink k x).link j = if j = k then x else s.link j := Sparse.get_set _ _ _ _ _
@[simp] theorem State.chan_setChan (s : State) (c d : Nat) (x : Channel) :
    (s.setChan c x).chan d = if d = c then x else s.chan d := Sparse.get_set _ _ _ _ _
@[simp] theorem State.island_setIsland (s : State) (d e : Nat) (x : Island) :
    (s.setIsland d x).island e = if e = d then x else s.island e := Sparse.get_set _ _ _ _ _
@[simp] theorem State.till_setTill (s : State) (n m : Nat) (v : BitVec 32) :
    (s.setTill n v).till m = if m = n then v else s.till m := Sparse.get_set _ _ _ _ _

end Sys2Proof.Machine
end

