-- ==== Sys2Proof/Tests/Slice0.lean ====
section
/-!
SUPPORT. The model's own tests: ill-formed commands that the checks refuse, and for every statement states and operands that
meet its hypotheses, clause by clause.
-/
namespace Sys2Proof.Tests
open Sys2Proof Sys2Proof.Machine

-- One theorem at a time: elaborated side by side, these would each hold a thread until the ones before are checked.
set_option Elab.async false

/-! ## Well-formedness -/

theorem test_tile_number_refused : (Instr.endProgram 768 { lvl := 0, p := false, pidx := 0, imm := 0, arg := 0 }).wellFormed = false := by decide
theorem test_track_number_refused : (Instr.streamWordArrival 0 false 48).wellFormed = false := by decide
theorem test_link_number_refused : (Instr.linkReset 20).wellFormed = false := by decide
theorem test_stack_number_refused : (Instr.refresh 12 0).wellFormed = false := by decide
theorem test_domain_number_refused : (Instr.stretch 100 0).wellFormed = false := by decide
theorem test_row_number_refused : (Instr.escrowSwap 0 6 0).wellFormed = false := by decide
theorem test_line_number_refused : (Instr.scrub 0 20480).wellFormed = false := by decide
theorem test_last_tile_accepted : (Instr.endProgram 767 { lvl := 0, p := false, pidx := 0, imm := 0, arg := 0 }).wellFormed = true := by decide

/-! ## States -/

/-- A powered device in a replay, in cycle 100, whose tile 0 is `x`. -/
def withTile (x : Tile) : State :=
  { State.reset with
    fab := { State.reset.fab with tiles := [(0, x)], scc := 100 }
    stew := { State.reset.stew with booted := true, state := 3, program := { State.reset.stew.program with armed := true, replays := 1 } }
    power := { State.reset.power with pgood := true } }

/-- A tile that runs. -/
def going : Tile := { seq := { ({} : Seq) with run := true } }

/-- A tile that runs, with one word in a 64 B queue end. -/
def fed (q : BitVec 6) : Tile := going.setEnd64 q [{ data := 7, cyc := 50 }]

theorem slotOpen_of {s : State} {t : TileNo} {k : Nat}
    (h : (s.running && tileIn s.grade t.toNat && !(s.tile t.toNat).seq.stopped && (s.tile t.toNat).issues s.fab.scc
      && ((s.tile t.toNat).openBundle s.fab.scc).slotFree k
      && (s.slotTile t.toNat k).mark 4 (s.slotTile t.toNat k).iaddr.toNat != 2) = true) : SlotOpen s t k := by
  simp only [Bool.and_eq_true, Bool.not_eq_true', bne_iff_ne] at h
  exact ⟨h.1.1.1.1.1, h.1.1.1.1.2, h.1.1.1.2, .inr h.1.1.2, h.1.2, h.2⟩

theorem canPop_of {x : Tile} {now : Scc} {q : BitVec 6} {e : Entry} {es : List Entry}
    (h : (!x.popped q && x.end64 q = e :: es && e.cyc != now && e.mark != 2) = true) : x.CanPop now q e es := by
  simp only [Bool.and_eq_true, Bool.not_eq_true', bne_iff_ne, decide_eq_true_eq] at h
  exact ⟨h.1.1.1, h.1.1.2, by simpa using h.1.2, by simpa using h.2⟩

/-! ## Vector operations -/

/-- The fields of a V operation of a form, with registers and no vector queue named. -/
def vFor (f : VForm) (d : BitVec 6) : VSlot :=
  { dst := d, srcA := if f.srcA = 1 then 0x20 else if f.srcA = 2 then 0 else 0x1F, srcB := if f.b then 0x21 else 0x1F,
    srcC := if f.c then 0x22 else 0x1F, rnd := 0, bp := false, fmt := 0, part := 0, sh := 0, xa := 0, xb := 0, slice := 0, rsv := 0 }

/-- Every lane operation meets its hypotheses on a tile that runs, with registers 0, 1 and 2 as sources and 3 as result. -/
theorem test_lane_operations_witness : SlotOpen (withTile going) 0 1 ∧ laneTable.all (fun p =>
    p.2.1.form.ok (vFor p.2.1.form 0x23)
    && (((withTile going).slotTile 0 1).sources 100 p.2.1.form (vFor p.2.1.form 0x23)).isOk) = true :=
  ⟨slotOpen_of (by decide), by decide⟩

theorem test_fp64_operations_witness : SlotOpen (withTile going) 0 1
    ∧ (withTile going).grade = 0 ∧ ((withTile going).slotTile 0 1).fp64Busy 100 = false
    ∧ fp64Table.all (fun p => p.2.1.form.ok { vFor p.2.1.form 0x23 with part := if p.2.1.form.part then 1 else 0 }
      && (((withTile going).slotTile 0 1).sources 100 p.2.1.form (vFor p.2.1.form 0x23)).isOk) = true :=
  ⟨slotOpen_of (by decide), by decide, by decide, by decide⟩

/-- CVTN, CVTW and RNG meet their hypotheses. -/
theorem test_conversions_and_rng_witness :
    (∃ a b c y, ((withTile going).slotTile 0 1).sources 100 { srcA := 1, dst := 2, rnd := true, fmt := true, part := true }
      { vFor formA 0 with dst := 8, fmt := 2 } = .ok (a, b, c, y))
    ∧ ({ srcA := 1, dst := 2, rnd := true, fmt := true, part := true } : VForm).ok { vFor formA 0 with dst := 8, fmt := 2 } = true
    ∧ cvtFmtOk 2 = true ∧ 0 < partsOf 2
    ∧ (∃ a b c y w x, ((withTile (fed 0)).slotTile 0 1).sources 100 { srcA := 2, b := true, fmt := true, part := true }
        { vFor { srcA := 2, b := true } 0x23 with fmt := 2 } = .ok (a, b, c, y) ∧ y.pop64 100 1 0 = .ok (w, x))
    ∧ ({ srcA := 2, b := true, fmt := true, part := true } : VForm).ok { vFor { srcA := 2, b := true } 0x23 with fmt := 2 } = true
    ∧ ({ b := false } : VForm).ok (vFor {} 0x23) = true
    ∧ (∃ y, ((withTile going).slotTile 0 1).claimPush 1 0x23 = .ok y) :=
  ⟨⟨_, _, _, _, rfl⟩, by decide, by decide, by decide, ⟨_, _, _, _, _, _, rfl, rfl⟩, by decide, by decide, ⟨_, rfl⟩⟩

/-- Each form of an operation on the exact accumulators meets its hypotheses. -/
theorem test_exact_accumulators_witness :
    ((withTile going).slotTile 0 1).exaBusy 100 = false
    ∧ ([({ dst := 0, xa := true }, 0x1F, 0), ({ srcA := 1, dst := 0, fmt := true, xa := true }, 0x1F, 5),
        ({ srcA := 1, dst := 0, fmt := true, xa := true }, 0x1F, 6), ({ dst := 0, xa := true, xb := true }, 0x1F, 0),
        ({ rnd := true, xa := true }, 0x23, 0), ({ xa := true, slice := true }, 0x23, 0),
        ({ srcA := 1, dst := 0, xa := true, slice := true }, 0x1F, 0)] : List (VForm × BitVec 6 × BitVec 4)).all (fun p =>
      p.1.ok { vFor p.1 p.2.1 with fmt := p.2.2 }
      && (((withTile going).slotTile 0 1).sources 100 p.1 { vFor p.1 p.2.1 with fmt := p.2.2 }).isOk) = true :=
  ⟨by decide, by decide⟩

/-- The tile of a result that is due in cycle 100 for `dst`. -/
def resultDue (dst : BitVec 6) : Tile :=
  { going with vec := { going.vec with results :=
    [{ dst := dst, data := 5, due := 100, issued := 99, iaddr := 0, slot := 1, flags := 0 }] } }

/-- A result for nobody, for the last register, for a vector queue and for a 64 B end, and a 64 B end that is full. -/
theorem test_results_witness : ([0x1F, 0x3F, 0x18, 8] : List (BitVec 6)).all (fun d =>
    (withTile (resultDue d)).running && ((resultDue d).vec.results.filter fun q => q.dst = d && q.due = 100).length = 1
    && (d = qeNone || qeIsReg d || (qeIsVQ d && ((resultDue d).vq d).length < qeDepth d)
      || (qeDst64 d && ((resultDue d).end64 d).length < qeDepth d))) = true
    ∧ (qeDst64 8 = true ∧ qeDepth 8 ≤ ((going.setEnd64 8 (List.replicate 16 { data := 7, cyc := 50 })).end64 8).length)
    ∧ (8 : BitVec 6) ≠ qeNone := by decide

/-! ## Matrix unit, scratchpad and streams -/

def mmaSlot : MSlot := { fmt := 7, bank := 3, acc := true, plane := true, ag := 0, off := 0, rsv := 0 }

theorem test_mma_witness : SlotOpen (withTile (fed qeMA)) 0 0
    ∧ ((withTile (fed qeMA)).slotTile 0 0).arrayBusy 100 = false
    ∧ ((withTile (fed qeMA)).slotTile 0 0).loading 100 mmaSlot.plane = false
    ∧ ((withTile (fed qeMA)).slotTile 0 0).CanPop 100 qeMA { data := 7, cyc := 50 } []
    ∧ ∃ y x, (((withTile (fed qeMA)).slotTile 0 0).afterPop qeMA { data := 7, cyc := 50 } []).readMark 6 1 0 1 = .ok y
      ∧ y.readMark 6 5 0 5 = .ok x :=
  ⟨slotOpen_of (by decide), by decide, by decide, canPop_of (by decide +kernel), _, _, rfl, rfl⟩

theorem test_ldw_witness : SlotOpen (withTile going) 0 0 ∧ ((withTile going).slotTile 0 0).mx.load = none
    ∧ ((withTile going).slotTile 0 0).loading 100 false = false ∧ ((withTile going).slotTile 0 0).loading 100 true = false
    ∧ (((withTile going).slotTile 0 0).readLines (planeLines 7 0).dedup).isOk = true :=
  ⟨slotOpen_of (by decide), by decide, by decide, by decide, by decide +kernel⟩

def loading : Tile := { going with mx := { going.mx with load := some { plane := true, data := { scales := 3 }, last := 100 } } }
theorem test_weight_load_witness : (withTile loading).running = true ∧ tileIn (withTile loading).grade 0 = true
    ∧ ∃ l, ((withTile loading).tile 0).mx.load = some l ∧ l.last = 100 := ⟨by decide, by decide, _, rfl, rfl⟩

def settling : Tile := { going with mx := { going.mx with passes :=
  [{ bank := 3, fmt := 0, acc := true, act := 0, plane := 0, scales := 0, settle := 100 }] } }
theorem test_settle_witness : ∃ p, (((withTile settling).tile 0).mx.passes.find? fun q => q.bank = 3 && q.settle = 100) = some p :=
  ⟨_, rfl⟩

def lSlot (qe : BitVec 6) : LSlot := { ag := 0, off := 0, qe := qe, ag2 := 0, off2 := 0, chk := false, rsv := 0 }

/-- The checks of a scheduled read at the first line, for LD into an AQ end, LDV into a queue and a register, and OCW. -/
theorem test_reads_witness : SlotOpen (withTile going) 0 2
    ∧ ([(8, false), (0x18, true), (0x3F, true), (0x1F, true)] : List (BitVec 6 × Bool)).all (fun p =>
      chkOk (lSlot p.1) ((withTile going).slotTile 0 2) true
      && (match ((withTile going).slotTile 0 2).claimPush 2 p.1 with
        | .ok x => (escrowCheck ((withTile going).issueEnv 0) x 0).isOk
          && (bankCheck ((withTile going).issueEnv 0) x false p.2 0).isOk
        | .error _ => false)) = true :=
  ⟨slotOpen_of (by decide), by decide⟩

/-- A vector queue with one vector in it. -/
def fedV (q : BitVec 6) : Tile := going.setVq q [{ data := 9, cyc := 50 }]

theorem test_stores_witness :
    (∃ w x, ((withTile (fed 0)).slotTile 0 2).pop64 100 2 0 = .ok (w, x)
      ∧ bankCheck ((withTile (fed 0)).issueEnv 0) x true false 0 = .ok ())
    ∧ (∃ v x, ((withTile (fedV 0x18)).slotTile 0 2).popV 100 2 0x18 = .ok (v, x)
      ∧ bankCheck ((withTile (fedV 0x18)).issueEnv 0) x true true 0 = .ok ())
    ∧ escrowCheck ((withTile going).issueEnv 0) ((withTile going).slotTile 0 2) 0 = .ok ()
    ∧ ((withTile going).slotTile 0 2).speculative 100 = false
    ∧ bankCheck ((withTile going).issueEnv 0) ((withTile going).slotTile 0 2) true true 0 = .ok ()
    ∧ ∃ x, ((withTile going).slotTile 0 2).readMark 3 31 2 31 = .ok x :=
  ⟨⟨_, _, rfl, rfl⟩, ⟨_, _, rfl, rfl⟩, rfl, by decide, rfl, _, rfl⟩

def landing : Tile := { going with pad := { going.pad with writes :=
  [{ addr := 0, wide := true, data := 1, due := 100, gen := 0, spec := false }] } }
theorem test_land_witness : ∃ w, (((withTile landing).tile 0).pad.writes.find? fun v => v.due = 100) = some w ∧ w.spec = false :=
  ⟨_, rfl, rfl⟩

/-- A tile in an open escrow group, past its EOPEN cycle. -/
def forked (x : Tile) : Tile := { x with esc := { x.esc with openedAt := some 99, group := 3 } }

theorem test_redirect_witness : ((withTile (forked (fed 0))).slotTile 0 2).speculative 100 = true
    ∧ (∃ y w x, ((withTile (forked (fed 0))).slotTile 0 2).redirectAll 3 (padLines false 0) = .ok y
      ∧ y.pop64 100 2 0 = .ok (w, x) ∧ bankCheck ((withTile (forked (fed 0))).issueEnv 0) x true false 0 = .ok ())
    ∧ (∃ y v x, ((withTile (forked (fedV 0x18))).slotTile 0 2).redirectAll 3 (padLines true 0) = .ok y
      ∧ y.popV 100 2 0x18 = .ok (v, x) ∧ bankCheck ((withTile (forked (fedV 0x18))).issueEnv 0) x true true 0 = .ok ())
    ∧ (∃ y, ((withTile (forked going)).slotTile 0 2).redirectAll 3 (padLines true 0) = .ok y
      ∧ (∃ x, y.readMark 3 0 2 0 = .ok x) ∧ bankCheck ((withTile (forked going)).issueEnv 0) y true true 0 = .ok ())
    ∧ (0 : Nat) < padTop :=
  ⟨by decide, ⟨_, _, _, rfl, rfl, rfl⟩, ⟨_, _, _, rfl, rfl, rfl⟩, ⟨_, rfl, ⟨_, rfl⟩, rfl⟩, by decide⟩

theorem test_petty_requests_witness :
    escrowCheck ((withTile going).issueEnv 0) ((withTile going).slotTile 0 2) 0 = .ok ()
    ∧ bankCheck ((withTile going).issueEnv 0) ((withTile going).slotTile 0 2) false false 0 = .ok ()
    ∧ ((withTile going).slotTile 0 2).pettyOut < 64 ∧ ((withTile going).slotTile 0 2).postOut < 16
    ∧ (∃ x, ((withTile going).slotTile 0 2).readMark 3 0 2 0 = .ok x) ∧ (withTile going).grade ≠ 2
    ∧ ((withTile (forked going)).slotTile 0 2).heldCount < 64
    ∧ (∃ d x, ((withTile (fedV 0x18)).slotTile 0 2).popV 100 2 0x18 = .ok (d, x)
      ∧ ((withTile (fedV 0x18)).slotTile 0 2).pettyOut < 64
      ∧ bankCheck ((withTile (fedV 0x18)).issueEnv 0) ((withTile (fedV 0x18)).slotTile 0 2) false false 0 = .ok ()) :=
  ⟨rfl, rfl, by decide, by decide, ⟨_, rfl⟩, by decide, by decide, ⟨_, _, rfl, by decide, rfl⟩⟩

def asking (k : ReqKind) (d : Line) : Tile := { going with petty := { going.petty with reqs :=
  [{ kind := k, addr := 0, qe := 0x1F, issued := 97, iaddr := 0, number := 0, line := some d, data := 0, spec := false }] } }
/-- A post line that the checks accept: one item, no segments. -/
def postLine : Line := BitVec.ofNat 512 (2 ^ 32 + 2 ^ 72 + 6 * 2 ^ 80 + 2 ^ 96)
theorem test_request_line_witness :
    (∃ r d, (((withTile (asking .pget 0)).tile 0).petty.reqs.find? fun q => q.issued + 3 = 100) = some r ∧ r.line = some d
      ∧ r.kind ≠ .gpost)
    ∧ (∃ r d, (((withTile (asking .gpost postLine)).tile 0).petty.reqs.find? fun q => q.issued + 3 = 100) = some r
      ∧ r.line = some d ∧ r.kind = .gpost ∧ postLineOk r.qe d = true ∧ stackIn 0 (postStack d) = true
      ∧ (r.spec && postWr d) = false ∧ ((withTile (asking .gpost postLine)).tile 0).discarded r = false
      ∧ ((withTile (asking .gpost postLine)).tile 0).earlierHeld 11 r.number = false)
    ∧ ({ going with esc := { going.esc with held := [(90, .gpost 5 11 0 0)] } } : Tile).earlierHeld 11 6 = true
    ∧ postWr (BitVec.ofNat 512 (2 ^ 25)) = true ∧ (forked going).heldCount < 64 :=
  ⟨⟨_, _, rfl, rfl, by decide⟩,
    ⟨_, _, rfl, rfl, rfl, by decide +kernel, by decide +kernel, rfl, by decide +kernel, by decide +kernel⟩,
    by decide +kernel, by decide +kernel, by decide +kernel⟩

/-- A word on track 47, eastward, with the stamp of a drive one cycle before. -/
def passing (w : Word) (x : Tile) : Tile := x.setWord false 47 (some w)
def subSlot (lat : BitVec 8) : SSub := { west := false, track := 47, fin := 1, lat := lat, rsv := 0 }

theorem test_stream_take_witness :
    (∃ x, ((((withTile (passing { data := 1, stamp := 3, set := 0 } going)).slotTile 0 3).modBundle fun b =>
      { b with taken := trackKey false 47 :: b.taken }).claimPush 3 1) = .ok x
      ∧ x.wordAt false 47 = some { data := 1, stamp := 3, set := 0 }
      ∧ (x.end64 1).length < qeDepth 1
      ∧ (x.put64 100 3 1 1).marked false 47 = false ∧ x.pad.fails = [])
    ∧ (3 : BitVec 3) = ((100 : Scc) - (1 : BitVec 8).setWidth 48).setWidth 3
    ∧ (3 : BitVec 3) ≠ ((100 : Scc) - (2 : BitVec 8).setWidth 48).setWidth 3 :=
  ⟨⟨_, rfl, rfl, by decide, by decide, rfl⟩, by decide, by decide⟩

theorem test_stream_drive_and_move_witness :
    (((withTile (fed 9)).slotTile 0 3).modBundle fun b => { b with driven := trackKey false 47 :: b.driven }).CanPop 100 9
        { data := 7, cyc := 50 } []
    ∧ ((withTile (fed 9)).issueEnv 0).window = false
    ∧ (∃ x, ((withTile (fed 0)).slotTile 0 3).claimPush 3 8 = .ok x ∧ x.CanPop 100 0 { data := 7, cyc := 50 } []) :=
  ⟨canPop_of (by decide +kernel), by decide, ⟨_, rfl, canPop_of (by decide +kernel)⟩⟩

/-- A word that stands unread where its route ends, and one on its way. -/
def ending : Tile := { passing { data := 1, stamp := 3, set := 0 } going with seq := { going.seq with trackEnd := 1 <<< 47 } }
theorem test_stream_arrival_witness :
    ((withTile ending).strayOf 0 false 47 = none ∧ (((withTile ending).tile 0).marked false 47) = true)
    ∧ (withTile (passing { data := 1, stamp := 3, set := 0 } going)).strayOf 0 false 47 = none
    ∧ ((withTile (passing { data := 1, stamp := 3, set := 0 } going)).tile 0).marked false 47 = false := by
  refine ⟨⟨rfl, by decide⟩, rfl, by decide⟩

/-! ## Sequencer -/

def cSlot (arg : BitVec 16) : CSlot := { lvl := 0, p := false, pidx := 0, imm := 0, arg := arg }

theorem test_sequencer_witness :
    SlotOpen (withTile going) 0 4
    ∧ (let c : CSlot := { cSlot 15 with lvl := 5, imm := 0xFFFF }
       c.lvl.toNat < 6 ∧ c.arg.toNat < 16 ∧ c.valueForm = true ∧ ((withTile going).slotTile 0 4).iaddr.toNat + 1 + 15 ≤ 1535
       ∧ c.count ((withTile going).slotTile 0 4) = .ok 0xFFFF)
    ∧ ((cSlot 1535).bare = true ∧ ((withTile going).slotTile 0 4).anyLoop = false)
    ∧ ({ cSlot 0 with imm := 1 } : CSlot).count ((withTile going).slotTile 0 4) = .ok 1
    ∧ (SlotOpen (withTile going) 0 6 ∧ ((withTile going).tile 0).bundleIn 100 = none)
    ∧ ((withTile { going with seq := { going.seq with idling := true, resumeAt := some 101 } }).tile 0).seq.idling = true :=
  ⟨slotOpen_of (by decide), by decide, by decide, rfl, ⟨slotOpen_of (by decide), by decide⟩, by decide⟩

/-- Two active levels: the outer has an iteration left, and the inner may be finished or not. -/
def looping (inner : BitVec 24) : Tile :=
  { going with seq := { going.seq with loops := [(0, { active := true, index := 0, start := 1, count := 2 }),
      (5, { active := true, index := inner, start := 2, count := 4 })] } }

theorem test_loop_end_witness :
    SlotOpen (withTile (looping 3)) 0 5
    ∧ (∃ b, ((withTile (looping 3)).slotTile 0 5).bundle = some b ∧ b.active.getLsbD 0 = true ∧ b.active.getLsbD 5 = true
      ∧ ([2, 4, 0x21, 0x22, 0x23] : List Nat).contains b.cop = false)
    ∧ (((withTile (looping 3)).slotTile 0 5).loop 0).index.toNat + 1 < (((withTile (looping 3)).slotTile 0 5).loop 0).count.toNat
    ∧ ¬ ((((withTile (looping 3)).slotTile 0 5).loop 5).index.toNat + 1
      < (((withTile (looping 3)).slotTile 0 5).loop 5).count.toNat)
    ∧ ((((withTile (looping 2)).slotTile 0 5).loop 5).index.toNat + 1
      < (((withTile (looping 2)).slotTile 0 5).loop 5).count.toNat) :=
  ⟨slotOpen_of (by decide), ⟨_, rfl, by decide, by decide, by decide⟩, by decide, by decide, by decide⟩

/-- With LEVEL 5 the finished inner level closes and the outer is not touched. -/
theorem test_loop_end_closes : (((looping 3).closeLoops 5 [5, 4, 3, 2, 1, 0]).loop 5).active = false
    ∧ (((looping 3).closeLoops 5 [5, 4, 3, 2, 1, 0]).loop 0) = (looping 3).loop 0 := by decide

/-- With LEVEL 0 the outer level goes on, and the finished inner one stays active with index 0. -/
theorem test_loop_end_advances : ((looping 3).closeLoops 0 [5, 4, 3, 2, 1, 0]).seq.pc = 1
    ∧ (((looping 3).closeLoops 0 [5, 4, 3, 2, 1, 0]).loop 5).active = true
    ∧ (((looping 3).closeLoops 0 [5, 4, 3, 2, 1, 0]).loop 5).index = 0 := by decide

theorem test_posted_witness :
    ((withTile going).slotTile 0 4).speculative 100 = false
    ∧ ((withTile (forked going)).slotTile 0 4).speculative 100 = true
    ∧ ((withTile (forked going)).slotTile 0 4).heldCount < 64
    ∧ (cSlot 0x7FFF).valueForm = true ∧ (cSlot 0x7FFF).arg.getLsbD 15 = false := by decide

/-- A field whose channel 5 is of kind 2 and whose descriptor 255 is idle, and a tile that may arm that descriptor. -/
def withField (f : Field) (x : Tile) : State := { withTile x with fab := { (withTile x).fab with fields := [(0, f)] } }

theorem test_posted_field_witness :
    ((withField { ckmap := [(5, 2)] } going).issueEnv 0).field.ckKind 5 = 2
    ∧ (cSlot 255).bare = true
    ∧ ({ going with seq := { going.seq with farmMap := 1 <<< 255 } } : Tile).seq.farmMap.getLsbD 255 = true
    ∧ descChanOk {} 0 = true ∧ farmLeaves ((withTile going).issueEnv 0) going 0 = false := by decide +kernel

/-- The verdict slot: pop SI end 0, and go on at index 7 on a 0. -/
def forkSlot : CSlot := { lvl := 0, p := false, pidx := 0, imm := 7, arg := 3 }

theorem test_generators_and_forks_witness :
    (cSlot 111).arg.toNat < 112 ∧ (cSlot 111).valueForm = true
    ∧ (∃ b, ((withTile { going with seq := { going.seq with genEn := true } }).slotTile 0 4).bundle = some b ∧ b.mvop = 0
      ∧ b.lop = false ∧ b.sop = 0)
    ∧ forkForm { forkSlot with arg := 0 } = true ∧ forkForm forkSlot = true
    ∧ ((withTile (fed 0)).slotTile 0 4).CanPop 100 0 { data := 7, cyc := 50 } []
    ∧ ((7 : Line).getLsbD 0 = true ∧ ((withTile (fed 0)).slotTile 0 4).iaddr ≠ 1535)
    ∧ (∃ b, ((withTile (forked (fed 0))).slotTile 0 4).bundle = some b ∧ b.lop = false ∧ b.sop = 0
      ∧ ((withTile (forked (fed 0))).slotTile 0 4).speculative 100 = true
      ∧ ((withTile (forked (fed 0))).slotTile 0 4).esc.group = forkSlot.arg.setWidth 4
      ∧ ((withTile (forked (fed 0))).slotTile 0 4).CanPop 100 0 { data := 7, cyc := 50 } []) :=
  ⟨by decide, by decide, ⟨_, rfl, rfl, rfl, rfl⟩, by decide, by decide, canPop_of (by decide +kernel), by decide +kernel,
    ⟨_, rfl, rfl, rfl, by decide, by decide, canPop_of (by decide +kernel)⟩⟩

/-- A device with an image that uses escrow, whose group 15 in row 0 of field 0 is tile 0. -/
def grouped : State :=
  let s := withField { escDef := [(15, 1)] } going
  { s with stew := { s.stew with program := { s.stew.program with digest := some 0, req := 1 <<< 66 } } }
theorem test_eopen_witness : (grouped.issueEnv 0).escrow = true
    ∧ ((grouped.issueEnv 0).field.members 0 15).getLsbD (tileCol 0) = true
    ∧ (grouped.slotTile 0 4).esc.openedAt = none ∧ (grouped.slotTile 0 4).afterEres 100 = false ∧ grouped.grade ≠ 2 := by decide

def waitingOn (w : Wait) : Tile := { going with waits := [w] }
def wait92 (kind : BitVec 3) (n : BitVec 32) : Wait := { issued := 92, iaddr := 0, kind := kind, n := n, arg := 0 }

theorem test_waits_witness :
    ((qePQ = qePQ || qeIsFQ qePQ) = true ∧ 1 ≤ qeDepth qePQ)
    ∧ (∃ w, (((withTile (waitingOn (wait92 3 0))).tile 0).waits.find? fun w => w.issued + 8 = 100) = some w
      ∧ (withTile (waitingOn (wait92 3 0))).waitMet 0 w = true)
    ∧ (∃ w, (((withTile (waitingOn (wait92 1 1))).tile 0).waits.find? fun w => w.issued + 8 = 100) = some w
      ∧ (withTile (waitingOn (wait92 1 1))).waitMet 0 w = false) :=
  ⟨by decide, ⟨_, rfl, by decide⟩, ⟨_, rfl, by decide⟩⟩

def draining (d : Drain) (s : State) : State := { s with fab := { s.fab with drains := [d] } }
def drain92 : Drain := { cyc := 92, set := some 1, clash := false, count := false, sampled := false, checked := false, counted := false }
def drain69 : Drain := { drain92 with cyc := 69, sampled := true }

theorem test_drains_witness :
    (draining { drain92 with sampled := true } (withTile going)).drainUnmet = none
    ∧ (draining { drain92 with sampled := true } (withTile (asking .pget 0))).drainUnmet ≠ none
    ∧ (draining drain92 (withTile going)).sampleDue = some drain92
    ∧ (draining drain69 (withTile going)).setDue = some 1 := by decide

/-- Bank 15 of tile 0 is fallow in set 1, and cycle 100 is the last before that holds. -/
def goingFallow : State :=
  let s := withField { fset := [(1024 * 1 + 640, 0x8000)] } going
  draining drain69 s
def waking : State := withTile { going with pad := { going.pad with waking := 0x8000, wakeAt := [(15, 100)] } }
theorem test_banks_witness :
    (goingFallow.setDue = some 1 ∧ ((goingFallow.field 0).fallowMask 1 0).getLsbD 15 = true ∧ (goingFallow.tile 0).pad.fallow.getLsbD 15 = false)
    ∧ (Sparse.find? 15 (waking.tile 0).pad.wakeAt = some 100 ∧ (waking.tile 0).pad.waking.getLsbD 15 = true
      ∧ sccGe (100 + 1) 100 = true) := by decide

def releasing (west : Bool) : Tile :=
  { going with esc := { going.esc with
      releasing := [(100, .till 0 1 false)]
      relEast := if west then [] else [(100, 47, 5)]
      relWest := if west then [(100, 47, 5)] else [] } }
theorem test_escrow_releases_witness :
    (∃ r, (((withTile (releasing false)).tile 0).esc.releasing.find? fun r => r.1 = 100) = some r)
    ∧ (∃ r, (((withTile (releasing false)).tile 0).esc.relEast.find? fun r => r.1 = 100 && r.2.1 = 47) = some r)
    ∧ ((withTile (releasing false)).tile 0).wordAt false 47 = none
    ∧ (∃ r, (((withTile (releasing true)).tile 0).esc.relWest.find? fun r => r.1 = 100 && r.2.1 = 47) = some r)
    ∧ ((withTile (releasing true)).tile 0).wordAt true 47 = none ∧ fieldIn 0 15 = true :=
  ⟨⟨_, rfl⟩, ⟨_, rfl⟩, by decide, ⟨_, rfl⟩, by decide, by decide⟩

/-! ## Clocks, holds and tills -/

/-- A device that has been on for a long time. -/
def aged (s : State) : State := { s with clk := { s.clk with clk := 10 ^ 30 } }
def holding (h : Hold) (s : State) : State := { s with fab := { s.fab with hold := h } }
def idleWait : HeldWait := { tile := 5, wait := wait92 3 0, metAt := none }

theorem test_holds_witness :
    ((holding { stopAt := some 100, step := true } (withTile going)).fab.hold.stopAt = some 100
      ∧ (holding { stopAt := some 100, halt := true } (withTile going)).fab.hold.halt = true)
    ∧ ((aged (holding { held := true, slip := true } (withTile going))).mayRestart = true
      ∧ (aged (holding { held := true, slip := true } (withTile going))).begun = true)
    ∧ ((aged (holding { held := true } State.reset)).mayRestart = true ∧ (holding { held := true } State.reset).begun = false)
    ∧ (let h : Hold := { held := true, waits := [idleWait], measured := 1000000 * usUnits }
       h.limit ≠ 0 ∧ h.unmet = true ∧ h.limit.toNat * usUnits ≤ h.measured
       ∧ firstWait (h.waits.filter fun w => w.metAt.isNone) = some idleWait)
    ∧ (let s := aged (holding { held := true, step := true } (withTile going))
       s.fab.hold.stepAt + 2 * usUnits ≤ s.clk.clk) := by decide +kernel

def withIslands (l : SMap Island) (s : State) : State := { s with clk := { s.clk with islands := l } }
theorem test_clocks_witness :
    islandIn 0 31 = false ∧ islandIn 0 6 = true ∧ domainIn 0 99 = true ∧ islandIn 0 99 = false
    ∧ ((withIslands [(6, { debt := 64 })] (withTile going)).island 6).debt + 32 = 96
    ∧ ((withIslands [(6, { debt := 96 })] (withTile going)).island 6).debt + 32 = 128
    ∧ ((withIslands [(6, { debt := 97 })] (withTile going)).island 6).debt + 32 = 129
    ∧ (withTile going).reaches .jtag = true ∧ (withTile {}).anyRun = false
    ∧ ((aged (withIslands [(6, { measuring := some 0 })] (withTile {}))).island 6).measuring = some 0 := by decide +kernel

def timed : State :=
  { aged (withTile going) with
    clk := { (aged (withTile going)).clk with consumers := [(90, { value := 9, valid := true })], monotonic := true }
    house := { State.reset.house with ports := [(0, { up := true, cfg := 0 })] } }
theorem test_time_witness :
    (timed.island 96).lost = false ∧ timed.beaconDue = true ∧ (94 : BitVec 7) ∉ ([99] : List (BitVec 7)) ∧ isConsumer 0 99 = true ∧ isConsumer 0 90 = true
    ∧ (Sparse.get ({} : Consumer) timed.clk.consumers 90).lastBeacon + 2 ^ 31 * nsUnits ≤ timed.clk.clk
    ∧ (timed.clk.monotonic && (2 ^ 63 : BitVec 64).msb) = true ∧ (timed.clk.monotonic && (1 : BitVec 64).msb) = false
    ∧ timed.subIn false 0 = true ∧ (timed.subPort false 0).up = true
    ∧ (Sparse.get [] timed.house.ptpQueue 0).length < 64
    ∧ (Sparse.get ({} : Consumer) timed.clk.consumers 94).valid = false := by decide +kernel

/-- In the second slot of 64 ns a short beacon is due, and in the slot that ends 2^20 ns a full one. -/
def inSlot (n : Nat) : State := { timed with clk := { timed.clk with clk := n * (64 * nsUnits), beacons := n - 1 } }
theorem test_beacons_witness :
    ((inSlot 2).beaconDue = true ∧ (inSlot 2).beaconFull = false) ∧ ((inSlot 16384).beaconDue = true ∧ (inSlot 16384).beaconFull = true)
    ∧ (Sparse.get ({} : Consumer) (inSlot 2).clk.consumers 90).valid = true
    ∧ -(2 ^ 30) ≤ ((inSlot 2).now - 9).toInt ∧ ((inSlot 2).now - 9).toInt ≤ 2 ^ 30 := by decide +kernel

theorem test_tills_witness :
    (withTile going).returnTill 0x7FFF = none
    ∧ (-(2 ^ 31) ≤ (0 : Int) + (0x80000000 : BitVec 32).toInt)
    ∧ (2 ^ 31 ≤ (0 : Int) - (0x80000000 : BitVec 32).toInt)
    ∧ (let x : Tile := { going with petty := { going.petty with tillOut := [(99, .till 8191 1 false)] } }
       ((withTile x).tile 0).petty.tillOut = [(99, .till 8191 1 false)] ∧ blockOf 8191 = 0 ∧ (withTile x).posted 99 = true)
    ∧ blockOf 8192 = 1 := by decide

/-- A ring end of 4 coins with a skip marker of one coin at position 3 and a message of two coins at position 0. -/
def skipping : RingEnd := { entry := 4 <<< 64, nextPos := 3, landed := [(3, 1, true), (0, 2, false)] }
/-- A ring end of 4 coins whose next message has landed. -/
def ringed : State :=
  let r : RingEnd := { entry := 4 <<< 64, nextPos := 3, landed := [(3, 1, false)] }
  let s := withTile going
  { s with fab := { s.fab with dies := [(3, { ringEnds := [(1023, r)] })] } }
def ringedOutbox : State := { ringed with house := { ringed.house with outboxes := [(0, 0x1FFF)] } }
theorem test_arrivals_witness :
    (let r := ringed.ringEnd 3 1023
     rendCoins r.entry ≠ 0 ∧ r.nextPos ∉ r.refused ∧ (r.landed.find? fun l => l.1 = r.nextPos) = some (r.nextPos, 1, false))
    ∧ (skipping.landed.find? fun l => l.1 = 3) = some (3, 1, true)
    ∧ (BitVec.ofNat 24 ((3 + 1) % rendCoins skipping.entry) : BitVec 24) = 0
    ∧ (skipping.landed.find? fun l => l.1 = 0) = some (0, 2, false) ∧ (0 : BitVec 24) ∉ skipping.refused
    ∧ (({ entry := 4 <<< 64 } : RingEnd).landed.find? fun l => l.1 = 0).isNone = true
    ∧ ringed.outboxEnd 3 1023 = false ∧ ringedOutbox.outboxEnd 3 1023 = true := by decide

/-- A petty transfer of tile 0. -/
def transfer : Petty :=
  { number := 1, iaddr := 0, put := true, chan := 0x3FFF, addr := 0, len := 64, sig := none, gen := 0, data := 0, phase := 1,
    burn := false, spec := false, left := 0, lines := [], words := [], err := none, cyc := 90 }
def transferring (p : Petty) : State := withTile { going with petty := { going.petty with transfers := [p] } }
def arrived : State := { withTile going with heath := { (withTile going).heath with receivers :=
  [(recvKey 2 7 0, { oldest := 3, parts := [{ tid := 3, seen := [], got := 1, total := some 1, waits := 0, sig := some (5, 1) }] })] } }

theorem test_signals_witness :
    (∃ p, (transferring { transfer with sig := some (5, 1) }).pettyOf 0 1 = some p ∧ p.sig = some (5, 1) ∧ p.put = true
      ∧ p.phase = 1 ∧ p.chan.toNat = localChan ∧ p.left = 0 ∧ p.err = none)
    ∧ (∃ p n, arrived.partOf { src := 2, chan := 7, member := 0, tid := 3 } = some p ∧ p.sig = some (5, 1) ∧ p.total = some n
      ∧ n ≤ p.got ∧ p.waits = 0 ∧ p.refused = none)
    ∧ (3 : BitVec 32) = (arrived.recv (recvKey 2 7 0)).oldest :=
  ⟨⟨_, rfl, rfl, rfl, rfl, rfl, rfl, rfl⟩, ⟨_, _, rfl, rfl, rfl, by decide, rfl, rfl⟩, rfl⟩

/-- An active descriptor 255 of field 15 with one block to move on the local channel. -/
def described (d : DescDyn) (tags : List Block) : State :=
  { withTile going with fab := { (withTile going).fab with fields :=
      [(15, { dyn := [(0, { out := tags }), (255, d)] })] } }
def block (n : BitVec 25) : Block := { index := n, left := 0, words := [], spec := false, done := false }
def armLine (kind chan : Nat) : Line := BitVec.ofNat 512 (kind + 1 * 2 ^ 8 + chan * 2 ^ 48 + 2 ^ 160 + 2 ^ 192)
def active (kind chan : Nat) : DescDyn := { st := 1, copy := armLine kind chan }

theorem test_fetch_witness :
    (fieldIn 0 15 = true ∧ (described (active 1 0x3FFF) []).permitted (active 1 0x3FFF) = true
      ∧ (described (active 1 5) []).permitted (active 1 5) = true
      ∧ ((described (active 1 0x3FFF) []).field 15).tagsOut < 768
      ∧ (described (active 1 0x3FFF) []).olderWaiter 15 255 = false
      ∧ descChan (active 1 0x3FFF).copy = localChan ∧ descChan (active 1 5).copy ≠ localChan)
    ∧ (let x : DescDyn := { active 1 0x3FFF with st := 2, next := 1, home := 1 }
       (described x []).desc 15 255 = x ∧ (described x []).armComplete x = true)
    ∧ (let x : DescDyn := { active 1 0x3FFF with burned := [9], out := [block 0] }
       x.burned.contains 9 = true ∧ x.burned.contains 0 = false
       ∧ (x.out.find? fun b => b.index = 0 && !b.done) = some (block 0) ∧ (block 0).left = 0)
    ∧ descKind (active 2 0x3FFF).copy = 2 ∧ descKind (active 3 0x3FFF).copy = 3
    ∧ place 0 true ((active 3 0x3FFF).daddr 0).toNat = .dram 0 0 := by decide +kernel

theorem test_fetch_tags_witness : 768 ≤ ((described {} ((List.range 768).map fun n => block (BitVec.ofNat 25 n))).field 15).tagsOut := by
  decide +kernel

theorem test_farm_witness :
    (let x : Tile := { going with petty := { going.petty with farmOut := [(99, .farm 255 false)] } }
     ((withTile x).tile 0).petty.farmOut = [(99, .farm 255 false)] ∧ (withTile x).posted 99 = true) := by decide

theorem test_petty_transfers_witness :
    (∃ p, (transferring { transfer with put := false }).pettyOf 0 1 = some p ∧ p.put = false ∧ p.phase = 1 ∧ p.burn = false
      ∧ p.err = none ∧ p.left = 0 ∧ p.chan.toNat = localChan ∧ place 0 true p.addr.toNat = .dram 0 0)
    ∧ (∃ s' bs, (transferring { transfer with put := false }).dramRead 0 0 64 = (s', some bs))
    ∧ place 0 true 0x100000000000 = .pad 0 0
    ∧ (∃ p, (transferring { transfer with put := false, burn := true }).pettyOf 0 1 = some p ∧ p.burn = true)
    ∧ (∃ p, (transferring transfer).pettyOf 0 1 = some p ∧ p.put = true ∧ p.err = none ∧ p.sig = none)
    ∧ (∃ p, (transferring { transfer with err := some (2, 0) }).pettyOf 0 1 = some p ∧ p.err = some (2, 0))
    ∧ (∃ p, (transferring { transfer with err := some (1, 0) }).pettyOf 0 1 = some p ∧ p.err = some (1, 0)) :=
  ⟨⟨_, rfl, rfl, rfl, rfl, rfl, rfl, rfl, by decide⟩, ⟨_, _, rfl⟩, by decide, ⟨_, rfl, rfl⟩, ⟨_, rfl, rfl, rfl, rfl⟩, ⟨_, rfl, rfl⟩, ⟨_, rfl, rfl⟩⟩

/-! ## Stacks and gleaners -/

def request (write : Bool) : URequest :=
  { agent := 5, age := 0, line := 20479, data := if write then some (0, maskFull) else none, gen := none, spec := false, owner := .scrub }
def resting : Tile := { going with seq := { going.seq with ended := true } }
def requested (write : Bool) : State := withTile { resting with pad := { resting.pad with ureqs := [request write] } }
theorem test_grants_witness : ∀ write : Bool,
    oldest 15 write ((requested write).tile 0).pad.ureqs = some (request write)
    ∧ ((requested write).tile 0).bankRefuses ((requested write).masksOf 0) 100 15 = false
    ∧ ((requested write).tile 0).grants (requested write).running 100 0 15 (request write) = true := by decide +kernel

/-- A request with a partial write, and one for a fallow bank. -/
theorem test_partial_and_fallow_witness :
    (let r : URequest := { request true with data := some (0, 1) }
     let x : Tile := { resting with pad := { resting.pad with ureqs := [r] } }
     r.part = true ∧ oldest 15 true x.pad.ureqs = some r ∧ x.grants true 100 0 15 r = true)
    ∧ (let x : Tile := { going with pad := { going.pad with ureqs := [request true], fallow := 0x8000 } }
       oldest 15 true x.pad.ureqs = some (request true) ∧ x.bankRefuses [] 100 15 = true) := by decide +kernel

def marked (l : SMap (BitVec 2)) : State := { withTile going with ecc := l }
def padMark : Nat := padAddr 767 (64 * 20479) / 16
theorem test_scrub_witness :
    (withTile going).eccCorrectable (padAddr 767 (64 * 20479)) 64 = 0
    ∧ (marked [(padMark, 1)]).eccCorrectable (padAddr 767 (64 * 20479)) 64 ≠ 0
    ∧ (marked [(padMark, 1)]).eccOf (padAddr 767 (64 * 20479)) 64 ≠ 2
    ∧ (marked [(padMark, 1), (padMark + 1, 2)]).eccOf (padAddr 767 (64 * 20479)) 64 = 2
    ∧ (Sparse.get 0 (marked [(0, 1)]).ecc 0 = 1 ∧ Sparse.get 0 (marked [(0, 2)]).ecc 0 = 2 ∧ stackIn 0 11 = true) := by
  decide +kernel

def stacked (x : Stack) : State :=
  { aged (withTile going) with heath := { (withTile going).heath with memStacks := [(11, x)] } }
theorem test_refresh_witness :
    ((stacked {}).stack 11).selfRefresh = false
    ∧ Sparse.get 0 ((stacked {}).stack 11).refreshAt 31 + ((stacked {}).stack 11).interval ≤ (stacked {}).clk.clk
    ∧ (let x : Stack := { coolSince := some 5, hot := true }
       ((stacked x).stack 11).coolSince = some 5 ∧ 5 + 10000 * usUnits ≤ (stacked x).clk.clk) := by decide +kernel

/-- A post of one item on stack 11 for tile 0. -/
def aPost : Post := { number := 4, tile := 0, qe := 0x1F, spec := false, line := postLine }
def posting (p : Post) : State := stacked { active := [{ p with active := true }] }
def outLine : Line := BitVec.ofNat 512 (2 ^ 32 + 2 ^ 64 + 2 ^ 72 + 6 * 2 ^ 80 + 2 ^ 96)
def withWord : Post := { aPost with qe := 0x1B, line := outLine, words := [5], released := 1, active := true }
def delivering : State :=
  { posting withWord with fab := (withTile { going with petty := { going.petty with
      posts := [{ number := 0, stack := 11, post := 4, qe := 0x1B, spec := false }] } }).fab }
theorem test_posts_witness :
    (((stacked { intake := [aPost] }).stack 11).intake = [aPost] ∧ ((stacked { intake := [aPost] }).stack 11).active.length < 32)
    ∧ (∃ p, (posting aPost).postOf 11 4 = some p ∧ p.cancelled = false ∧ p.faulted = false ∧ p.nextItem < postItems p.line
      ∧ p.nextItem < p.released + p.window)
    ∧ (∃ p, delivering.postOf 11 4 = some p ∧ delivering.postFirst 11 p = true ∧ postItems p.line ≤ p.released
      ∧ p.delivered + p.words.length = p.total ∧ p.words = [5] ∧ ((delivering.tile 0).end64 0x1B).length < 64)
    ∧ (∃ p, (posting { aPost with released := 1 }).postOf 11 4 = some p ∧ postItems p.line ≤ p.released
      ∧ p.delivered + p.words.length = p.total ∧ p.words = []) :=
  ⟨by decide +kernel, ⟨_, rfl, rfl, rfl, by decide +kernel, by decide +kernel⟩,
    ⟨_, rfl, by decide +kernel, by decide +kernel, by decide +kernel, rfl, by decide +kernel⟩,
    ⟨_, rfl, by decide +kernel, by decide +kernel, rfl⟩⟩

/-- Item 0 of the post runs its script. -/
def scripted (t : Thread) (line : Line) : State :=
  posting { aPost with line := line, nextItem := 1, threads := [(0, t)] }
def scriptOp (imm : BitVec 32) : ScriptOp := { d := 1, a := 2, b := 3, w := false, rsv := 0, imm := imm }

/-- A thread whose registers are free can run an instruction that needs any of them. -/
theorem test_script_open_witness : ∀ line ∈ [postLine, outLine], ∃ p, ScriptOpen (scripted {} line) 11 4 0 (scriptOp 64)
    { xs := [1, 2, 3, 4], ws := [false], access := true } p {} := by
  intro line hl
  simp only [List.mem_cons, List.not_mem_nil, or_false] at hl
  rcases hl with rfl | rfl
  all_goals exact ⟨_, rfl, ⟨rfl, rfl⟩, rfl, by decide, by decide, rfl⟩

theorem test_script_operands_witness :
    ({ x := [(3, 2)] } : Thread).xreg 3 ≠ 0 ∧ 1 ≤ (scriptOp 64).imm.toNat ∧ (scriptOp 64).imm.toNat ≤ 64
    ∧ ((0x20200 : BitVec 32) = (0 : BitVec 12) ++ (2 : BitVec 4) ++ (512 : BitVec 16)) :=
  ⟨by decide +kernel, by decide, by decide, by decide⟩

theorem test_script_rows_witness :
    (({ rowfmt := 6 } : Thread).rowElems { aPost with line := BitVec.ofNat 512 (2 ^ 32 + 16 * 2 ^ 72 + 6 * 2 ^ 80 + 2 ^ 96) }).isOk = true
    ∧ (postSegop outLine = 0 ∧ 0 + (postElems outLine * ofmtBytes (postOfmt outLine) + 63) / 64 ≤ postOutw outLine)
    ∧ (0 + ({} : Thread).rowlen.toNat / 64 ≤ postOutw outLine ∧ 7 / 8 < postOutw outLine)
    ∧ postSegop (BitVec.ofNat 512 (2 ^ 64 + 2 ^ 72 + 6 * 2 ^ 80 + 2 ^ 88)) ≠ 0 :=
  ⟨by decide +kernel, by decide +kernel, by decide +kernel, by decide +kernel⟩

theorem test_script_accesses_witness :
    accessAt 11 0 8 8 = .ok 0 ∧ accessAt 11 0 64 64 = .ok 0
    ∧ (∃ s' bs, (scripted {} postLine).dramRead 11 (11 * 0x1000000000) 8 = (s', some bs))
    ∧ postWr (BitVec.ofNat 512 (2 ^ 25)) = true
    ∧ (∃ p t, (scripted { accesses := [{ kind := .st8 1, addr := 0, len := 8 }] } postLine).postOf 11 4 = some p
      ∧ Sparse.find? 0 p.threads = some t ∧ t.accesses = [{ kind := .st8 1, addr := 0, len := 8 }])
    ∧ (let a : Access := { kind := .radd 0 6 1, addr := 0, len := 64 }
       (∃ p, (scripted { accesses := [a] } postLine).postOf 11 4 = some p ∧ p.cancelled = false
         ∧ (scripted { accesses := [a] } postLine).raddWaits 11 p 0 a = false)
       ∧ ∃ s' bs, (scripted { accesses := [a] } postLine).dramRead 11 (11 * 0x1000000000) 64 = (s', some bs))
    ∧ probeWalk (fun j => (scripted {} postLine).peek 11 (0 + 64 * j) 64) 5 (ekh64 5 9).toNat 0 1 16 0 = some (none, 1)
    ∧ (3 : BitVec 4) ≠ 15 ∧ accessAt 11 0 64 64 = .ok 0 :=
  ⟨by decide +kernel, by decide +kernel, ⟨_, _, rfl⟩, by decide +kernel, ⟨_, _, rfl, rfl, rfl⟩,
    ⟨⟨_, rfl, rfl, by decide +kernel⟩, _, _, rfl⟩, by decide +kernel, by decide, by decide +kernel⟩

/-! ## Rings, links and packets -/

/-- A ring of 4 coins to device 2, with a spill region of 4 units. -/
def ringEntry (kind : Nat) : Line := BitVec.ofNat 512 (kind + 2 * 2 ^ 16 + 4 * 2 ^ 208)
def aMessage : Message := { tile := none, ticket := 0, data := [1], gen := none }
/-- The message in units 0 and 1 of the region. -/
def aSpilled : Spilled := { tile := none, ticket := 0, gen := none, len := 1, units := [0, 1], owed := 0, tid := 0 }
def channelled (c : Channel) : State :=
  { withTile going with heath := { (withTile going).heath with channels := [(16383, c)] } }
def ringChan : Channel := { entry := ringEntry 3, held := 4, head := 3, queue := [aMessage] }
theorem test_rings_witness :
    (((channelled ringChan).chan 16383).queue = [aMessage] ∧ chanKind ((channelled ringChan).chan 16383).entry = 3)
    ∧ (let s' := (channelled ringChan).setChan 16383 { ringChan with queue := [] }
       (s'.chan 16383).spill = [] ∧ ((s'.skipTail 16383 aMessage.coins none).chan 16383).takes aMessage.coins = true)
    ∧ (let s' := (channelled { ringChan with held := 0 }).setChan 16383 { ringChan with queue := [], held := 0 }
       (s'.chan 16383).spill = [] ∧ ((s'.skipTail 16383 aMessage.coins none).chan 16383).takes aMessage.coins = false)
    ∧ (let s' := (channelled { ringChan with spill := [aSpilled] }).setChan 16383 { ringChan with queue := [], spill := [aSpilled] }
       (s'.chan 16383).spill ≠ [])
    ∧ chanKind (ringEntry 4) = 4
    ∧ (let s := { channelled { ringChan with queue := [], spill := [aSpilled] } with heath :=
         { (channelled { ringChan with queue := [], spill := [aSpilled] }).heath with devmapA := [(2, 0x80000007)] } }
       (s.chan 16383).spill = [aSpilled] ∧ (s.physOf (chanDev (s.chan 16383).entry)).isSome = true
       ∧ (s.chan 16383).fullFor (aSpilled.tid - 1) = false
       ∧ ((s.skipTail 16383 aSpilled.coins (some (aSpilled.tid - 1))).chan 16383).takes aSpilled.coins = true
       ∧ ((s.skipTail 16383 aSpilled.coins (some (aSpilled.tid - 1))).chan 16383).fullFor aSpilled.tid = false
       ∧ ((s.skipTail 16383 aSpilled.coins (some (aSpilled.tid - 1))).unspill (ringEntry 3) aSpilled).2.isSome = true)
    ∧ (ringChan.freeUnits (1 + aMessage.coins)).length < 1 + aMessage.coins
    ∧ (({ ringChan with entry := ringEntry 3 ||| (4 <<< 336) } : Channel).freeUnits (1 + aMessage.coins)).length = 1 + aMessage.coins
    ∧ ringChan.full = false := by
  decide +kernel

def counting : State :=
  draining { drain92 with count := true, checked := true } (holding { held := true, steward := true } (withTile {}))
theorem test_coin_count_witness : counting.countDue = true ∧ (counting.sendHalves.ringCounts.all RingCount.settled) = true
    ∧ (counting.sendHalves.ringCounts.findSome? RingCount.wrong) = none
    ∧ (counting.sendHalves.heath.channels.all fun x => !(chanKind x.2.entry = 4 && !x.2.spill.isEmpty)) = true := by decide +kernel

/-- Link 19 of device 1, with a route to device 7 over it and device 7 as logical device 2. -/
def linked (l : Link) : State :=
  let s := aged (withTile {})
  { s with heath := { s.heath with
      id := 1, links := [(19, l)], route := [(7, 0x93)], devmapA := [(2, 0x80000007)] } }
def sentFlit (n : Nat) : SentFlit := { seq := 5, body := 0, cvc := 0, ccnt := 0, ends := [], resends := n }
theorem test_flits_witness :
    linkIn 0 19 = true ∧ ((linked { st := 3 }).link 19).st = 3 ∧ ((linked { st := 3 }).link 19).rxseq = 0
    ∧ (let l : Link := { st := 3, retry := [sentFlit 8] }
       ((linked l).link 19).retry ≠ [] ∧ l.oldestSince + 600 * nsUnits ≤ (linked l).clk.clk
       ∧ (l.retry.any fun f => 8 ≤ f.resends) = true)
    ∧ (let l : Link := { st := 3, fecLostSince := some 5 }
       ((linked l).link 19).fecLostSince = some 5 ∧ 5 + usUnits ≤ (linked l).clk.clk) := by decide +kernel

theorem test_link_training_witness :
    (linked {}).reaches .jtag = true ∧ ((linked { enable := false }).link 19).enable = false
    ∧ ((linked { st := 1 }).link 19).st ≠ 3 ∧ ((linked { st := 3 }).link 19).st = 3
    ∧ ((linked { resetting := true }).link 19).resetting = true
    ∧ (((linked {}).island (linkDomain 19)).lost = false ∧ ((linked { st := 2 }).link 19).st = 2
      ∧ 0 + 10000 * usUnits ≤ (linked { st := 2 }).clk.clk)
    ∧ (let s := { linked { st := 3 } with stew := { (linked {}).stew with alive := 10 ^ 30 } }
       s.linkUp 19 = true ∧ (s.link 19).beatAt + 10 * usUnits ≤ s.clk.clk ∧ s.clk.clk ≤ s.stew.alive + 100 * usUnits) := by
  decide +kernel

def toHere : Packet := { Packet.blank with dst := 1, src := 7 }
theorem test_packets_taken_witness :
    (linked { st := 3 }).linkUp 19 = true ∧ toHere.dst = (linked { st := 3 }).heath.id
    ∧ ((linked { st := 3 }).logicalOf toHere.src).isSome = true ∧ (linked { st := 3 }).logicalOf 8 = none
    ∧ (let p : Packet := { Packet.blank with dst := 7, hops := 14 }
       p.dst ≠ (linked { st := 3 }).heath.id ∧ p.dst ≠ 0xFFF ∧ (linked { st := 3 }).coreLost 19 = false ∧ p.hops ≠ 15
       ∧ (((linked { st := 3 }).took 19 .write p).firstPath p.dst) = some 19
       ∧ ((linked { st := 3 }).took 19 .write p).coreLost 19 = false) := by decide +kernel

def complete : State := { linked { st := 3 } with heath := { (linked { st := 3 }).heath with
  receivers := [(recvKey 7 0 0, { oldest := 1 })] } }
theorem test_packets_act_witness :
    (complete.recv ({ src := 7, chan := 0, member := 0, tid := 0 } : Flow).key).has 0 = true
    ∧ (((linked { st := 3 }).recv ({ src := 7, chan := 0, member := 0, tid := 0 } : Flow).key).has 0 = false
      ∧ (((linked { st := 3 }).openPart { src := 7, chan := 0, member := 0, tid := 0 }).partOf
        { src := 7, chan := 0, member := 0, tid := 0 }).any (fun q => q.seen.contains toHere.addr) = false)
    ∧ place 0 true 0 = .dram 0 0 ∧ place 0 true (0 + 2 - 1) = .dram 0 1
    ∧ (∃ x bs, ((linked { st := 3 }).openPart { src := 7, chan := 0, member := 0, tid := 0 }).dramRead 0 0 2 = (x, some bs))
    ∧ ((linked { st := 3 }).openPart { src := 7, chan := 0, member := 0, tid := 0 }).windowHit 0 2 = .out
    ∧ (chanKind (ringEntry 3) = 3 ∧ (0 : BitVec 24).toNat + 4 ≤ chanRcoins (ringEntry 3))
    ∧ chanRcoins (ringEntry 3) < (0 : BitVec 24).toNat + 5 :=
  ⟨by decide +kernel, by decide +kernel, by decide, by decide, ⟨_, _, rfl⟩, by decide +kernel, by decide +kernel, by decide +kernel⟩

/-- A flit of idle bytes with SEQ 0, NAK and credits 3 of channel 5, good and with a broken CRC. -/
def idleFlit (seq : BitVec 12) (nak : Bool) : Flit :=
  { bits := flitBits 0 (flitCtl seq 0 nak 5 3), fecOk := true, fecLock := true }
set_option maxRecDepth 100000 in
theorem test_flit_receive_witness :
    (idleFlit 0 true).ok = true ∧ (idleFlit 0 true).seq = 0 ∧ (idleFlit 0 true).nak = true ∧ (idleFlit 1 false).seq = 1
    ∧ ({ idleFlit 0 false with bits := (idleFlit 0 false).bits ^^^ 1 } : Flit).ok = false
    ∧ ([sentFlit 0].filter fun f => !seqBefore f.seq (idleFlit 0 true).ackseq) ≠ [] := by decide +kernel

/-- A packet with every field in use reads back from its bytes, and so does a multicast copy for members 0 and 63. -/
theorem test_packet_reads_back :
    (let p : Packet := { vc := 5, last := true, dst := 0xABC, src := 0x123, chan := 0x2BCD, sig := true, hops := 14, tid := 0x89ABCDEF
                         addr := 0x123456789ABC, till := 0x7FFE, value := 0xFEDCBA98, data := [1, 2, 3], mask := 0, coins := [] }
     readPacket (packetBytes .write { p with vc := packetVc .write p } ++ [9, 9])
       = some (typeCode .write, { p with vc := packetVc .write p }, [9, 9]))
    ∧ (let p : Packet := { Packet.blank with mask := (1 <<< 63) ||| 1, coins := [5, 0xFFFFFF], data := [7], last := true }
       readPacket (packetBytes .mcast { p with vc := packetVc .mcast p }) = some (9, { p with vc := packetVc .mcast p }, [])) := by
  decide +kernel

theorem test_link_reset_witness :
    ((linked { st := 3, resetting := true }).link 19).recon = none
    ∧ ((linked { st := 3, resetting := true }).reroute 19 |>.askAbout []).2 = []
    ∧ (let f : SentFlit := { sentFlit 0 with ends := [(.write, { Packet.blank with dst := 7, src := 1 })] }
       let s := { linked { st := 3, resetting := true, retry := [f] } with heath :=
         { (linked {}).heath with links := [(18, { st := 3 }), (19, { st := 3, resetting := true, retry := [f] })], route := [(7, 0x9392)] } }
       ((s.reroute 19).askAbout (s.link 19).packets).2 ≠ [])
    ∧ ((linked { st := 3, resetting := true, recon := some [(7, 0)] }).link 19).recon = some [(7, 0)] := by decide +kernel

theorem test_forwarding_witness :
    (linked { st := 3 }).buffered 19 0 + packetCredits .write toHere ≤ 128
    ∧ (let o : OutPacket := { ty := .write, packet := { Packet.blank with dst := 7 }, pinned := none, input := some 18 }
       let s := linked { st := 3, credits := [(3, 128), (4, 128), (5, 128), (6, 128), (7, 128)] }
       s.firstPath 7 = some 19 ∧ s.coreLost 18 = false ∧ s.coreLost 19 = false
       ∧ (linked { st := 3 }).linkTakes 19 o.ty o.packet = false
       ∧ s.linkTakes 19 o.ty { o.packet with vc := 3 } = true) := by decide +kernel

theorem test_returns_witness :
    (let ch : Channel := { entry := ringEntry 3, retNext := 4 }
     ch.retWait = [] ∧ (4 : BitVec 32) = ch.retNext ∧ (6 : BitVec 32) ≠ ch.retNext ∧ ((6 : BitVec 32) - ch.retNext).msb = false
     ∧ ((3 : BitVec 32) - ch.retNext).msb = true ∧ chanKind ch.entry = 3 ∧ chanKind (ringEntry 1) ≠ 3) := by decide +kernel

/-! ## Messages between stewards -/

def fromSeven : Control := { link := 19, src := 7, tid := 0 }
/-- Device 1 with an image, as logical device `l` of 3; device 7 is logical device 2, or 0 when `l` is 2. -/
def member (l : BitVec 12) (v : Survival) : State :=
  let s := linked { st := 3, heard := some 0, peer := 7 }
  { s with
    heath := { s.heath with devmapA := if l = 2 then [(0, 0x80000007), (2, 0x80000001)] else [(0, 0x80000001), (2, 0x80000007)] }
    stew := { s.stew with program := { s.stew.program with digest := some 9, req := 3 <<< 128, logical := l, armed := false } }
    surv := v }
def planFor (buddy : BitVec 12) : Line := BitVec.ofNat 512 (buddy.toNat * 2 ^ 304)

theorem test_links_agree_witness :
    (linked { st := 2 }).inTraining 19 = true
    ∧ (let s := linked { st := 2, myNonce := some 1, peerNonce := some 2 }
       (s.link 19).myNonce.isSome = true ∧ (s.link 19).peerNonce.isSome = true ∧ s.stew.state ≠ 8
       ∧ (s.surv.dead.find? fun d => d.1 = (s.link 19).peer) = none)
    ∧ (let s := { linked {} with heath := { (linked {}).heath with channels := [(5, { entry := ringEntry 3 })] } }
       s.physOf (chanDev (s.chan 5).entry) = some fromSeven.src ∧ chanKind (s.chan 5).entry = 3 ∧ (s.chan 5).transfers = []
       ∧ s.logicalOf fromSeven.src = some 2 ∧ chanDev (s.chan 5).entry = 2)
    ∧ (let r : RingEnd := { entry := (4 <<< 64) ||| (2 <<< 176) ||| (5 <<< 192) }
       rendCoins r.entry ≠ 0 ∧ rendDev r.entry = 2 ∧ rendChan r.entry = 5) := by decide +kernel

theorem test_deaths_witness :
    (let s := member 0 {}
     (s.neighbourLinks.filter fun k => (s.link k).peer = 7) ≠ []
     ∧ (s.neighbourLinks.filter fun k => (s.link k).peer = 7).all s.silent = true
     ∧ (s.surv.dead.any fun d => d.1 = 7) = false
     ∧ (s.count .steward 0xA9 0 1).stew.program.digest = some 9 ∧ (s.count .steward 0xA9 0 1).logicalOf 7 = some 2
     ∧ (s.count .steward 0xA9 0 1).devices.contains 2 = true
     ∧ s.neighbourLinks ≠ [] ∧ s.neighbourLinks.all s.silent = true ∧ s.stew.program.aborted = false ∧ s.logical = 0)
    ∧ (linked {}).stew.program.digest = none := by decide +kernel

theorem test_stewards_recover_witness :
    ((member 0 { plan := some (planFor 2) }).surv.asked.or (member 0 { plan := some (planFor 2) }).surv.plan = some (planFor 2)
      ∧ (member 0 { plan := some (planFor 2) }).planReason (planFor 2) 7 (planFor 0) 0 5 = 0
      ∧ (member 0 { plan := some (planFor 2) }).planReason (planFor 2) 7 (planFor 0) 1 5 = 2)
    ∧ ((member 0 { asked := some (planFor 2) }).surv.asked = some (planFor 2)
      ∧ (member 0 {}).logicalOf 7 = some (planBuddy (planFor 2)))
    ∧ ((member 0 {}).leads = true ∧ (member 0 {}).surv.recovering = false)
    ∧ ((member 2 { plan := some 0 }).surv.plan.isSome = true ∧ (member 2 {}).logicalOf 7 = some (member 2 {}).leader)
    ∧ fromSeven.src ≠ (member 0 {}).heath.id
    ∧ ((member 2 { twin := some 0 }).surv.twin.isSome = true ∧ (member 2 {}).logicalOf 7 = (member 2 { twin := some 0 }).surv.twin) := by
  decide +kernel

/-- The bytes of an image: a header, a requirements record of one field and one device, and an empty section for tile 0. -/
def imageBytes : List Byte :=
  bytesOf 0x3149505A 4 ++ bytesOf 1 4 ++ bytesOf (1 + 256 + 2 ^ 128) 32 ++ bytesOf 0 24
    ++ bytesOf 1 2 ++ bytesOf 0 4 ++ bytesOf 0xFFFF 2 ++ bytesOf 88 8 ++ bytesOf 0 8
def stagedImage (v : Survival) : State :=
  let s := member 0 v
  { s with mem := Mem.writeBytes [] 0 imageBytes }
/-- The image stands in DRAM at address 0, and its checks pass. -/
theorem test_image_witness :
    (match (stagedImage {}).readPieces 0 1 with
      | (z, some bs) => (match z.plainImage (bs.take 88) 9 with
        | some (_, x) => (match parseImage x with
          | some img => (z.imageCheck img 2).isOk && z.receiptsMove (z.tablesOf img 2)
          | none => false)
        | none => false)
      | (_, none) => false) = true
    ∧ (stagedImage { spare := some (0, 88, 9) }).surv.spare = some (0, 88, 9)
    ∧ (stagedImage {}).stew.program.armed = false := by decide +kernel

/-! ## The counting house and its ports -/

def goodFrame (k : FrameKind) (udp : BitVec 16) : EthFrame :=
  { kind := k, dst := 0xFFFFFFFFFFFF, v6 := false, ip := 5, vlan := none, length := 9216, fragment := false
    checksumOk := true, udpPort := udp }
def portOf' (cfg : BitVec 64) : State := { timed with house := { timed.house with ports := [(0, { up := true, cfg := cfg })] } }
/-- A frame to the sub-port's own address is for it. -/
theorem test_own_address_witness : acceptsFrame { goodFrame .lolithWire 7000 with dst := portMac false 0 } false 0 = true
    ∧ acceptsFrame { goodFrame .lolithWire 7000 with dst := portMac false 0 + 1 } false 0 = false
    ∧ acceptsFrame (goodFrame .arpRequest 0) false 0 = true := by
  simp [acceptsFrame, goodFrame]

/-- A sub-port with an IPv4 address and one IPv6 address is addressed by each in its own protocol. -/
theorem test_ip_addresses : let x : SubPort := { ipv4 := 5, ipv6 := 7 <<< 128 }
    x.addressed (goodFrame .lolithWire 0) = true ∧ x.addressed { goodFrame .lolithWire 0 with ip := 7, v6 := true } = true
    ∧ x.addressed { goodFrame .neighbourSolicitation 0 with ip := 7 } = true
    ∧ x.addressed { goodFrame .arpRequest 0 with ip := 7 } = false
    ∧ x.addressed { goodFrame .mailbox 0 with ip := 0, v6 := true } = false := by decide

/-- A paused priority holds what it would send until its quanta have passed: here DSCP 40 has priority 5. -/
theorem test_pause_holds :
    let s : State := { State.reset with house := { ports := [(0, { up := true, cfg := 1 <<< 15, paused := [(5, 10)] })] } }
    let t := s.sendOut false 0 40 .nak
    t.egress = [] ∧ (t.releaseTx false 0).egress = []
    ∧ ({ t with clk := { t.clk with clk := 10 } }.releaseTx false 0).egress = [.nak]
    ∧ (s.sendOut false 0 8 .nak).egress = [.nak] := by decide +kernel

theorem test_ports_witness :
    timed.subIn false 0 = true ∧ (timed.subPort false 0).up = true ∧ (timed.subPort false 0).cfg.getLsbD 14 = false
    ∧ (portOf' (7000 <<< 32)).subIn false 0 = true ∧ (goodFrame .lolithWire 7000).udpPort.toNat = portUdp (7000 <<< 32)
    ∧ (goodFrame .mailbox 7001).udpPort.toNat = portUdp (7000 <<< 32) + 1
    ∧ (goodFrame .other 0).length.toNat ≤ 9216
    ∧ (portOf' (1 <<< 15)).subIn false 0 = true ∧ ((portOf' (1 <<< 15)).subPort false 0).cfg.getLsbD 15 = true
    ∧ ((portOf' (1 <<< 14)).subPort false 0).cfg.getLsbD 14 = true ∧ (timed.island 90).lost = false := by decide +kernel

/-- Client 1 has all rights at intake 63, and mailbox 3 is an operator's. -/
def enrolled : Enrolment :=
  { gen := 1, clients := [(1, { key := keyDigest 5, rights := 7, mask := 1 <<< 63 })], bindings := [(3, (keyDigest 6, 2))] }

/-- An owned device that has enrolled them. -/
def ownedBy (ss : List Session) : State :=
  let s := aged (withTile going)
  { s with
    vault := { s.vault with gen := 1, enrolment := some enrolled }
    house := { s.house with sessions := ss, ports := [(0, { up := true })], intakes := [(63, (1 <<< 32) + (8 <<< 16) + 16383)] }
    heath := { s.heath with channels := [(16383, { ringChan with queue := [] })] } }
def aSession (control opened : Bool) (i : BitVec 16) : Session := { number := 4, control := control, index := i, opened := opened }
def firstMessage (control : Bool) (i : BitVec 16) : InitMsg :=
  { control := control, index := i, exchange := 9, version := 1, session := 0, ek := 0, port := false, sub := 0, v6 := false
    fragments := [{ index := 0, count := 1, exchange := 9, length := 1186 }] }
/-- The five fragments of a FINISH, out of order. -/
def lastFragments : List Fragment :=
  [4, 0, 1, 2, 3].map fun i => { index := i, count := 5, exchange := 9, length := if i = 4 then 333 else 1232 }
/-- A FINISH whose fragments come on a sub-port that is up; its signature is of the right bytes or of others. -/
def lastMessage : FinishMsg :=
  { version := 1, exchange := 9, fragments := lastFragments, key := 5, port := false, sub := 0 }
set_option maxRecDepth 20000 in
theorem test_handshake_fragments_witness :
    ((ownedBy []).hears false 0 = true ∧ (ownedBy []).hears false 1 = false ∧ (ownedBy []).zeroising = false
      ∧ ((ownedBy []).island 92).lost = false)
    ∧ joins (firstMessage true 3).fragments 9 1186 = true ∧ joins lastFragments 9 5261 = true
    ∧ joins lastFragments.tail 9 4928 = false ∧ joins lastFragments 8 5261 = false
    ∧ (ownedBy []).freeSession 2 0xFFFFFFFF = 0xFFFFFFFF
    ∧ (ownedBy [{ (aSession true true 3) with number := 0xFFFFFFFF }, { (aSession true true 3) with number := 1 }]).freeSession 4
      0xFFFFFFFF = 2 := by decide +kernel

theorem test_sessions_witness :
    ((ownedBy []).stew.booted = true ∧ ((ownedBy []).island 95).lost = false ∧ ((ownedBy []).client 1).isSome = true
      ∧ (ownedBy []).role 3 ≠ 0 ∧ (ownedBy []).handshakes < 256 ∧ (ownedBy []).dataSessions < 4096)
    ∧ 256 ≤ (ownedBy (List.replicate 256 (aSession true false 3))).handshakes
    ∧ ((ownedBy [aSession false false 1]).session 4 false = some (aSession false false 1)
      ∧ (aSession false false 1).since + 1000000 * usUnits ≤ (ownedBy []).clk.clk)
    ∧ ((ownedBy [aSession true true 3]).session 4 true = some (aSession true true 3)
      ∧ (aSession true true 3).since + 30000000 * usUnits ≤ (ownedBy []).clk.clk) := by decide +kernel

/-- The digests that the FINISH of the client and of the mailbox must meet. -/
theorem test_keys_witness : (((ownedBy []).client 1).map fun c => c.key) = some (Config.digest (bytesOf (5 : BitVec 15616).toNat 1952))
    ∧ (ownedBy []).boundKey 3 = some (Config.digest (bytesOf (6 : BitVec 15616).toNat 1952))
    ∧ ({ ownedBy [] with vault := {} } : State).boundKey 0 = none := ⟨rfl, rfl, rfl⟩

/-- 4,096 data sessions are 256 in number sixteen times over. -/
theorem test_data_sessions_witness : (ownedBy (List.replicate 4096 (aSession false true 1))).dataSessions = 4096 := by
  have h : ∀ n, ((List.replicate n (aSession false true 1)).filter fun x => !x.control).length = n := by
    intro n
    induction n with
    | zero => rfl
    | succ n ih => simp [List.replicate_succ, aSession]
  exact h 4096

def packet (pn : BitVec 64) : Datagram :=
  { ver := 1, frag := 0, session := 4, pn := pn, tag := { key := 0, nonce := pn ++ (0 : BitVec 32), aad := sealHeader 4 pn }
    port := false, sub := 0, v6 := false, dscp := 0 }
def datagram (pn : BitVec 64) : Sealed := { d := packet pn, rsv := 0 }
theorem opened_of {p : State × Option Session} (q : State → Session → Bool) (h : p.2.any (q p.1) = true) :
    ∃ z y, p = (z, some y) ∧ q z y = true := by
  obtain ⟨z, y⟩ := p
  cases y with
  | none => cases h
  | some y => exact ⟨z, y, rfl, h⟩
theorem test_sealed_witness :
    ((ownedBy [aSession false true 1]).house.sessions.find? fun x => x.number = 4 && x.opened && !x.control)
      = some (aSession false true 1)
    ∧ (let x := { aSession false true 1 with rxNext := 1034, seen := [10] }
       x.rxNext ≤ (packet 10).pn.toNat + 1024 ∧ x.seen.contains 10 = true
       ∧ ¬ (x.rxNext ≤ (packet 9).pn.toNat + 1024) ∧ x.seen.contains 11 = false)
    ∧ ((ownedBy []).client 1).any (fun c => c.rights.getLsbD 1 && c.rights.getLsbD 2) = true
    ∧ (∃ z y, (ownedBy [aSession false true 1]).openSealed (datagram 0) = (z, some y)
      ∧ (z.stew.longOp.isNone && (z.client y.index.toNat).any (fun c => c.rights.getLsbD 2)) = true) :=
  ⟨by decide +kernel, by decide +kernel, by decide +kernel, opened_of _ (by decide +kernel)⟩

/-- A receipt region of REPLYMAX 64 at 0x1000. -/
def aRegion : BitVec 62 := (1 <<< 48) + 0x1000
def filed : State := { ownedBy [] with house := { (ownedBy []).house with receiptCfg := aRegion } }
/-- An entry that is evicted leaves its REQID as the FLOOR of its client, in the table behind the last record; a lower REQID
does not lower it. -/
theorem test_floor_rises : floorAt aRegion 1 = 0x1000 + 524288 * 96 + 8
    ∧ (filed.raiseFloor 1 7).mem = Mem.writeBytes filed.mem (floorAt aRegion 1) (bytesOf 7 8)
    ∧ ((filed.raiseFloor 1 7).floor 1).2 = 7 ∧ (((filed.raiseFloor 1 7).raiseFloor 1 5).floor 1).2 = 7 := by decide +kernel
/-- A stored reply moves with the book: from slot 5 of the old region to slot 5 of the new one. -/
theorem test_receipts_move :
    let r : Receipt := { ticket := 5, dscp := 0, client := 1, reqid := 1, digest := 0, pending := false, status := 0, len := 2,
                         lseq := 0, ltime := 0, session := 4 }
    let s := (filed.storeReply r [8, 9]).setReceipt 5 (some r)
    let t := { s with house := { s.house with receiptCfg := (2 <<< 48) + 0x8000000 } }.copyDram (recordAt aRegion 5)
      (recordAt ((2 <<< 48) + 0x8000000) 5) 34
    (s.storedReply r).2 = [8, 9] ∧ (t.storedReply r).2 = [8, 9] := by decide +kernel

/-- Over IPv4 a datagram holds 20 B more of a reply than over IPv6 (R409). -/
theorem test_segment_room : (ownedBy [aSession false true 1]).segmentRoom 4 = 1500 - 92
    ∧ (ownedBy [{ aSession false true 1 with v6 := true }]).segmentRoom 4 = 1500 - 112 := by decide +kernel

theorem test_requests_witness :
    (let s := ownedBy []
     (∃ c, s.client 1 = some c ∧ c.rights.getLsbD 0 = true ∧ c.mask.getLsbD 63 = true)
     ∧ intakeOn (Sparse.get 0 s.house.intakes 63) = true ∧ s.serving = true ∧ intakeMax (Sparse.get 0 s.house.intakes 63) = 8
     ∧ s.findReceipt 1 1 = none ∧ (s.floor 1).2.toNat = 0
     ∧ ((s.receiptAt (s.house.nextTicket.toNat % receiptSlots)).any fun r => r.pending) = false
     ∧ (s.chan (intakeChan (Sparse.get 0 s.house.intakes 63))).placeable (coinsOf (32 + 8)) = true)
    ∧ (withTile going).client 1 = none
    ∧ ({ ownedBy [] with stew := { (ownedBy []).stew with program := {} } } : State).serving = false := by
  refine ⟨⟨⟨_, rfl, by decide, by decide⟩, ?_⟩, by decide +kernel, by decide +kernel⟩
  decide +kernel

def anArrival : Arrived := { die := 3, index := 1023, pos := 3, coins := 1 }
/-- An outbox whose message stands at position 3 of ring end 1023 on die 3, for the ticket that waits in slot 5. -/
def answering : State :=
  let s := ownedBy []
  { s with
    fab := { s.fab with dies := [(3, { ringEnds := [(1023, { entry := (4 <<< 64) ||| (0x1000 <<< 96), nextPos := 3 })] })] }
    house := { s.house with
      outboxes := [(63, 0x1FFF)], arrivals := [anArrival], receiptCfg := 1 <<< 48
      receipts := [(5, some { ticket := 5, dscp := 0, client := 1, reqid := 1, digest := 0, pending := true, status := 0,
                              len := 0, lseq := 0, ltime := 0, session := 4 })] }
    mem := Mem.writeBytes (Mem.writeBytes [] 192 (bytesOf 5 8)) 0x100C (bytesOf 32 4) }
theorem test_outboxes_witness :
    (answering.appendsWait = false ∧ (Sparse.get 0 answering.house.outboxes 63).getLsbD 12 = true
      ∧ (answering.island 92).lost = false
      ∧ (answering.house.arrivals.find? fun a => a.index = 1023 && a.die = 3) = some anArrival)
    ∧ (match (answering.houseRead { anArrival with frame := some 32 } (64 * 3) 32) with
      | (z, .gave (some bs)) =>
        let w : State := { z with house := { z.house with arrivals := [] } }
        ((w.returnCoins 3 1023 1 false).receiptAt ((outboxTicket bs).toNat % receiptSlots)).any (fun r =>
          r.ticket = outboxTicket bs && r.pending)
        && outboxLen bs ≤ z.replyMax && outboxStat bs = 0 && outboxRsvOk bs
      | _ => false) = true
    ∧ (let s := { withTile going with stew := { (withTile going).stew with program := { (withTile going).stew.program with aborted := true } } }
       s.stew.program.aborted = true)
    ∧ (let s := aged (withTile going)
       let a : Assembly := { source := 0, parts := 2, next := 1, bytes := [], since := 0 }
       ({ s with stew := { s.stew with assembly := some a } } : State).stew.assembly = some a
       ∧ a.since + 1000000 * usUnits ≤ s.clk.clk) := by decide +kernel

/-! ## Mailbox commands -/

/-- A device whose program is replayed, with a control session of mailbox `i`. -/
def boxed (i : BitVec 16) : State := ownedBy [aSession true true i]
/-- The same with an image loaded and no program armed. -/
def ready (i : BitVec 16) : State :=
  let s := boxed i
  { s with
    fab := { s.fab with tiles := [] }
    heath := { s.heath with id := 1, devmapA := [(0, 0x80000001)] }
    stew := { s.stew with state := 2, program := { s.stew.program with
      digest := some 9, req := 1 <<< 128, logical := 0, armed := false, replays := 0 } } }
def frame (mb : BitVec 4) (tag : BitVec 16) : Frame := { d := packet 0, mb := mb, tag := tag, rsv := 0 }

/-- An owned device that bars no command for its state. -/
abbrev State.Serves (s : State) : Prop :=
  s.stew.state ≠ 8 ∧ s.stew.state ≠ 6 ∧ s.owned = true ∧ s.clk.needWarm = false ∧ s.power.trip = false
theorem State.Serves.free {s : State} {f : Frame} {y : Session} {c : Command} (h : State.Serves s)
    (hr : c.roles (s.role f.mb.toNat) = true) : (s.heard f y).bars f c = none := by
  obtain ⟨h8, h6, ho, hw, ht⟩ := h
  show s.bars f c = none
  have h8' : ¬ s.stew.state = 8#4 := h8
  have h6' : ¬ s.stew.state = 6#4 := h6
  simp [State.bars, h8', h6', ho, hr, hw, ht]

/-- The frames of an operator and of the owner are heard, while a program runs and with none. -/
theorem hears (i : BitVec 4) (tag : BitVec 16) (h : i = 3 ∨ i = 0) :
    Hears (boxed (i.setWidth 16)) (frame i tag) (aSession true true (i.setWidth 16)) := by
  have arrives : ∀ ss, (ownedBy ss).hears false 0 = true := fun ss => by
    show (ownedBy []).hears false 0 = true
    decide +kernel
  have window : ∀ j, (aSession true true j).admits (packet 0) = true := fun j => by
    show (aSession true true 0).admits (packet 0) = true
    decide +kernel
  rcases h with rfl | rfl <;> exact ⟨rfl, rfl, arrives _, ⟨rfl, rfl, rfl⟩, window _⟩
theorem ready_hears (tag : BitVec 16) : Hears (ready 3) (frame 3 tag) (aSession true true 3) :=
  ⟨rfl, rfl, (hears 3 tag (.inl rfl)).arrives, ⟨rfl, rfl, rfl⟩, (hears 3 tag (.inl rfl)).window⟩
/-- A frame of an operator is accepted for every command that an operator may give, and one of the owner for the
owner's, whether a program runs or none. -/
theorem test_accepts_witness : ∀ (code : BitVec 8) (tag : BitVec 16) (fabric unowned : Bool),
    (∀ r ∈ [rolesAll, rolesOP, rolesOPA, rolesOPS],
      Accepts (boxed 3) (frame 3 tag) { code := code, roles := r, fabric := fabric, unowned := unowned } (aSession true true 3)
      ∧ Accepts (ready 3) (frame 3 tag) { code := code, roles := r, fabric := fabric, unowned := unowned } (aSession true true 3))
    ∧ Accepts (boxed 0) (frame 0 tag) { code := code, roles := rolesO, fabric := fabric, unowned := unowned } (aSession true true 0) := by
  intro code tag fabric unowned
  have owner : State.Serves (boxed 0) := by decide +kernel
  have box : State.Serves (boxed 3) ∧ State.Serves (ready 3) := by decide +kernel
  refine ⟨fun r hr => ?_, ⟨hears _ _ (.inr rfl), rfl, ⟨rfl, rfl⟩, ⟨rfl, rfl⟩, rfl, .inr nofun, owner.free rfl⟩⟩
  simp only [List.mem_cons, List.not_mem_nil, or_false] at hr
  rcases hr with rfl | rfl | rfl | rfl <;>
    exact ⟨⟨hears _ _ (.inl rfl), rfl, ⟨rfl, rfl⟩, ⟨rfl, rfl⟩, rfl, .inr nofun, box.1.free rfl⟩,
      ⟨ready_hears _, rfl, ⟨rfl, rfl⟩, ⟨rfl, rfl⟩, rfl, .inr nofun, box.2.free rfl⟩⟩

/-- Before it has an owner, a device accepts the owner's frame for ENROL. -/
def unowned : State := let s := ready 0; { s with vault := { s.vault with enrolment := none, gen := 0 } }
theorem test_unowned_witness : unowned.owned = false ∧ unowned.vault.gen.toNat ≤ 30 ∧ unowned.noProgram = true
    ∧ unowned.boxSession 0 = some (aSession true true 0)
    ∧ Accepts unowned (frame 0 7) { code := 0x33, roles := rolesO, unowned := true } (aSession true true 0)
    ∧ unowned.freeDram 0 6618 = true
    ∧ enrolCheck { mb := 0, role := 0, rights := 0, client := 0, mask := 0, key := 0, staged := 64 } [7] = .ok () :=
  ⟨by decide, by decide, by decide, by decide +kernel,
    ⟨⟨by decide +kernel, rfl, by decide +kernel, ⟨rfl, rfl, rfl⟩, by decide +kernel⟩, rfl, ⟨rfl, rfl⟩, ⟨rfl, rfl⟩, rfl, .inr nofun, rfl⟩,
    by decide +kernel, rfl⟩

theorem test_frame_window_witness :
    (let y := { aSession true true 3 with rxNext := 1026 }
     (ownedBy [y]).boxSession 3 = some y ∧ (frame 3 5).d.session = y.number ∧ y.admits (frame 3 5).d = false)
    ∧ Hears (boxed 3) (frame 3 5) (aSession true true 3) := ⟨by decide +kernel, hears 3 5 (.inl rfl)⟩

/-- With no program armed a step change waits for its relock, and its reply comes with that. -/
theorem test_set_step_replies_later :
    let r : State := { ready 3 with clk := { (ready 3).clk with step := 2, safeStep := 0 } }
    let s := match exec (.setStep (frame 3 5) 3) r with | .next s => s | _ => State.reset
    let t := { s with clk := { s.clk with clk := s.clk.clk + 2 * usUnits } }
    s.stew.program.armed = false ∧ s.fab.hold.step = true ∧ s.stew.stepReplies = [(3, 5)] ∧ (s.mailbox 3).tag = none
    ∧ s.egress = []
    ∧ (match exec .relockComplete { t with fab := { t.fab with hold := { t.fab.hold with held := true, stepAt := s.clk.clk } } } with
      | .next u => u.clk.step = 3 && (u.mailbox 3).tag = some 5 && u.stew.stepReplies.isEmpty
      | _ => false) = true := by decide +kernel

theorem test_frame_checks_witness :
    State.reset.boxSession 3 = none ∧ (boxed 3).boxSession 3 = some (aSession true true 3)
    ∧ (let s := boxed 3
       let op : LongOp := { cmd := 0x27, mailbox := 3, tag := 1, work := .tallies 0 0 }
       ({ s with stew := { s.stew with longOp := some op } } : State).boxSession 3 = some (aSession true true 3))
    ∧ (let s := boxed 3
       (({ s with stew := { s.stew with mailboxes := [(3, { tag := some 5 })] } } : State).mailbox 3).tag = some 5)
    ∧ ((boxed 3).stew.longOp = none ∧ ((boxed 3).mailbox 3).tag ≠ some 5)
    ∧ ((boxed 3).bars (frame 3 5) { code := 0x33, roles := rolesO } = some (denied 1)
      ∧ (boxed 3).stew.state ≠ 8 ∧ (boxed 3).owned = true ∧ rolesO ((boxed 3).role 3) = false) := by decide +kernel

theorem test_run_commands_witness :
    ((ready 3).noProgram = true ∧ (ready 3).freeDram 64 5 = true ∧ (ready 3).stew.program.digest.isSome = true
      ∧ (ready 3).mapReady = true)
    ∧ ((boxed 3).stew.program.armed = true ∧ (boxed 3).countWaits = false ∧ (boxed 3).clk.safeStep.toNat ≤ 7)
    ∧ (let s := boxed 3
       let p : Program := { s.stew.program with started := true, replays := 0, startAt := some 0 }
       ({ s with stew := { s.stew with program := p } } : State).replayDue = true)
    ∧ (boxed 3).stew.program.started = false ∧ (0 : BitVec 64).toNat ≤ (boxed 3).now.toNat + 2 ^ 31 := by decide +kernel

def chanEntry : Line := BitVec.ofNat 512 (1 + 3 * 2 ^ 8 + 64 * 2 ^ 64 + 64 * 2 ^ 128)
def ringChanEntry : Line := BitVec.ofNat 512 (3 + 3 * 2 ^ 8 + 4 * 2 ^ 208)
def ringEndEntry : BitVec 256 := BitVec.ofNat 256 (4 * 2 ^ 64 + 4096 * 2 ^ 96)
def withEnd (e : BitVec 256) : State :=
  { ready 3 with fab := { (ready 3).fab with dies := [(0, { ringEnds := [(0, { entry := e })] })] } }
theorem test_configuration_witness :
    ((ready 3).subIn true 0 = true ∧ portCfgOk 0 (BitVec.ofNat 64 (1280 * 2 ^ 48)) = true)
    ∧ ((ready 3).anyRun = false ∧ [(0x80000093 : BitVec 32), 0].all (routeOk 0) = true ∧ (ready 3).selectFree = true
      ∧ oneToOne (ready 3).heath.devmapA = true)
    ∧ (chanKind chanEntry = 1 ∧ (ready 3).chanOk chanEntry = true ∧ chanKind ((ready 3).chan 16382).entry = 0)
    ∧ (chanKind ringChanEntry = 3 ∧ (withEnd ringEndEntry).chanOk ringChanEntry = true
      ∧ chanDev ringChanEntry = (withEnd ringEndEntry).logical ∧ (withEnd ringEndEntry).ringMatches 0 ringChanEntry none = true)
    ∧ (let x := (channelled { entry := chanEntry }).chan 16383
       chanKind x.entry = 1)
    ∧ (rendCoins ringEndEntry ≠ 0 ∧ (ready 3).rendOk ringEndEntry = true ∧ rendCoins ((ready 3).ringEnd 3 1023).entry = 0)
    ∧ ((withEnd ringEndEntry).ringsClose = true ∧ rendCoins ((withEnd ringEndEntry).ringEnd 0 0).entry ≠ 0
      ∧ ((withEnd ringEndEntry).ringEnd 0 0).lodged = 0
      ∧ rendDev ((withEnd ringEndEntry).ringEnd 0 0).entry = (withEnd ringEndEntry).logical
      ∧ chanKind ((withEnd ringEndEntry).chan (rendChan ringEndEntry).toNat).entry = 0)
    ∧ (tileIn (ready 3).grade 767 = true ∧ (ready 3).returnTill 32767 = none)
    ∧ ((withEnd ringEndEntry).allHeld { entry := ringChanEntry, held := 4 } = true
      ∧ (withEnd ringEndEntry).allHeld { entry := ringChanEntry, held := 3 } = false)
    ∧ ([(0x80000093 : BitVec 32)].all routeForm = true ∧ [(0x80000093 : BitVec 32)].all (routeOk 2) = false) := by
  decide +kernel

def aPlan : Line := BitVec.ofNat 512 (2 ^ 64 + 2 ^ (144 + 17) + 2 ^ 192 + 2 ^ 336 + 2 * 2 ^ 384 + 2 * 2 ^ 416 + 2 ^ 448 + 2 ^ 480)
/-- The plan with snapshots. -/
def aSnap : Line := aPlan ||| (1 <<< 353)
theorem test_long_commands_witness :
    ((boxed 3).stew.program.armed = true ∧ (boxed 3).surv.granUp = false
      ∧ ({ (boxed 3).surv with granChan := 1, plan := some aSnap } : Survival).granUp = true ∧ planSnap aSnap = true)
    ∧ ((ready 3).freeDram 0 1 = true ∧ (ready 3).freeDram 0 8704 = true)
    ∧ ((ready 3).planOk aPlan = true ∧ (ready 3).planClear aPlan = true ∧ planSnap aPlan = false
      ∧ (ready 3).physOf (planBuddy aPlan) = some 1)
    ∧ (let s := ready 3
       let z : State := { s with surv := { s.surv with plan := some 0, granChan := 1, granA := { s.surv.granA with record := some 0 } } }
       z.surv.plan.isSome = true ∧ z.noProgram = true ∧ z.surv.granUp = true ∧ (z.restoreSlot 0).isSome = true)
    ∧ (let z : EnrolArgs := { mb := 15, role := 4, rights := 0, client := 0, mask := 0, key := 9, staged := 0 }
       enrolCheck z [1, 2, 6] = .ok () ∧ enrolCheck { z with role := 0, key := 0 } [1] = .ok ()
       ∧ enrolCheck { z with mb := 0, role := 0, client := 8191, rights := 7, mask := 1 } [3, 4, 5, 6] = .ok ()
       ∧ enrolCheck { z with mb := 0, role := 0, key := 0, client := 8191 } [4] = .ok ())
    ∧ (let s := boxed 0
       let op : LongOp := { cmd := 0x27, mailbox := 0, tag := 1, work := .tallies 0 0 }
       let z : State := { s with stew := { s.stew with longOp := some op } }
       z.stew.longOp = some op ∧ (match z.finish op true with | some (_, .ok _) => true | _ => false) = true) := by decide +kernel

/-! ## Survival, SMBus, power and tallies -/

def withVault (f : Vault → Vault) (s : State) : State := { s with vault := f s.vault }
theorem test_steward_events_witness :
    (let s := withVault (fun v => { v with seq := 4096, sealedNext := 0 }) (boxed 0)
     s.vault.sealWaiting = false ∧ 4096 ≤ s.unsealed)
    ∧ (let s := withVault (fun v => { v with seq := 1, sealedNext := 0, oldestAt := 0 }) (boxed 0)
       0 < s.unsealed ∧ s.vault.oldestAt + 10000 * usUnits ≤ s.clk.clk)
    ∧ (let s := boxed 0
       let z : State := { s with fab := { s.fab with fields := [(15, { err := true, errDesc := 3 })] } }
       z.stew.program.aborted = false ∧ z.abortOf (.fetch 15) = some (0x80, 15 + 3 * 16))
    ∧ ((boxed 0).island 95).lost = false ∧ ((withIslands [(95, { lost := true })] (boxed 0)).island 95).lost = true
    ∧ (boxed 0).stew.booted = true ∧ (boxed 0).stew.state = 3 ∧ (ready 0).stew.state = 2 ∧ State.reset.stew.booted = false := by
  decide +kernel

/-- Device 1 under a plan, with device 7 as its partner. -/
def planned (f : Survival → Survival) : State :=
  let s := member 0 (f { plan := some aPlan, partnerPlan := some aPlan, ctillSeen := 0, stepRun := 1 })
  { s with
    fab := { s.fab with tills := [(0, 1)] }
    stew := { s.stew with program := { s.stew.program with armed := true, replays := 1 } } }
theorem test_copies_witness :
    (let s := planned id
     s.surv.plan = some aPlan ∧ s.surv.partnerPlan = some aPlan ∧ s.begun = true ∧ s.stew.program.aborted = false
     ∧ s.surv.ctillSeen.toInt < (s.till (planTill aPlan).toNat).toInt ∧ s.surv.copying = none
     ∧ (s.copyChannel 2 0 9).2 = some 0)
    ∧ (let s := planned fun v => { v with copying := some 1 }
       s.surv.copying = some 1 ∧ s.copyIdle = true ∧ s.surv.recovering = false ∧ s.leads = true)
    ∧ (let s := member 2 { copying := some 1, recovering := true }
       s.copyIdle = true ∧ s.surv.recovering = true ∧ s.leads = false ∧ s.physOf s.leader = some 7)
    ∧ ((planned id).stew.program.aborted = false ∧ (planned fun v => { v with granChan := 2 }).surv.granUp = true) := by decide +kernel


def answeringSmb (a : Option (BitVec 7)) : State :=
  let s := aged (withTile going)
  { s with stew := { s.stew with smbAddr := a, chainIn := true, pos := 15 } }
theorem test_smbus_witness : (answeringSmb none).smbAnswers = true ∧ (answeringSmb (some 0x2F)).smbAnswers = true
    ∧ (0x2F : BitVec 8).toNat = 0x20 + (answeringSmb none).stew.pos.toNat
    ∧ (1000 : BitVec 16).toNat ≤ (designPower 0).toNat ∧ (designPower 0).toNat < (0xFFFF : BitVec 16).toNat := by decide +kernel

/-- A bring-up in which every token shows a slack above its latency and every island has a margin of 63 at step 7. -/
def outcome (pgood ready : Bool) : BootOutcome :=
  { pgood := pgood, ready := ready
    tokens := (crossings 0).map fun x => ((BitVec.ofNat 7 x.1.1, BitVec.ofNat 7 x.1.2), (10, 9))
    margins := (List.replicate 7 []) ++ [(List.range 32).map fun d => (BitVec.ofNat 7 d, 63)], nandChannels := 0, nandRate := 0
    chainMacOk := true }
/-- A module that still has its factory firmware and no owner boots it. -/
theorem boots (v : Vault) (h : v.slots = [(0, factoryFirmware)] ∧ v.rollback = 0 ∧ v.selectB = false ∧ v.gen = 0) :
    v.bootSlot = some 0 := by
  obtain ⟨hs, hr, hb, hg⟩ := h
  have genuine : factoryFirmware.genuine 0 = true := by
    simp [FwSlot.genuine, FwSlot.header, factoryFirmware, verifies, keyDigest, rootDigest]
  have slot : (Sparse.get ({} : FwSlot) v.slots 0) = factoryFirmware := by rw [hs]; rfl
  simp [Vault.bootSlot, hb, hg, hr]
  exact (congrArg (FwSlot.genuine · 0) slot).trans genuine
/-- The state in which the rails of a module that was off have come up. -/
def railed : State :=
  let z := State.reset.powerOff
  let z := { z with power := { modEn := true, modEnAt := z.clk.clk, cap := designPower z.grade } }
  { z with power := { z.power with on := true, pgood := true, pgoodAt := z.clk.clk } }
theorem test_bring_up_witness : (railed.bringUp (outcome true true) 0).stew.state = 1
    ∧ (railed.bringUp { outcome true true with tokens := [] } 0).stew.state = 6
    ∧ (railed.bringUp { outcome true true with tokens := [] } 0).stew.failDomain = 4
    ∧ (railed.calibrate (outcome true true)).2 = none
    ∧ (railed.calibrate { outcome true true with tokens := [] }).2 = some 4 := by
  have h : ({ railed.vault.useCopy with pufOk := true, kpuf := Config.puf railed.vault.pufHelper } : Vault).bootSlot = some 0 :=
    boots _ ⟨rfl, rfl, rfl, rfl⟩
  simp only [State.bringUp, h]
  decide +kernel
theorem test_power_witness :
    (State.reset.power.pgood = false ∧ State.reset.power.railsOff = false)
    ∧ (let s := aged State.reset
       let z : State := { s with power := { s.power with modEn := true } }
       z.power.modEn = true ∧ z.power.pgood = false ∧ z.power.modEnAt + 25000 * usUnits ≤ z.clk.clk)
    ∧ (let s := aged (withTile {})
       s.power.pgood = true ∧ s.power.strapped = false ∧ s.power.pgoodAt + 1000000 * usUnits ≤ s.clk.clk
       ∧ ({ s with stew := { s.stew with state := 0 } } : State).stew.state = 0) := by decide +kernel
def warming : State := let s := withTile {}; { s with stew := { s.stew with warmAsked := some 0 } }
def warmed : State := (if warming.stewardResets then warming.endTickets else warming).warmClear
theorem test_warm_witness :
    warming.stew.warmAsked.isSome = true ∧ (warming.stewardResets = true → warming.endTickets.ticketsEnded = true)
    ∧ (warmed.bringUp (outcome true true) warming.clk.step.toNat).stew.state = 1
    ∧ (warmed.bringUp { outcome true true with tokens := [] } warming.clk.step.toNat).stew.state ≠ 1
    ∧ (let s : State := { answering with
         house := { answering.house with stopped := true }
         vault := { answering.vault with sealWaiting := true }
         stew := { answering.stew with warmAsked := some 0, warmBy := 1 } }
       s.stewardResets = true ∧ s.endTickets.ticketsEnded = false ∧ s.power.pgood = true) := by
  have h : ({ warmed.vault.useCopy with pufOk := true, kpuf := Config.puf warmed.vault.pufHelper } : Vault).bootSlot = some 0 :=
    boots _ ⟨rfl, rfl, rfl, rfl⟩
  simp only [State.bringUp, h]
  decide +kernel

theorem test_heat_witness :
    (let s := aged (withTile going)
     s.watches 0 = true ∧ s.watches 20 = true ∧ s.stew.booted = true
     ∧ (thresholds 0 0).1 ≠ 0 ∧ (thresholds 0 0).1 ≤ (100 : BitVec 16).toNat ∧ (89 : BitVec 16).toNat < (thresholds 0 0).2.1
     ∧ (State.reset.noteReading 0 100).power.above = [(0, 0)] ∧ (State.reset.noteReading 0 89).power.below = [(0, 0)]
     ∧ 0 + 1000 * usUnits ≤ s.clk.clk ∧ 0 + 1000000 * usUnits ≤ s.clk.clk
     ∧ (thresholds 0 0).2.2.1 ≤ (110 : BitVec 16).toNat ∧ s.power.holders.contains 0 = false
     ∧ (thresholds 0 0).2.2.2.2 ≤ (120 : BitVec 16).toNat ∧ s.power.trip = false)
    ∧ (let s := aged (withTile going)
       let z : State := { s with power := { s.power with holders := [0] } }
       let y : State := { s with power := { s.power with holders := [0, 1] } }
       z.power.holders.contains 0 = true ∧ (104 : BitVec 16).toNat < (thresholds 0 0).2.2.2.1
       ∧ (y.power.holders.filter fun k => k != 0) ≠ [] ∧ (z.power.holders.filter fun k => k != 0) = [])
    ∧ (let s := aged (withTile going)
       let z : State := { s with power := { s.power with cap := 1000 } }
       z.power.cap.toNat < (1001 : BitVec 16).toNat ∧ z.power.cap.toNat * 9 ≤ (900 : BitVec 16).toNat * 10
       ∧ (899 : BitVec 16).toNat * 10 < z.power.cap.toNat * 9) := by decide +kernel

theorem test_tallies_witness :
    ((boxed 0).reaches .steward = true ∧ (boxed 0).reaches .jtag = true ∧ tallyIn 0 (.link 19) = true
      ∧ (3 : BitVec 4).toNat < tallyCount (.link 19) ∧ tallyCodeOf (.link 19) 0x70 = true ∧ tallyQualOk 0x70 0xFF = true
      ∧ tallyQualOk 0x70 8 = false ∧ tallyCodeOf (.link 19) 0x76 = false)
    ∧ (boxed 0).regAt 0x1F0003000000 = none ∧ (boxed 0).isHole .jtag false 0x1F0003000000 = true
    ∧ (boxed 0).regAt 0 = none ∧ (boxed 0).isHole .steward false 0 = false ∧ (boxed 0).isHole .jtag true 0x110000000000 = true ∧ State.reset.reaches .steward = false
    ∧ ((boxed 0).regAt 0x1F0000000000).isSome = true ∧ (ready 0).anyRun = false
    ∧ (0x1F0000000000 : BitVec 48).toNat % 8 = 0 ∧ (0x1F0000000001 : BitVec 48).toNat % 4 ≠ 0 := by decide +kernel

/-- A wrap sets OVF against a write that clears it in the same cycle, and a tally started anew does not count the events of
its cycle (R528). -/
theorem test_tally_cycle :
    (({ count := 0xFFFFFFFFFFFF } : Tally).add 1).clearOvf.ovf = true
    ∧ ((({ count := 0xFFFFFFFFFFFF } : Tally).add 1).endCycle.clearOvf).ovf = false
    ∧ (({ count := 7 } : Tally).restart.add 1).count = 0 ∧ ((({ count := 7 } : Tally).restart.endCycle).add 1).count = 1
    ∧ ((({ count := 7 } : Tally).latch).add 1).snap = 8 := by decide

/-- The states that the zeroisation clause of the steward's events speaks of. -/
theorem test_zeroise_witness :
    let op : LongOp := { cmd := 0x35, mailbox := 0, tag := 0, work := .zeroise, progress := 0 }
    let s : State := aged { State.reset with
      stew := { State.reset.stew with longOp := some op }
      vault := { State.reset.vault with gen := 1, zrecord := true } }
    let z : State := { s with vault := { s.vault with zmarker := true } }
    s.zeroising = true ∧ s.vault.zmarker = false ∧ s.allSealed = true
    ∧ s.vault.sealedAt + 100000 * usUnits ≤ s.clk.clk ∧ z.owned = true ∧ z.zeroising = true
    ∧ z.zeroiseStep.owned = false := by decide +kernel


/-! ## The whole machine -/

/-- A header whose numbers pass the checks of UPDATE_FW, apart from its two digests. -/
theorem test_update_header_witness :
    (let bs : List Byte := bytesOf 0x57465A45 4 ++ bytesOf 5 4 ++ [1] ++ List.replicate 7 0 ++ bytesOf 0 8 ++ bytesOf 9 32
     let cut (lo n : Nat) : Nat := natOf ((bs.drop lo).take n)
     cut 0 4 = 0x57465A45 ∧ cut 9 7 = 0 ∧ cut 8 1 ≤ 64 ∧ cut 16 8 = 8704 - 8704 ∧ cut 24 32 = 9)
    ∧ (ready 0).freeDram 0 (min 8704 8704) = true ∧ (∃ w bs, (ready 0).staged 0 256 = (w, some bs)) :=
  ⟨by decide +kernel, by decide +kernel, ⟨_, _, rfl⟩⟩

theorem test_halt_record_witness : State.reset.fab.haltRec.valid = false ∧ (5 : Scc) - (7 : Scc) ≠ 2 ^ 47 ∧ (5 : Scc) - 5 ≠ 2 ^ 47 := by decide

/-- States for the store of eight bytes and the landing of a line: no error mark, and a cycle in progress. -/
theorem test_store_witness : (posting aPost).ecc = [] ∧ (withTile landing).running = true := by decide

theorem test_invariants_witness : State.reset.MemoryOk ∧ State.reset.QueueOk
    ∧ ({ State.reset with mem := [(0, 1), (7, 2)], pending := [.scrub 0 20479] } : State).MemoryOk
    ∧ ({ State.reset with pending := [.scrub 0 20479] } : State).QueueOk := by
  refine ⟨rfl, fun c h => by simp [State.reset] at h, rfl, fun c h => ?_⟩
  simp only [List.mem_singleton] at h
  subst h
  decide

theorem test_step_takes_front : ∃ t, step { withTile going with pending := [.lockstepMismatch, .smbCap] } = .next t
    ∧ t.pending = [.smbCap] ∧ t.stew.lockstep = true := ⟨_, rfl, rfl, rfl⟩
theorem test_tick_waits : (withTile loading).waitsForEvents = true ∧ State.reset.power.pgood = false := by decide +kernel
theorem test_slot_tile_witness : slotTileOf (.endProgram 767 { lvl := 0, p := false, pidx := 0, imm := 0, arg := 0 }) = some 767 := by decide

/-! ## Stored programs -/

/-- A bundle of R101–R124, slot by slot: MMA in FMT 7 on bank 3 with ACC and PLANE (0x1EE1), FADD of registers 0 and 1 into
register 3 (0x7E182302), LD through AG 2 with OFF 5 into AQ end 8 (0x1000A41), TAKE from E_47 into SI end 1 with LAT 2
(0x46F1), MOVE from PQ to MA (0x4 | 0x16 << 4 | 0x12 << 10), LOOP of 16 at level 5 with ARG 3 (0x300100141), and a loop end at
level 2 (0x05). -/
theorem test_bundle_word : decodeBundle 767 ((0x300100141 : BitVec 48) ++ (0x4964 : BitVec 24) ++ (0x46F1 : BitVec 24)
      ++ (0x1000A41 : BitVec 48) ++ (0x7E182302 : BitVec 64) ++ (0x1EE1 : BitVec 40) ++ (0x05 : BitVec 8))
    = [.mma 767 mmaSlot, .fadd 767 (vFor formAB 0x23), .ld 767 { lSlot 8 with ag := 2, off := 5 },
       .take 767 { west := false, track := 47, fin := 1, lat := 2, rsv := 0 }, .move 767 { src := 0x16, dst := 0x12, rsv := 0 },
       .loop 767 { lvl := 5, p := false, pidx := 0, imm := 16, arg := 3 }, .loopEnd 767 2 0] := by decide +kernel

/-- A bundle of zeros is a NOP; a NOP slot that is not all zero and a reserved header are illegal. -/
theorem test_nop_words : decodeBundle 0 0 = [.nop 0 0] ∧ decodeBundle 0 0x2000 = [.reservedOpcodeIssue 0 .m]
    ∧ decodeBundle 0 (BitVec.ofNat 256 (2 + 2 ^ 8)) = [.mma 0 { fmt := 0, bank := 0, acc := false, plane := false, ag := 0, off := 0, rsv := 0 },
      .reservedOpcodeIssue 0 .c] := by decide +kernel

/-- LI X3, −1 with W and a reserved bit (R277). -/
theorem test_script_word : scriptFields 0xFFFFFFFF00302301 = { d := 3, a := 2, b := 0, w := true, rsv := 1, imm := 0xFFFFFFFF } := by
  decide

/-- A tile that issues gives its bundle, and a device without power gives none. -/
theorem test_bundle_next : (withTile going).issuesNext = some 0 ∧ (withTile going).bundleNext = some [.nop 0 0]
    ∧ State.reset.bundleNext = none := by decide +kernel

/-- The identity of grade F (R542), a hole that reads zero, and TILE_STATE of a tile that runs at PC 0 (R137). -/
theorem test_reads : idcode 0 = 0x15346D67 ∧ (boxed 0).readReg 0x1F0003000000 = (0, true)
    ∧ (boxed 0).readReg 0x1F0000000000 = (0x10000, false) := by decide +kernel

/-- The states that the clauses of HALT on a stamp name: the word's stamp is not the expected one and the tile has made no
request. -/
theorem test_stamp_halt_witness : ((withTile (passing { data := 1, stamp := 3, set := 0 } going)).tile 0).req = none
    ∧ (going.end64 1).length < qeDepth 1 := by decide +kernel

theorem test_request_replies_witness :
    (let s := ownedBy []
     let r : Receipt := { ticket := 5, dscp := 0, client := 1, reqid := 1, digest := 0, pending := true, status := 0, len := 0,
                          lseq := 0, ltime := 0, session := 4 }
     let z : State := { s with house := { s.house with receipts := [(5, some r)] } }
     z.findReceipt 1 1 = some r)
    ∧ (let s := ownedBy []
       let z : State := { s with heath := { s.heath with channels := [(16383, { ringChan with held := 0, queue := [] })] } }
       (z.chan (intakeChan (Sparse.get 0 z.house.intakes 63))).placeable (coinsOf (32 + 8)) = false) := by decide +kernel

/-! ## Further witnesses -/

/-- A member whose group commits in cycle 96, with an operation held, and one with a line in escrow. -/
def committing : Tile :=
  { going with esc := { going.esc with committed := true, resolvedAt := some 96, held := [(90, .till 0 1 false)] } }
theorem test_commits_witness : committing.esc.held[0]? = some (90, .till 0 1 false)
    ∧ (committing.planReleases 100).esc.releasing = [(101, .till 0 1 false)]
    ∧ ((withTile { going with esc := { going.esc with redirects := [(5, 20000)] } }).tile 0).esc.redirects = [(5, 20000)] := by
  decide +kernel

/-- Two results for one register in one cycle, and results for a full vector queue. -/
theorem test_clashing_results_witness :
    (let r : Result := { dst := 0x3F, data := 5, due := 100, issued := 99, iaddr := 0, slot := 1, flags := 0 }
     let x : Tile := { going with arrived := [r, { r with issued := 98, iaddr := 7 }] }
     x.arrived ≠ [] ∧ (∀ q ∈ x.arrived, q.dst = 0x3F) ∧ (x.enterAll 100).2 = [(0, inconsistent 1)])
    ∧ (qeIsVQ 0x18 = true
      ∧ qeDepth 0x18 ≤ ((going.setVq 0x18 (List.replicate 8 { data := 9, cyc := 50 })).vq 0x18).length) := by decide +kernel

/-- A step change that is complete, with a program armed and without, and the restart that brings it into force. -/
theorem test_step_changes_witness :
    (let s := aged (holding { held := true, step := true } (withTile going))
     s.stew.program.armed = true ∧ s.clk.relocked = none)
    ∧ (aged (holding { held := true, step := true } State.reset)).stew.program.armed = false
    ∧ (let s := withTile going
       ({ s with clk := { s.clk with relocked := some 3 } }.applyStep).clk.step = 3) := by decide +kernel

theorem test_burned_witness :
    (described { active 1 0x3FFF with burned := [9] } []).burning 15 255 9 = false
    ∧ (transferring { transfer with put := false, err := some (1, 0) }).pettyOf 0 1
      = some { transfer with put := false, err := some (1, 0) } := by decide +kernel

/-- A ring channel with a transfer whose ID is 4,096 behind, and a coin count that finds two coins missing. -/
theorem test_full_rings_witness :
    ({ ringChan with nextTid := 4096, transfers := [{ tid := 0, tile := none, block := none, coins := 1, addr := 0, left := 0 }] }
      : Channel).full = true
    ∧ (RingCount.wrong { chan := 5, coins := 4, sender := some (true, 2, 0), ringEnd := some (0, 0) }) = some (5 + 2 ^ 15) := by
  decide +kernel

/-- A receiver that refused transfer 3, and a stranger's packet at the hop limit. -/
theorem test_refused_transfer_witness :
    (let s : State := { withTile going with heath := { (withTile going).heath with
       receivers := [(recvKey 2 7 0, { oldest := 4, refused := [3] })] } }
     (3 : BitVec 32) ∈ (s.recv (recvKey 2 7 0)).refused)
    ∧ (let p : Packet := { Packet.blank with dst := 9, hops := 15 }
       p.dst ≠ (linked { st := 3 }).heath.id ∧ p.dst ≠ 0xFFF ∧ (linked { st := 3 }).coreLost 19 = false
       ∧ (linked { st := 3 }).buffered 19 (packetVc .write p) + packetCredits .write p ≤ 128) := by decide +kernel

/-- The peer of link 19 was declared dead, under the number that it has, or under one that is another's. -/
theorem test_return_of_the_dead_witness :
    (let s := linked { st := 2, peer := 7, myNonce := some 1, peerNonce := some 2 }
     let dead (l : BitVec 12) : State := { s with
       surv := { s.surv with dead := [(7, l)] }
       stew := { s.stew with program := { s.stew.program with digest := some 9 } } }
     let up (l : BitVec 12) : State := ((dead l).modLink 19 fun l => { l with peerOk := true }).linkComesUp 19
     ((up 2).surv.dead.find? fun d => d.1 = 7) = some (7, 2) ∧ (up 2).stew.program.digest = some 9
     ∧ (up 2).physOf 2 = some 7 ∧ (up 5).physOf 5 = none) := by decide +kernel

/-- A transfer that the answer of its receiver ends, and the end of a program for a device that is expelled. -/
theorem test_reconciled_witness :
    (let t : Transfer := { tid := 3, tile := none, block := none, coins := 1, addr := 0, left := 0 }
     let s := { linked {} with heath := { (linked {}).heath with channels := [(5, { entry := ringEntry 3, transfers := [t] })] } }
     ((s.chan 5).transfers.filter fun t => (t.tid - 3).toNat < 4096 && (1 : BitVec 4096).getLsbD (t.tid - 3).toNat) = [t]
     ∧ chanKind (s.chan 5).entry ≠ 4)
    ∧ (let s := member 0 {}
       ({ s with stew := { s.stew with resetAsked := some .expelled } }.endTickets).ticketsEnded = true) := by decide +kernel

/-- A plan without FORCE, a MAP to another device and one to the spare, and an order of the leader to itself. -/
theorem test_recovery_witness :
    planForce (planFor 2) = false ∧ planForce (BitVec.ofNat 512 (2 ^ 352)) = true
    ∧ (member 0 {}).surv.spare = none ∧ (stagedImage { spare := some (0, 88, 9) }).surv.plan = none
    ∧ (let s := member 0 { plan := some 0 }; s.leads = true ∧ s.surv.plan.isSome = true)
    ∧ (member 2 { plan := some 0 }).leads = false := by decide +kernel

/-- A sub-port that has answered 1,000 frames in this second. -/
theorem test_answers_witness :
    (let s := timed
     let second := s.clk.clk / (1000000 * usUnits)
     let x : SubPort := { s.subPort false 0 with answers := 1000, answersSecond := second }
     1000 ≤ (if x.answersSecond = second then x.answers else 0)) := by decide +kernel

/-- A handshake that is still young when its FINISH comes. -/
theorem test_young_handshake_witness :
    (let s := ownedBy [{ aSession true false 3 with since := 10 ^ 30, exchange := 9 }]
     (s.session 4 true).any fun x => !x.opened && s.clk.clk < x.since + 1000000 * usUnits && x.exchange = lastMessage.exchange)
      = true := by decide +kernel

/-- Frames that no row has: a CMD that is not listed, and CHANNEL with FORM 4; one that is too long; and a change of step that is
to complete first. -/
theorem test_stray_frames_witness :
    (∀ x ∈ ([(0x38, 0), (0x24, 4)] : List (BitVec 8 × BitVec 8)),
      Hears (boxed 3) { frame 3 5 with stray := some x } (aSession true true 3)
      ∧ ((boxed 3).heard { frame 3 5 with stray := some x } (aSession true true 3)).bars { frame 3 5 with stray := some x }
        { code := x.1, roles := rolesOf x.1.toNat } = none)
    ∧ (boxed 3).frameFits { frame 3 5 with len := 9000 } = false ∧ (boxed 3).frameFits (frame 3 5) = true
    ∧ (let s := boxed 3
       ({ s with stew := { s.stew with stepReplies := [(3, 4)] } } : State).stew.stepReplies ≠ [])
    ∧ (0x37 : Nat) < (0x38 : BitVec 8).toNat := by
  have h := hears 3 5 (.inl rfl)
  have free : State.Serves (boxed 3) := by decide +kernel
  refine ⟨fun x hx => ?_, by decide +kernel, by decide +kernel, by decide +kernel, by decide⟩
  simp only [List.mem_cons, List.not_mem_nil, or_false] at hx
  rcases hx with rfl | rfl <;>
    exact ⟨⟨h.session, h.number, h.arrives, h.header, h.window⟩, free.free rfl⟩

/-- The two signatures of 3,309 B are staged, the first not all zeros, and it is the owner's for the running slot. -/
theorem test_owner_signature_witness :
    let s := { unowned with mem := [(64, 1)] }
    let x : EnrolArgs := { mb := 0, role := 0, rights := 0, client := 0, mask := 0, key := 0, staged := 64 }
    s.vault.slotB = false ∧ s.vault.slots = [(0, factoryFirmware)] ∧ s.freeDram x.staged.toNat 6618 = true
    ∧ (∃ w bs, s.staged 64 6618 = (w, some bs) ∧ (bs.take 3309).all (· = 0) = false) := by
  refine ⟨by decide +kernel, rfl, by decide +kernel, ?_⟩
  have h : ((({ unowned with mem := [(64, 1)] } : State).staged 64 6618).2.any
      fun bs => !(bs.take 3309).all (· = 0)) = true := by decide +kernel
  generalize ({ unowned with mem := [(64, 1)] } : State).staged 64 6618 = p at h
  obtain ⟨w, bs⟩ := p
  cases bs with
  | none => cases h
  | some bs => exact ⟨w, bs, rfl, by simpa using h⟩

/-- A reset that STOP asked for, with every ticket ended, and with one that waits for an append. -/
theorem test_program_reset_witness :
    (let s := boxed 0
     let z : State := { s with stew := { s.stew with resetAsked := some .stop } }
     z.stew.booted = true ∧ z.stew.state = 3 ∧ z.endTickets.ticketsEnded = true)
    ∧ (let s : State := { answering with
         vault := { answering.vault with sealWaiting := true }
         stew := { answering.stew with resetAsked := some .stop } }
       s.stew.booted = true ∧ s.stew.state = 3 ∧ s.endTickets.ticketsEnded = false) := by decide +kernel

/-- A drain of the state buffer of step 2 into slot B. -/
theorem test_drain_witness :
    (let s := planned fun v => { v with granChan := 2, draining := some { step := 2, epoch := 0, time := 0, slotB := true, since := 0, loss := 0 } }
     s.surv.draining.isSome = true ∧ s.surv.granUp = true ∧ s.stew.program.aborted = false
     ∧ (s.readPieces (planState aPlan false) (planSize aPlan / 256)).2.isSome = true) := by decide +kernel

/-- Sensor 0 has stood above its step-down threshold, or below its step-up threshold, since the beginning. -/
theorem test_sensors_witness :
    (let s := aged (withTile going)
     let hot : State := { s with power := { s.power with above := [(0, 0)] } }
     let cool : State := { s with power := { s.power with below := [(0, 0), (20, 0)] } }
     (hot.noteReading 0 100).heldFor (hot.noteReading 0 100).power.above 0 (1000 * usUnits) = true
     ∧ (hot.noteReading 0 10).heldFor (hot.noteReading 0 10).power.above 0 (1000 * usUnits) = false
     ∧ (cool.noteReading 0 10).heldFor (cool.noteReading 0 10).power.below 0 (1000000 * usUnits) = true
     ∧ Sparse.find? 20 (since cool.power.below 20 cool.clk.clk true) = some 0) := by decide +kernel

/-- SMBus transfers to the module's address, before and after it has one, and to another. -/
theorem test_smbus_targets_witness : (answeringSmb none).stew.smbAddr.getD 0x1F = 0x1F
    ∧ (answeringSmb (some 0x2F)).stew.smbAddr.getD 0x1F = 0x2F ∧ (answeringSmb none).stew.chainIn = true := by decide
end Sys2Proof.Tests
end

section
/-!
SUPPORT. What the shared operations leave of the memory and its codewords, what the memory reads after a run of stores, and
what a tile or a channel reads after a change of it.
-/
namespace Sys2Proof.Machine

/-! ## Units after a change -/

/-- A tile reads as the change left it, and every other as before. -/
@[simp] theorem State.tile_modTile (s : State) (t u : Nat) (f : Tile → Tile) :
    (s.modTile t f).tile u = if u = t then f (s.tile t) else s.tile u := by
  rw [← State.tile_setTile]
  unfold State.modTile
  split <;> rfl

/-- A channel reads as the change left it, and every other as before. -/
@[simp] theorem State.chan_modChan (s : State) (c d : Nat) (f : Channel → Channel) :
    (s.modChan c f).chan d = if d = c then f (s.chan c) else s.chan d :=
  State.chan_setChan s c d _

/-! ## Operations that leave the bytes and their codewords alone -/

@[simp] theorem State.modTile_mem (s : State) (t : Nat) (f : Tile → Tile) : (s.modTile t f).mem = s.mem := by
  unfold State.modTile
  split <;> rfl
@[simp] theorem State.modTile_ecc (s : State) (t : Nat) (f : Tile → Tile) : (s.modTile t f).ecc = s.ecc := by
  unfold State.modTile
  split <;> rfl

@[simp] theorem State.modStack_mem (s : State) (k : Nat) (f : Stack → Stack) : (s.modStack k f).mem = s.mem := rfl
@[simp] theorem State.modStack_ecc (s : State) (k : Nat) (f : Stack → Stack) : (s.modStack k f).ecc = s.ecc := rfl
@[simp] theorem State.modPost_mem (s : State) (k : Nat) (n : BitVec 32) (f : Post → Post) :
    (s.modPost k n f).mem = s.mem := rfl
@[simp] theorem State.eccWrite_mem (s : State) (a n : Nat) : (s.eccWrite a n).mem = s.mem := rfl

@[simp] theorem State.setTally_mem (s : State) (u : TallyUnit) (n : Nat) (x : Tally) : (s.setTally u n x).mem = s.mem := by
  cases u with
  | tile t => exact State.modTile_mem _ _ _
  | _ => rfl
@[simp] theorem State.setTally_ecc (s : State) (u : TallyUnit) (n : Nat) (x : Tally) : (s.setTally u n x).ecc = s.ecc := by
  cases u with
  | tile t => exact State.modTile_ecc _ _ _
  | _ => rfl

/-- A count of events keeps whatever every write of a tally of the unit keeps. -/
theorem State.count_keeps {β : Type} (g : State → β) {u : TallyUnit}
    (h : ∀ (s : State) (n : Nat) (x : Tally), g (s.setTally u n x) = g s) (s : State) (event qual : BitVec 8) (n : Nat) :
    g (s.count u event qual n) = g s := by
  unfold State.count
  induction List.range (tallyCount u) generalizing s with
  | nil => rfl
  | cons i is ih =>
    rw [List.foldl_cons, ih]
    dsimp only
    split
    · rfl
    · exact h _ _ _

@[simp] theorem State.count_mem (s : State) (u : TallyUnit) (event qual : BitVec 8) (n : Nat) :
    (s.count u event qual n).mem = s.mem :=
  State.count_keeps State.mem (fun s n x => s.setTally_mem u n x) s event qual n
@[simp] theorem State.count_ecc (s : State) (u : TallyUnit) (event qual : BitVec 8) (n : Nat) :
    (s.count u event qual n).ecc = s.ecc :=
  State.count_keeps State.ecc (fun s n x => s.setTally_ecc u n x) s event qual n

@[simp] theorem State.corrects_mem (s : State) (k c : Nat) : (s.corrects k c).mem = s.mem := by
  unfold State.corrects
  split
  · rfl
  · simp
@[simp] theorem State.corrects_ecc (s : State) (k c : Nat) : (s.corrects k c).ecc = s.ecc := by
  unfold State.corrects
  split
  · rfl
  · simp

@[simp] theorem State.endItem_mem (s : State) (k : Nat) (n : BitVec 32) (i : Nat) : (s.endItem k n i).mem = s.mem := by
  unfold State.endItem
  split
  · rfl
  · split
    · rfl
    · split
      · rw [State.count_mem, State.modPost_mem]
      · rfl

/-! ## Runs of bytes and lines -/

@[simp] theorem bytesOf_length (n k : Nat) : (bytesOf n k).length = k := by
  induction k generalizing n with
  | zero => rfl
  | succ k ih => rw [bytesOf, List.length_cons, ih]

/-- Stored bytes change no byte outside them. -/
theorem Mem.byte_writeBytes_other {b : Nat} (bs : List Byte) (m : Memory) (a : Nat) (h : b < a ∨ a + bs.length ≤ b) :
    Mem.byte (Mem.writeBytes m a bs) b = Mem.byte m b := by
  induction bs generalizing m a with
  | nil => rfl
  | cons v bs ih =>
    rw [List.length_cons] at h
    rw [Mem.writeBytes, ih _ _ (by omega), Mem.byte_setByte_other (by omega)]

/-- Bytes read back as they were stored. -/
theorem Mem.readBytes_writeBytes (bs : List Byte) (m : Memory) (a : Nat) :
    Mem.readBytes (Mem.writeBytes m a bs) a bs.length = bs := by
  induction bs generalizing m a with
  | nil => rfl
  | cons v bs ih =>
    rw [List.length_cons, Mem.readBytes, Mem.writeBytes, ih, Mem.byte_writeBytes_other _ _ _ (by omega),
      Mem.byte_setByte_self]

/-- A number depends on the bytes that it is read from alone. -/
theorem Mem.readNat_congr {m m' : Memory} {a n : Nat} (h : ∀ b, a ≤ b → b < a + n → Mem.byte m b = Mem.byte m' b) :
    Mem.readNat m a n = Mem.readNat m' a n := by
  induction n generalizing a with
  | zero => rfl
  | succ n ih =>
    rw [Mem.readNat, Mem.readNat, h a (by omega) (by omega), ih fun b hb hn => h b (by omega) (by omega)]

/-- A stored line changes no line apart from it. -/
theorem Mem.line_setLine_other {a b : Nat} (h : b + 64 ≤ a ∨ a + 64 ≤ b) (m : Memory) (v : Line) :
    Mem.line (Mem.setLine m a v) b = Mem.line m b := by
  unfold Mem.line
  rw [Mem.readNat_congr fun c hb hn => Mem.byte_setLine_other (by omega) m v]

/-! ## Stores into a state with codewords -/

/-- Bytes stored one by one, some of them left out, change no byte outside their range. -/
theorem Mem.byte_foldl_setByte_other {b : Nat} (skips : Byte × Nat → Bool) (bs : List Byte) (m : Memory) (a : Nat)
    (h : b < a ∨ a + bs.length ≤ b) :
    Mem.byte ((bs.zipIdx a).foldl (fun m x => if skips x then m else Mem.setByte m x.2 x.1) m) b = Mem.byte m b := by
  induction bs generalizing m a with
  | nil => rfl
  | cons v bs ih =>
    rw [List.length_cons] at h
    rw [List.zipIdx_cons, List.foldl_cons, ih _ _ (by omega)]
    split
    · rfl
    · exact Mem.byte_setByte_other (by omega) m v

/-- Bytes stored under R548 change no byte outside them, whatever their codewords hold. -/
theorem State.writeBytes_byte_other {b : Nat} (s : State) (a : Nat) (bs : List Byte) (h : b < a ∨ a + bs.length ≤ b) :
    Mem.byte (s.writeBytes a bs).mem b = Mem.byte s.mem b := by
  rw [State.writeBytes, State.eccWrite_mem]
  dsimp only
  split
  · exact Mem.byte_writeBytes_other bs s.mem a h
  · exact Mem.byte_foldl_setByte_other _ bs s.mem a h

/-- Where no codeword is marked, all the bytes are stored. -/
theorem State.writeBytes_mem_of_clean {s : State} (h : s.ecc = []) (a : Nat) (bs : List Byte) :
    (s.writeBytes a bs).mem = Mem.writeBytes s.mem a bs := by
  simp [State.writeBytes, h]

/-- A write of a stack stores its bytes in the memory whose codewords it has corrected. -/
theorem State.dramWrite_mem (s : State) (k b : Nat) (bs : List Byte) :
    (s.dramWrite k b bs).mem = ((s.corrects k (s.partCorrectable b bs.length)).writeBytes b bs).mem := by
  unfold State.dramWrite
  dsimp only
  split <;> simp

/-- A line stored whole is the line of the memory. -/
@[simp] theorem State.writeLine_mem (s : State) (a : Nat) (v : Line) : (s.writeLine a v).mem = Mem.setLine s.mem a v := rfl

end Sys2Proof.Machine
end

section
/-!
O54: what an ST8 of a script and a scheduled store of a tile leave in memory.
-/
namespace Sys2Proof.Machine

/-! ## An ST8 of a script -/

/-- A write of a stack changes no byte outside it. -/
theorem State.dramWrite_byte_other {x : Nat} (s : State) (k b : Nat) (bs : List Byte) (h : x < b ∨ b + bs.length ≤ x) :
    Mem.byte (s.dramWrite k b bs).mem x = Mem.byte s.mem x := by
  rw [State.dramWrite_mem, State.writeBytes_byte_other _ _ _ h, State.corrects_mem]

/-- A write of a stack without marked codewords reads back. -/
theorem State.readBytes_dramWrite {s : State} (h : s.ecc = []) (k b : Nat) (bs : List Byte) :
    Mem.readBytes (s.dramWrite k b bs).mem b bs.length = bs := by
  have hc : (s.corrects k (s.partCorrectable b bs.length)).ecc = [] := (State.corrects_ecc _ _ _).trans h
  rw [State.dramWrite_mem, State.writeBytes_mem_of_clean hc, Mem.readBytes_writeBytes]

/-- The older access of a thread, an ST8, completes: its bytes are stored, and its thread goes on without it. -/
theorem execScriptAccessComplete_st8 {s : State} {k : BitVec 4} {n : BitVec 32} {i : BitVec 20} {p : Post} {t : Thread}
    {a : Access} {as : List Access} {v : BitVec 64} (hp : s.postOf k.toNat n = some p)
    (ht : Sparse.find? i.toNat p.threads = some t) (ha : t.accesses = a :: as) (hv : a.kind = .st8 v) :
    execScriptAccessComplete k n i false s = .next
      ((s.dramWrite k.toNat (k.toNat * 0x1000000000 + a.addr) (bytesOf v.toNat 8)).afterScript k n i
        { t with used := t.used + 1, accesses := as }) := by
  simp [execScriptAccessComplete, hp, ht, ha, hv, State.finishAccess, State.afterScript]

@[simp] theorem State.afterScript_mem (s : State) (k : BitVec 4) (n : BitVec 32) (i : BitVec 20) (t : Thread) :
    (s.afterScript k n i t).mem = s.mem := by
  rw [State.afterScript, State.endItem_mem, State.modPost_mem]

/-! ## A scheduled store -/

/-- The lines of `ls`, each a line number of the slice of tile `t` and its place in `d`, stored one after another. -/
def State.landLines (s : State) (t : Nat) (d : Vec) (gen : Option (BitVec 2)) (ls : List (Nat × Nat)) : State :=
  ls.foldl (fun s n => s.setPadLine t n.1 (d.extractLsb' (512 * n.2) 512) gen) s

/-- A write that is not speculative lands in its home lines. -/
theorem State.landWrite_home {w : PadWrite} (h : w.spec = false) (s : State) (t : Nat) :
    s.landWrite t w = s.landLines t w.data (if (s.tile t).seq.genEn then some w.gen else none)
      (padLines w.wide w.addr.toNat).zipIdx := by
  simp [State.landWrite, State.landLines, Tile.writeTo, h]

@[simp] theorem State.setPadLine_mem (s : State) (t n : Nat) (v : Line) (gen : Option (BitVec 2)) :
    (s.setPadLine t n v gen).mem = Mem.setLine s.mem (padAddr t (64 * n)) v := by
  cases gen with
  | none => rfl
  | some g => exact State.modTile_mem _ _ _

/-- Two lines of a slice lie apart. -/
theorem padAddr_line_apart {l n : Nat} (h : l ≠ n) (t : Nat) :
    padAddr t (64 * l) + 64 ≤ padAddr t (64 * n) ∨ padAddr t (64 * n) + 64 ≤ padAddr t (64 * l) := by
  unfold padAddr
  omega

/-- Landing lines changes no byte outside them. -/
theorem State.landLines_byte_other {b : Nat} (t : Nat) (d : Vec) (gen : Option (BitVec 2)) (ls : List (Nat × Nat))
    (s : State) (h : ∀ n ∈ ls, b < padAddr t (64 * n.1) ∨ padAddr t (64 * n.1) + 64 ≤ b) :
    Mem.byte (s.landLines t d gen ls).mem b = Mem.byte s.mem b := by
  induction ls generalizing s with
  | nil => rfl
  | cons n ls ih =>
    obtain ⟨hn, hls⟩ := List.forall_mem_cons.mp h
    rw [State.landLines, List.foldl_cons, ← State.landLines, ih _ hls, State.setPadLine_mem, Mem.byte_setLine_other hn]

/-- Landing lines changes no line of the slice beside them. -/
theorem State.landLines_line_other {l : Nat} (t : Nat) (d : Vec) (gen : Option (BitVec 2)) (ls : List (Nat × Nat))
    (s : State) (h : l ∉ ls.map Prod.fst) : (s.landLines t d gen ls).padLine t l = s.padLine t l := by
  induction ls generalizing s with
  | nil => rfl
  | cons n ls ih =>
    obtain ⟨hn, hls⟩ := List.ne_and_not_mem_of_not_mem_cons h
    rw [State.landLines, List.foldl_cons, ← State.landLines, ih _ hls, State.padLine, State.setPadLine_mem,
      Mem.line_setLine_other (padAddr_line_apart hn t), ← State.padLine]

/-- Each of several different lines reads back its place in the data. -/
theorem State.landLines_line {l j : Nat} (t : Nat) (d : Vec) (gen : Option (BitVec 2)) (ls : List (Nat × Nat))
    (s : State) (hd : (ls.map Prod.fst).Nodup) (h : (l, j) ∈ ls) :
    (s.landLines t d gen ls).padLine t l = d.extractLsb' (512 * j) 512 := by
  induction ls generalizing s with
  | nil => cases h
  | cons n ls ih =>
    obtain ⟨hn, hd⟩ := List.nodup_cons.mp hd
    rw [State.landLines, List.foldl_cons, ← State.landLines]
    rcases List.mem_cons.mp h with rfl | h
    · rw [State.landLines_line_other t d gen ls _ hn, State.padLine, State.setPadLine_mem, Mem.line_setLine_self]
    · exact ih _ hd h

/-- An access touches each of its lines once. -/
theorem padLines_nodup (wide : Bool) (a : Nat) : (padLines wide a).Nodup := by
  unfold padLines
  split
  · exact List.nodup_range.map fun _ _ h => Nat.add_left_cancel h
  · exact List.nodup_singleton _

/-- A landed store leaves every byte outside its lines as it was. -/
theorem State.landWrite_byte_other {b : Nat} {w : PadWrite} (hw : w.spec = false) (s : State) (t : Nat)
    (h : ∀ l ∈ padLines w.wide w.addr.toNat, b < padAddr t (64 * l) ∨ padAddr t (64 * l) + 64 ≤ b) :
    Mem.byte (s.landWrite t w).mem b = Mem.byte s.mem b := by
  rw [State.landWrite_home hw]
  exact State.landLines_byte_other t _ _ _ s fun n hn => h n.1 (List.fst_mem_of_mem_zipIdx hn)

/-- The lines of a landed store hold its data. -/
theorem State.landWrite_line {j l : Nat} {w : PadWrite} (hw : w.spec = false) (s : State) (t : Nat)
    (h : (padLines w.wide w.addr.toNat)[j]? = some l) :
    (s.landWrite t w).padLine t l = w.data.extractLsb' (512 * j) 512 := by
  rw [State.landWrite_home hw]
  refine State.landLines_line t _ _ _ s ?_ (List.mk_mem_zipIdx_iff_getElem?.mpr h)
  rw [List.zipIdx_map_fst]
  exact padLines_nodup _ _

/-- The state in which a due write lands: its tile no longer holds it. -/
def State.dropWrite (s : State) (t : Nat) (w : PadWrite) : State :=
  s.modTile t fun x => { x with pad := { x.pad with writes := x.pad.writes.filter fun v => v != w } }

@[simp] theorem State.dropWrite_mem (s : State) (t : Nat) (w : PadWrite) : (s.dropWrite t w).mem = s.mem :=
  State.modTile_mem _ _ _

/-- In a running cycle the write that is due lands. -/
theorem execScratchpadWriteLand_due {s : State} {t : TileNo} {w : PadWrite} (hr : s.running = true)
    (hw : (s.tile t.toNat).pad.writes.find? (fun v => v.due = s.fab.scc) = some w) :
    execScratchpadWriteLand t s = .next ((s.dropWrite t.toNat w).landWrite t.toNat w) := by
  simp only [execScratchpadWriteLand, hr, hw, Bool.not_true, Bool.false_eq_true, if_false]
  rfl

end Sys2Proof.Machine

open Sys2Proof Sys2Proof.Machine

/-- Settles O54: an ST8 ends in a write of its stack, and a scheduled store in a run of whole lines, each apart from the others. -/
theorem storesReachMemory : Obligations.StoresReachMemory := by
  intro s
  constructor
  · intro k n i p t a as v hp ht ha hv
    refine ⟨_, execScriptAccessComplete_st8 hp ht ha hv, fun b hb => ?_, fun hs => ?_⟩
    · rw [State.afterScript_mem]
      exact State.dramWrite_byte_other s _ _ _ (by rwa [bytesOf_length])
    · rw [State.afterScript_mem]
      simpa using State.readBytes_dramWrite hs k.toNat (k.toNat * 0x1000000000 + a.addr) (bytesOf v.toNat 8)
  · intro t w hr hw hs
    refine ⟨_, execScratchpadWriteLand_due hr hw, fun b hb => ?_, fun j l hj => State.landWrite_line hs _ _ hj⟩
    rw [State.landWrite_byte_other hs _ _ hb, State.dropWrite_mem]
end

section
/-!
O58: no command ends in a fault or a refusal.
-/
namespace Sys2Proof.Machine

/-- A landing answers a next state, whether or not a write is due. -/
theorem execScratchpadWriteLand_next (t : TileNo) (s : State) : ∃ s', execScratchpadWriteLand t s = .next s' := by
  cases hr : s.running with
  | false => exact ⟨s, by simp [execScratchpadWriteLand, hr]⟩
  | true =>
    cases hw : (s.tile t.toNat).pad.writes.find? fun w => w.due = s.fab.scc with
    | none => exact ⟨s, by simp [execScratchpadWriteLand, hr, hw]⟩
    | some w => exact ⟨_, execScratchpadWriteLand_due hr hw⟩

/-- A scrub answers a next state, whether or not the line can be read. -/
theorem execScrub_next (t : TileNo) (line : BitVec 15) (s : State) : ∃ s', execScrub t line s = .next s' := by
  unfold execScrub
  dsimp only
  split
  · exact ⟨s, rfl⟩
  · exact ⟨_, rfl⟩

end Sys2Proof.Machine

open Sys2Proof Sys2Proof.Machine

/-- Settles O58: a command's meaning is written as the next state that it answers, but for two that branch first. -/
theorem everyCommandAnswersNext : Obligations.EveryCommandAnswersNext := by
  intro c s
  cases c with
  | scratchpadWriteLand t => exact execScratchpadWriteLand_next t s
  | scrub t line => exact execScrub_next t line s
  | _ => exact ⟨_, rfl⟩
end

section
/-!
O47: what the writes of tallies and registers do, and what registers read.
-/
namespace Sys2Proof.Machine

/-! ## Words of wide registers -/

/-- A word of a wide register is a slice of its bits. -/
theorem wordOf_toNat {n : Nat} (x : BitVec n) (i : Nat) : wordOf x.toNat i = x.extractLsb' (32 * i) 32 := by
  apply BitVec.eq_of_toNat_eq
  rw [wordOf, BitVec.toNat_ofNat, BitVec.extractLsb'_toNat, Nat.shiftRight_eq_div_pow]

/-- A bit of word `i` of a number that stands in that word. -/
theorem getLsbD_word_of_shifted {n i j : Nat} (h : 32 * i + j < n) (v : Nat) :
    (BitVec.ofNat n (v * 2 ^ (32 * i))).getLsbD (32 * i + j) = v.testBit j := by
  rw [BitVec.getLsbD_ofNat, Nat.testBit_mul_two_pow]
  simp [h]

/-- A word that was put into a wide register reads back. -/
theorem wordOf_putWord {n i : Nat} (h : 32 * (i + 1) ≤ n) (x : BitVec n) (v : BitVec 32) :
    wordOf (putWord x i v).toNat i = v := by
  rw [wordOf_toNat]
  apply BitVec.eq_of_getLsbD_eq
  intro j hj
  have hn : 32 * i + j < n := by omega
  have hm : (0xFFFFFFFF : Nat).testBit j = true := by
    rw [show (0xFFFFFFFF : Nat) = 2 ^ 32 - 1 from rfl, Nat.testBit_two_pow_sub_one]
    exact decide_eq_true hj
  simp only [putWord, BitVec.getLsbD_extractLsb', BitVec.getLsbD_or, BitVec.getLsbD_and, BitVec.getLsbD_not,
    getLsbD_word_of_shifted hn, hm, hj, hn]
  simp [BitVec.getLsbD]

/-! ## Tallies -/

/-- A tally that starts anew in a cycle does not count the events of the cycle. -/
theorem Tally.add_of_quiet {x : Tally} (h : x.quiet = true) (n : Nat) : x.add n = x := by
  simp [Tally.add, h]

/-- A wrap wins over a write that clears OVF in its cycle. -/
theorem Tally.clearOvf_add_of_wraps {x : Tally} {n : Nat} (h : x.quiet = false) (hn : 2 ^ 48 ≤ x.count.toNat + n) :
    (x.add n).clearOvf.ovf = true := by
  simp only [Tally.add, Tally.clearOvf, h, Bool.false_eq_true, if_false, decide_eq_true hn, Bool.or_true]

theorem State.tallyReached_of {s : State} {w : Writer} {u : TallyUnit} {n : Nat} (hw : s.reaches w = true)
    (hu : tallyIn s.grade u = true) (hn : n < tallyCount u) : s.tallyReached w u n = true := by
  simp [State.tallyReached, hw, hu, hn]

/-- A selection that the writer may make restarts the tally with the event, or with zeros for a code that its unit does not
have. -/
theorem execTallyEventSelect_reached {s : State} {w : Writer} {u : TallyUnit} {n : BitVec 4} {event qual : BitVec 8}
    (h : s.tallyReached w u n.toNat = true)
    (hw : w = .jtag ∨ (event = (tallyDefault u n.toNat).event ∧ qual = (tallyDefault u n.toNat).qual)) :
    execTallyEventSelect w u n event qual s = .next (s.setTally u n.toNat { (s.getTally u n.toNat).restart with
      event := if tallyCodeOf u event && tallyQualOk event qual then event else 0
      qual := if tallyCodeOf u event && tallyQualOk event qual then qual else 0 }) := by
  have mine : (decide (w = .jtag) || (decide (event = (tallyDefault u n.toNat).event)
      && decide (qual = (tallyDefault u n.toNat).qual))) = true := by simpa using hw
  simp only [execTallyEventSelect, h, mine, Bool.and_self, if_true]

/-! ## Register writes -/

/-- An address that is no multiple of 4, or in a wide access none of 8, is no multiple of the bytes of the access. -/
theorem unaligned_of {a : Nat} {wide : Bool} (h : a % 4 ≠ 0 ∨ (wide = true ∧ a % 8 ≠ 0)) :
    a % (if wide then 8 else 4) ≠ 0 := by
  cases wide with
  | false => simpa using h
  | true =>
    simp only [true_and, if_true] at h ⊢
    omega

/-- A write by one who does not reach the registers, or at an address that is no multiple of its bytes, changes nothing. -/
theorem execRegisterWrite_dropped {s : State} {w : Writer} {a : BitVec 48} {wide : Bool} (v : BitVec 64)
    (h : s.reaches w = false ∨ a.toNat % (if wide then 8 else 4) ≠ 0) :
    execRegisterWrite w a v wide s = .next s := by
  have h' : (!s.reaches w || a.toNat % (if wide then 8 else 4) != 0) = true := by simpa using h
  simp only [execRegisterWrite, h', if_true]

/-- An aligned write where no register stands reports an address error, if the writer meets a hole there. -/
theorem execRegisterWrite_hole {s : State} {w : Writer} {a : BitVec 48} {wide : Bool} (v : BitVec 64)
    (hw : s.reaches w = true) (ha : a.toNat % (if wide then 8 else 4) = 0) (hr : s.regAt a.toNat = none) :
    execRegisterWrite w a v wide s = .next (if s.isHole w wide a.toNat then s.emit (.addressError w a) else s) := by
  simp [execRegisterWrite, hw, ha, hr]

/-- An aligned write of a register writes its one word or its two. -/
theorem execRegisterWrite_register {s : State} {w : Writer} {a : BitVec 48} {wide : Bool} {b : RegBlock} {off : Nat}
    (v : BitVec 64) (hw : s.reaches w = true) (ha : a.toNat % (if wide then 8 else 4) = 0)
    (hr : s.regAt a.toNat = some (b, off)) :
    execRegisterWrite w a v wide s = .next (
      if wide then (s.writeWord w b off (v.setWidth 32)).writeWord w b (off + 4) (v.extractLsb' 32 32)
      else s.writeWord w b off (v.setWidth 32)) := by
  simp [execRegisterWrite, hw, ha, hr]

/-! ## Register reads -/

theorem State.readReg_hole {s : State} {a : Nat} (hr : s.regAt a = none) (ht : tillAt a = none) :
    s.readReg a = (0, true) := by
  simp [State.readReg, hr, ht]

theorem State.readReg_till {s : State} {a : Nat} {n : BitVec 15} (hr : s.regAt a = none) (ht : tillAt a = some n) :
    s.readReg a = (s.tillRead n, false) := by
  simp [State.readReg, hr, ht]

theorem State.readReg_register {s : State} {a off : Nat} {b : RegBlock} (hr : s.regAt a = some (b, off)) :
    s.readReg a = (s.readWord b (off / 4 * 4), false) := by
  simp [State.readReg, hr]

/-! ## Registers that read back -/

/-- HOLD_LIMIT reads as it was written. -/
theorem State.read_write_holdLimit (s : State) (w : Writer) (v : BitVec 32) :
    (s.writeWord w (.io 0) 0x2020 v).readWord (.io 0) 0x2020 = v := by
  simp [State.writeWord, State.writeIo0, State.readWord, State.readIo, portOffset, State.readHold]

/-- TIME_RATE reads as clamped (R56). -/
theorem State.read_write_timeRate (s : State) (w : Writer) (v : BitVec 32) :
    (s.writeWord w (.io 0) 0x1008 v).readWord (.io 0) 0x1008 = clampRate v := by
  simp [State.writeWord, State.writeIo0, State.readWord, State.readIo, portOffset, State.readHold]

/-- The bits that a word clears in a narrower register are those that it clears in the register's reading. -/
theorem setWidth_and_not_setWidth {n m : Nat} (x : BitVec n) (v : BitVec m) :
    (x &&& ~~~(v.setWidth n)).setWidth m = x.setWidth m &&& ~~~v := by
  apply BitVec.eq_of_getLsbD_eq
  intro i hi
  by_cases h : i < n
  · simp [h, hi]
  · simp [h, hi, BitVec.getLsbD_of_ge x i (by omega)]

/-- A 1 written to a bit of FPFLAGS clears it (R180). -/
theorem State.read_write_fpflags (s : State) (w : Writer) (t : Nat) (v : BitVec 32) :
    (s.writeWord w (.tile t) 0x18 v).readWord (.tile t) 0x18 = s.readWord (.tile t) 0x18 &&& ~~~v := by
  have hw : s.writeWord w (.tile t) 0x18 v
      = s.modTile t fun x => { x with vec := { x.vec with fpflags := x.vec.fpflags &&& ~~~(v.setWidth 13) } } := rfl
  have hr (z : State) : z.readWord (.tile t) 0x18 = (z.tile t).vec.fpflags.setWidth 32 := rfl
  rw [hw, hr, hr, State.tile_modTile, if_pos rfl]
  exact setWidth_and_not_setWidth _ v

/-- A write of TILE_STATE, which is RO, leaves the tile as it is (R137). -/
theorem State.tile_write_tileState (s : State) (w : Writer) (t : Nat) (v : BitVec 32) :
    (s.writeWord w (.tile t) 0 v).tile t = s.tile t := by
  have hw : s.writeWord w (.tile t) 0 v = if (s.tile t).seq.run then s else s.modTile t fun x => x := by
    simp [State.writeWord, State.writeTile, State.putReg, Tile.putReg]
  rw [hw]
  split
  · rfl
  · rw [State.tile_modTile, if_pos rfl]

/-- A write of HALT_STATUS, which is RO, changes nothing. -/
theorem State.write_haltStatus (s : State) (w : Writer) (v : BitVec 32) : s.writeWord w (.io 0) 0x2000 v = s := by
  simp [State.writeWord, State.writeIo0, State.putReg, State.putIo0]

/-- While no tile runs, a word of the channel table takes every bit that is not reserved (R330). -/
theorem State.write_channelTable {s : State} (hs : s.anyRun = false) (w : Writer) {off : Nat} (low : 0x01000000 ≤ off)
    (high : off < 0x010FFFC0) (v : BitVec 32) :
    s.writeWord w (.io 0) off v = s.modChan ((off - 0x01000000) / 64) fun x =>
      { x with entry := putWord x.entry (off / 4 % 16) (v &&& maskWord chanBits (off / 4 % 16)) } := by
  have apart {k : Nat} (hk : k < 0x01000000) : off ≠ k := by omega
  have above {k : Nat} (hk : k ≤ 0x01000000) : ¬ off < k := by omega
  have below : ¬ 0x04000000 ≤ off := by omega
  have bits : io0Bits off = maskWord chanBits (off / 4 % 16) := by simp [io0Bits, low, high]
  have put (u : BitVec 32) : s.putReg (.io 0) off u
      = s.modChan ((off - 0x01000000) / 64) fun x => { x with entry := putWord x.entry (off / 4 % 16) u } := by
    simp [State.putReg, State.putIo0, low, high]
  simp [State.writeWord, State.writeIo0, apart, above, below, hs, put, bits]

theorem State.read_channelTable (s : State) {off : Nat} (low : 0x01000000 ≤ off) (high : off < 0x010FFFC0) :
    s.readWord (.io 0) off = wordOf (s.chan ((off - 0x01000000) / 64)).entry.toNat (off / 4 % 16) := by
  have above {k : Nat} (hk : k ≤ 0x01000000) : ¬ off < k := by omega
  have apart : off ≠ 0x3000 := by omega
  simp [State.readWord, State.readIo, State.readTables, portOffset, above, apart, low, high]

/-- While no tile runs, a word of the channel table reads as it was written, but for its reserved bits (R330). -/
theorem State.read_write_channelTable {s : State} (hs : s.anyRun = false) (w : Writer) {off : Nat}
    (low : 0x01000000 ≤ off) (high : off < 0x010FFFC0) (v : BitVec 32) :
    (s.writeWord w (.io 0) off v).readWord (.io 0) off = v &&& maskWord chanBits (off / 4 % 16) := by
  rw [State.write_channelTable hs w low high, State.read_channelTable _ low high, State.chan_modChan, if_pos rfl]
  exact wordOf_putWord (by omega) _ _

/-- Both words of TIME_STEP and that of TALLY_LATCH, which are WO, read zero (R56, R531). -/
theorem State.read_writeOnly (s : State) :
    s.readWord (.io 0) 0x1010 = 0 ∧ s.readWord (.io 0) 0x1014 = 0 ∧ s.readWord (.io 0) 0x9B00 = 0 := by
  refine ⟨?_, ?_, ?_⟩ <;> simp [State.readWord, State.readIo, State.readHold, State.readHouse, portOffset]

/-! ## The test access port -/

/-- IDCODE holds version 1, the part number, the manufacturer's code and a 1 (R534). -/
theorem idcode_fields (g : BitVec 2) : (idcode g).extractLsb' 28 4 = 1 ∧ (idcode g).extractLsb' 12 16 = partNumber g
    ∧ (idcode g).extractLsb' 1 11 = 0x6B3 ∧ (idcode g).getLsbD 0 = true := by
  revert g
  decide

/-- The legs of present links bear the cells of IEEE 1149.6, and those of absent links none (R534, R542). -/
theorem scanCell_hedge_iff (g : BitVec 2) (k n : Nat) :
    scanCell g (.hedge k n) = some true ↔ linkIn g k = true ∧ n < 32 := by
  simp [scanCell]

end Sys2Proof.Machine

open Sys2Proof Sys2Proof.Machine

/-- The first clause of O47: what each write of a tally or a register does. -/
theorem talliesAndRegistersTakeWrites : Clause.TalliesAndRegistersTakeWrites := by
  intro s w u n
  refine ⟨fun hw hu hn => ?_, fun hw hu hn => ?_, fun x k => ⟨fun hq => Tally.add_of_quiet hq k, Tally.clearOvf_add_of_wraps⟩,
    fun hw => ?_, fun a v => ⟨fun wide h => ?_, fun wide hw ha hr => ?_, fun b off hw hr => ?_⟩⟩
  · have reached := State.tallyReached_of hw hu hn
    refine ⟨?_, fun event qual hsel => ⟨fun he hq => ?_, fun hbad => ?_⟩⟩
    · change execClear w u n s = _
      rw [execClear, if_pos reached]
      rfl
    · exact (execTallyEventSelect_reached reached hsel).trans (by simp [he, hq, Tally.restart])
    · have bad : (tallyCodeOf u event && tallyQualOk event qual) = false :=
        Bool.and_eq_false_iff.mpr hbad
      exact (execTallyEventSelect_reached reached hsel).trans (by simp [bad, Tally.restart])
  · change execTallySample u n s = _
    rw [execTallySample, if_pos (State.tallyReached_of hw hu hn)]
    rfl
  · change execTallyLatch w s = _
    rw [execTallyLatch, if_pos hw]
  · exact execRegisterWrite_dropped v (h.imp_right unaligned_of)
  · exact ⟨fun hh => (execRegisterWrite_hole v hw ha hr).trans (by rw [if_pos hh]),
      fun hh => (execRegisterWrite_hole v hw ha hr).trans (by simp [hh])⟩
  · exact ⟨fun ha => execRegisterWrite_register (wide := false) v hw ha hr,
      fun ha => execRegisterWrite_register (wide := true) v hw ha hr⟩

/-- The second clause of O47: what each read returns. -/
theorem registersReadBack : Clause.RegistersReadBack := by
  refine ⟨fun s a => ⟨State.readReg_hole, fun n => State.readReg_till, fun b off => State.readReg_register⟩,
    fun s w v => ?_, idcode_fields, rfl, rfl, rfl, scanCell_hedge_iff⟩
  refine ⟨s.read_write_holdLimit w v, s.read_write_timeRate w v, fun t => s.read_write_fpflags w t v, fun t => ?_, ?_,
    fun hs c i hc hi => ?_, s.read_writeOnly⟩
  · exact congrArg Tile.stateWord (s.tile_write_tileState w t v)
  · rw [State.write_haltStatus]
  · have word : (0x01000000 + 64 * c + 4 * i) / 4 % 16 = i := by omega
    rw [State.read_write_channelTable hs w (by omega) (by omega), word]

/-- Settles O47, clause by clause. -/
theorem talliesAndRegisters : Obligations.TalliesAndRegisters :=
  ⟨talliesAndRegistersTakeWrites, registersReadBack⟩
end

section
/-!
SUPPORT. What leaves the memory alone: the operations that write no byte, in the order of the model's files.
-/
namespace Sys2Proof.Machine

/-! ## Runs of changes -/

/-- A run of changes that each leave the memory leaves it. -/
theorem foldl_mem {α : Type} {f : State → α → State} (h : ∀ s a, (f s a).mem = s.mem) (l : List α) (s : State) :
    (l.foldl f s).mem = s.mem := by
  induction l generalizing s with
  | nil => rfl
  | cons a l ih => rw [List.foldl_cons, ih, h]

/-- The same for changes that carry a second value along. -/
theorem foldl_fst_mem {α β : Type} {f : State × β → α → State × β} (h : ∀ x a, (f x a).1.mem = x.1.mem) (l : List α)
    (x : State × β) : (l.foldl f x).1.mem = x.1.mem := by
  induction l generalizing x with
  | nil => rfl
  | cons a l ih => rw [List.foldl_cons, ih, h]

/-- The memory of a pair's state, once the pair is named. -/
theorem State.mem_of_eq {β : Type} {p : State × β} {s : State} {b : β} (h : p = (s, b)) : s.mem = p.1.mem := by
  rw [h]

/-! ## Sys2Proof/Machine/Ops.lean -/

@[simp] theorem State.modField_mem (s : State) (f : Nat) (g : Field → Field) : (s.modField f g).mem = s.mem := rfl
@[simp] theorem State.modDie_mem (s : State) (d : Nat) (g : Die → Die) : (s.modDie d g).mem = s.mem := rfl
@[simp] theorem State.modLink_mem (s : State) (k : Nat) (g : Link → Link) : (s.modLink k g).mem = s.mem := rfl
@[simp] theorem State.modChan_mem (s : State) (c : Nat) (g : Channel → Channel) : (s.modChan c g).mem = s.mem := rfl
@[simp] theorem State.modIsland_mem (s : State) (d : Nat) (g : Island → Island) : (s.modIsland d g).mem = s.mem := rfl
@[simp] theorem State.setRingEnd_mem (s : State) (d n : Nat) (x : RingEnd) : (s.setRingEnd d n x).mem = s.mem := rfl

@[simp] theorem State.tileEvent_mem (s : State) (t : Nat) (event : BitVec 8) (n : Nat) :
    (s.tileEvent t event n).mem = s.mem := by
  unfold State.tileEvent
  split <;> simp

@[simp] theorem State.endTallies_mem (s : State) : s.endTallies.mem = s.mem := by
  unfold State.endTallies
  exact foldl_mem (fun _ _ => by dsimp only; split <;> simp) _ _

@[simp] theorem State.elapse_mem (s : State) (u : Nat) : (s.elapse u).mem = s.mem := rfl

@[simp] theorem State.requestHold_mem (s : State) (c : Cause) (cyc : Scc) : (s.requestHold c cyc).mem = s.mem := by
  unfold State.requestHold
  dsimp only
  split <;> simp

@[simp] theorem State.requestSlip_mem (s : State) (d : Nat) : (s.requestSlip d).mem = s.mem := by
  simp [State.requestSlip, apply_ite State.mem]

@[simp] theorem State.requestSlips_mem (s : State) : s.requestSlips.mem = s.mem := by
  simp [State.requestSlips, foldl_mem]

@[simp] theorem State.stopRun_mem (s : State) : s.stopRun.mem = s.mem := rfl

@[simp] theorem State.requestHalt_mem (s : State) (rank : Nat) (source : BitVec 64) (cyc : Scc) (reason : BitVec 8)
    (subcode : BitVec 4) (detail : BitVec 32) : (s.requestHalt rank source cyc reason subcode detail).mem = s.mem := by
  simp [State.requestHalt, apply_ite State.mem]

@[simp] theorem State.unitHalt_mem (s : State) (kind index : Nat) (reason : BitVec 8) (subcode : BitVec 4)
    (detail : BitVec 32) : (s.unitHalt kind index reason subcode detail).mem = s.mem := by
  unfold State.unitHalt
  split <;> simp

@[simp] theorem State.abort_mem (s : State) (code : BitVec 8) (detail : BitVec 32) :
    (s.abort code detail).mem = s.mem := by
  simp [State.abort]

@[simp] theorem State.tileHalt_mem (s : State) (t : Nat) (cyc : Scc) (iaddr : BitVec 11) (f : Failure) :
    (s.tileHalt t cyc iaddr f).mem = s.mem := by
  unfold State.tileHalt
  dsimp only
  (repeat' split) <;> simp

/-! ## Sys2Proof/Machine/Dram.lean -/

@[simp] theorem State.dramRead_mem (s : State) (k b n : Nat) : (s.dramRead k b n).1.mem = s.mem := by
  unfold State.dramRead
  dsimp only
  split <;> simp

@[simp] theorem State.dramHalt_mem (s : State) (k a : Nat) : (s.dramHalt k a).mem = s.mem := by simp [State.dramHalt]

@[simp] theorem State.readDram_mem (s : State) (a n : Nat) : (s.readDram a n).1.mem = s.mem := by
  refine foldl_fst_mem (fun x p => ?_) _ _
  split <;> simp

/-! ## Sys2Proof/Machine/HeathOps.lean -/

@[simp] theorem State.selectRedrawn_mem (s : State) : s.selectRedrawn.mem = s.mem := by
  unfold State.selectRedrawn
  split <;> rfl

@[simp] theorem State.sendFlit_mem (s : State) (k : Nat) : (s.sendFlit k).mem = s.mem := by simp [State.sendFlit]

@[simp] theorem State.pump_mem (s : State) (k : Nat) (fuel : Nat) : (s.pump k fuel).mem = s.mem := by
  induction fuel generalizing s with
  | zero => rfl
  | succ fuel ih =>
    unfold State.pump
    split <;> simp [ih]

@[simp] theorem State.returnCredits_mem (s : State) (k : Nat) (vc : BitVec 3) (n : Nat) :
    (s.returnCredits k vc n).mem = s.mem :=
  rfl

@[simp] theorem State.leaves_mem (s : State) (o : OutPacket) : (s.leaves o).mem = s.mem := by
  unfold State.leaves
  split <;> rfl

@[simp] theorem State.sendOn_mem (s : State) (k : Nat) (o : OutPacket) : (s.sendOn k o).mem = s.mem := by
  simp [State.sendOn]

@[simp] theorem State.linkDead_mem (s : State) (dst : BitVec 12) : (s.linkDead dst).mem = s.mem := by
  simp [State.linkDead]

theorem State.trySend_mem {s s' : State} {o : OutPacket} (h : s.trySend o = some s') : s'.mem = s.mem := by
  unfold State.trySend at h
  split at h
  · cases h
  · cases h
    split <;> simp
  · split at h
    · cases h
      dsimp only
      split <;> simp
    · cases h

theorem State.pump_foldl_mem (s : State) (ls : SMap Link) (n : Nat) :
    (ls.foldl (fun s l => s.pump l.1 n) s).mem = s.mem := foldl_mem (fun s l => s.pump_mem l.1 n) ls s

@[simp] theorem State.drainOut_mem (s : State) : s.drainOut.mem = s.mem := by
  rw [State.drainOut, State.pump_foldl_mem, foldl_mem]
  intro s o
  split
  · next h => exact State.trySend_mem h
  · rfl

@[simp] theorem State.queueOut_mem (s : State) (o : OutPacket) : (s.queueOut o).mem = s.mem := rfl

@[simp] theorem State.queuePacket_mem (s : State) (ty : PacketType) (p : Packet) :
    (s.queuePacket ty p).mem = s.mem := by
  unfold State.queuePacket
  split <;> rfl

@[simp] theorem State.send_mem (s : State) (ty : PacketType) (p : Packet) : (s.send ty p).mem = s.mem := by
  simp [State.send]

@[simp] theorem State.sendPinned_mem (s : State) (k : Nat) (ty : PacketType) (p : Packet) :
    (s.sendPinned k ty p).mem = s.mem := by
  simp [State.sendPinned]

@[simp] theorem State.sendControl_mem (s : State) (dst : BitVec 12) (link : Option (BitVec 5)) (ckind : BitVec 8)
    (data : List Byte) : (s.sendControl dst link ckind data).mem = s.mem := by
  unfold State.sendControl
  rw [State.drainOut_mem]
  refine foldl_mem (fun s p => ?_) _ _
  split <;> simp

@[simp] theorem State.sendTransfer_mem (s : State) (c : Nat) (tid : BitVec 32) (ps : List (PacketType × Packet)) :
    (s.sendTransfer c tid ps).mem = s.mem := by
  unfold State.sendTransfer
  rw [State.drainOut_mem]
  exact foldl_mem (fun s p => by simp) _ _

@[simp] theorem State.startAs_mem (s : State) (c : Nat) (tid : BitVec 32) (t : Transfer)
    (ps : List (PacketType × Packet)) : (s.startAs c tid t ps).mem = s.mem := by
  simp [State.startAs]

@[simp] theorem State.takeTid_mem (s : State) (c : Nat) : (s.takeTid c).1.mem = s.mem := rfl

@[simp] theorem State.startTransfer_mem (s : State) (c : Nat) (t : Transfer) (ps : List (PacketType × Packet)) :
    (s.startTransfer c t ps).mem = s.mem := by
  unfold State.startTransfer
  dsimp only
  split <;> simp

@[simp] theorem State.endTransfer_mem (s : State) (c : Nat) (tid : BitVec 32) : (s.endTransfer c tid).mem = s.mem := by
  unfold State.endTransfer
  dsimp only
  (repeat' split) <;> simp

/-! ## Sys2Proof/Machine/Operands.lean -/

@[simp] theorem State.failIssue_mem (s : State) (t : Nat) (work : Tile) (f : Failure) :
    (s.failIssue t work f).mem = s.mem := by
  simp [State.failIssue]

@[simp] theorem State.raiseFails_mem (s : State) (t : Nat) (fails : List LateFail) :
    (s.raiseFails t fails).mem = s.mem := by
  induction fails generalizing s with
  | nil => rfl
  | cons f fs ih => simp [State.raiseFails, ih]

@[simp] theorem State.openSlot_mem (s : State) (n : Nat) : (s.openSlot n).mem = s.mem := by
  unfold State.openSlot
  split <;> rfl

@[simp] theorem State.endSlot_mem (s : State) (n : Nat) (y : Tile) : (s.endSlot n y).mem = s.mem := by
  simp [State.endSlot]

@[simp] theorem State.endTrial_mem (s : State) (n : Nat) (w : Tile) : (s.endTrial n w).mem = s.mem := by
  simp [State.endTrial]

@[simp] theorem State.issue_mem (s : State) (t : TileNo) (slot : Nat) (body : IssueEnv → Tile → Except Failure Tile)
    (uses : Bundle → Bundle) : (s.issue t slot body uses).mem = s.mem := by
  unfold State.issue
  dsimp only
  (repeat' split) <;> simp

/-! ## Sys2Proof/Machine/Scratch.lean -/

@[simp] theorem State.sampleRead_mem (s : State) (t : Nat) (r : PadRead) : (s.sampleRead t r).mem = s.mem := by
  unfold State.sampleRead
  dsimp only
  (repeat' split) <;> simp

@[simp] theorem State.sampleReads_mem (s : State) (t : Nat) : (s.sampleReads t).mem = s.mem := by
  unfold State.sampleReads
  dsimp only
  split <;> simp [foldl_mem]

@[simp] theorem State.enqueueAccess_mem (s : State) (t : Nat) (agent : Nat) (line : Nat)
    (data : Option (Line × BitVec 64)) (gen : Option (BitVec 2)) (spec : Bool) (owner : UOwner) :
    (s.enqueueAccess t agent line data gen spec owner).mem = s.mem := by
  simp [State.enqueueAccess]

@[simp] theorem State.scrubbed_mem (s : State) (t line : Nat) : (s.scrubbed t line).mem = s.mem := by
  simp [State.scrubbed, apply_ite State.mem]

/-! ## Sys2Proof/Machine/Rings.lean -/

@[simp] theorem State.noteLate_mem (s : State) (t : Nat) : (s.noteLate t).mem = s.mem := by simp [State.noteLate]

@[simp] theorem State.asyncRead_mem (s : State) (a n : Nat) : (s.asyncRead a n).1.mem = s.mem := by
  unfold State.asyncRead
  split
  · split <;> simp
  · rfl

@[simp] theorem State.restartRing_mem (s : State) (d i : Nat) : (s.restartRing d i).mem = s.mem := by
  unfold State.restartRing
  dsimp only
  split <;> simp

@[simp] theorem State.unmapped_mem (s : State) : s.unmapped.mem = s.mem := by simp [State.unmapped]

@[simp] theorem State.coinFault_mem (s : State) (kind index : Nat) (chan : BitVec 14) :
    (s.coinFault kind index chan).mem = s.mem := by
  simp [State.coinFault]

@[simp] theorem State.returnCoins_mem (s : State) (d i : Nat) (v : Int) (sub : Bool) :
    (s.returnCoins d i v sub).mem = s.mem := by
  unfold State.returnCoins
  dsimp only
  (repeat' split) <;> simp

@[simp] theorem State.applyTill_mem (s : State) (n : BitVec 15) (v : BitVec 32) (sub : Bool) :
    (s.applyTill n v sub).1.mem = s.mem := by
  unfold State.applyTill
  dsimp only
  (repeat' split) <;> simp

@[simp] theorem State.queueTill_mem (s : State) (src : TillSource) (o : TillOp) : (s.queueTill src o).mem = s.mem := rfl

@[simp] theorem State.applyPosted_mem (s : State) (t : Nat) (d : BitVec 2) : (s.applyPosted t d).mem = s.mem := by
  unfold State.applyPosted
  dsimp only
  (repeat' split) <;> simp

@[simp] theorem State.applyQueued_mem (s : State) (src : TillSource) (d : BitVec 2) :
    (s.applyQueued src d).mem = s.mem := by
  unfold State.applyQueued
  dsimp only
  split <;> simp

@[simp] theorem State.skipTail_mem (s : State) (c : Nat) (n : Nat) (tid : Option (BitVec 32)) :
    (s.skipTail c n tid).mem = s.mem := by
  unfold State.skipTail
  dsimp only
  (repeat' split) <;> simp

@[simp] theorem State.spend_mem (s : State) (c n : Nat) : (s.spend c n).1.mem = s.mem := rfl

@[simp] theorem State.sendMessage_mem (s : State) (c : Nat) (m : Message) (tid : Option (BitVec 32)) :
    (s.sendMessage c m tid).mem = s.mem := by
  unfold State.sendMessage
  dsimp only
  (repeat' split) <;> simp

@[simp] theorem State.readUnits_mem (s : State) (e : Line) (us : List Nat) : (s.readUnits e us).1.mem = s.mem := by
  induction us generalizing s with
  | nil => rfl
  | cons u us ih =>
    unfold State.readUnits
    split
    · rfl
    · split
      · simp [State.mem_of_eq ‹s.dramRead _ _ _ = _›]
      · split <;> simp [State.mem_of_eq ‹State.readUnits _ e us = _›, ih, State.mem_of_eq ‹s.dramRead _ _ _ = _›]

@[simp] theorem State.unspill_mem (s : State) (e : Line) (m : Spilled) : (s.unspill e m).1.mem = s.mem := by
  unfold State.unspill
  split <;> simp [State.mem_of_eq ‹s.readUnits _ _ = _›]

@[simp] theorem State.splitMcast_mem (s : State) (tree : Nat) (input : Option (BitVec 5)) (back : Nat) (p : Packet) :
    (s.splitMcast tree input back p).mem = s.mem := by
  unfold State.splitMcast
  rw [State.drainOut_mem]
  exact foldl_mem (fun s k => by simp) _ _

@[simp] theorem State.ownMcast_mem (s : State) (tree : Nat) (p : Packet) : (s.ownMcast tree p).mem = s.mem := by
  unfold State.ownMcast
  split <;> rfl

@[simp] theorem State.readyMembers_mem (s : State) (c : Nat) (n : Nat) (members : List (Nat × Nat)) :
    (s.readyMembers c n members).1.mem = s.mem := by
  induction members generalizing s with
  | nil => rfl
  | cons m rest ih =>
    unfold State.readyMembers
    dsimp only
    split
    · exact ih s
    · split <;> simp [ih]

@[simp] theorem State.departRing_mem (s : State) (c : Nat) : (s.departRing c).mem = s.mem := by
  unfold State.departRing
  split
  · rfl
  · split
    · rfl
    · extract_lets s1
      have h1 : s1.mem = s.mem := by
        unfold s1
        split <;> simp
      clear_value s1
      split
      · exact h1
      · split <;> simp [State.mem_of_eq ‹s1.unspill _ _ = _›, h1]

/-! ## Sys2Proof/Machine/Fetch.lean -/

@[simp] theorem State.setDesc_mem (s : State) (f n : Nat) (x : DescDyn) : (s.setDesc f n x).mem = s.mem := rfl
@[simp] theorem State.modDesc_mem (s : State) (f n : Nat) (g : DescDyn → DescDyn) : (s.modDesc f n g).mem = s.mem := rfl

@[simp] theorem State.descError_mem (s : State) (f n : Nat) (i : Option (BitVec 25)) (addr : Nat) (cause : Nat) :
    (s.descError f n i addr cause).mem = s.mem :=
  rfl

@[simp] theorem State.settleDesc_mem (s : State) (f n : Nat) : (s.settleDesc f n).mem = s.mem := by
  simp [State.settleDesc, apply_ite State.mem]

@[simp] theorem State.farmReaches_mem (s : State) (f n t : Nat) (c : Scc) (spec : Bool) :
    (s.farmReaches f n t c spec).mem = s.mem := by
  simp [State.farmReaches, apply_ite State.mem]

@[simp] theorem State.sliceFail_mem (s : State) (f n : Nat) (i : BitVec 25) (cause : Nat) :
    (s.sliceFail f n i cause).mem = s.mem :=
  rfl

@[simp] theorem State.modBlock_mem (s : State) (f n : Nat) (i : BitVec 25) (g : Block → Block) :
    (s.modBlock f n i g).mem = s.mem :=
  rfl

@[simp] theorem State.writeBlock_mem (s : State) (f n t : Nat) (i : BitVec 25) (words : List Line) :
    (s.writeBlock f n t i words).mem = s.mem := by
  unfold State.writeBlock
  dsimp only
  (repeat' split) <;> simp [foldl_mem]

@[simp] theorem State.blockData_mem (s : State) (f n : Nat) (i : BitVec 25) (words : List Line) :
    (s.blockData f n i words).mem = s.mem := by
  unfold State.blockData
  dsimp only
  split <;> simp

@[simp] theorem State.issueLocal_mem (s : State) (f n : Nat) (i : BitVec 25) (a : Int) (size : Nat) :
    (s.issueLocal f n i a size).mem = s.mem := by
  unfold State.issueLocal
  dsimp only
  split
  · split
    · simp
    · split
      · split
        · simp
        · simp [foldl_mem]
      · split <;> simp [State.mem_of_eq ‹s.dramRead _ _ _ = _›]
  · simp

@[simp] theorem State.issueRemote_mem (s : State) (f n c : Nat) (i : BitVec 25) (a : Int) (size : Nat) :
    (s.issueRemote f n c i a size).mem = s.mem := by
  unfold State.issueRemote
  dsimp only
  (repeat' split) <;> simp

@[simp] theorem State.advanceHome_mem (s : State) (f n : Nat) (fuel : Nat) : (s.advanceHome f n fuel).mem = s.mem := by
  induction fuel generalizing s with
  | zero => rfl
  | succ fuel ih =>
    unfold State.advanceHome
    dsimp only
    split
    · rw [ih]
      split <;> simp
    · rfl

@[simp] theorem State.blockHome_mem (s : State) (f n : Nat) (i : BitVec 25) : (s.blockHome f n i).mem = s.mem := by
  simp [State.blockHome]

@[simp] theorem State.fillFq_mem (s : State) (f n : Nat) (b : Block) : (s.fillFq f n b).mem = s.mem := by
  simp [State.fillFq, apply_ite State.mem]

@[simp] theorem State.blockRefused_mem (s : State) (t f n : Nat) (i : BitVec 25) (cause : Nat) :
    (s.blockRefused t f n i cause).mem = s.mem := by
  simp [State.blockRefused]

@[simp] theorem State.fetchGranted_mem (s : State) (f n : Nat) (i : BitVec 25) (line : Nat) (read : Option Line) :
    (s.fetchGranted f n i line read).mem = s.mem :=
  rfl

@[simp] theorem State.commitFetch_mem (s : State) (t : Nat) : (s.commitFetch t).mem = s.mem := by
  refine foldl_mem (fun s y => ?_) _ _
  split
  · split <;> simp
  · rfl

@[simp] theorem State.discardFetch_mem (s : State) (t : Nat) : (s.discardFetch t).mem = s.mem := by
  refine foldl_mem (fun s y => ?_) _ _
  split
  · dsimp only
    split
    · rfl
    · split <;> simp
  · rfl

/-! ## Sys2Proof/Machine/Control.lean -/

@[simp] theorem State.modDrain_mem (s : State) (c : Scc) (g : Drain → Drain) : (s.modDrain c g).mem = s.mem := rfl

@[simp] theorem State.drainCheck_mem (s : State) (c : Scc) : (s.drainCheck c).mem = s.mem := by
  unfold State.drainCheck
  exact foldl_mem (fun _ _ => by split <;> simp) _ _

/-! ## Sys2Proof/Machine/Petty.lean -/

@[simp] theorem State.sampleReqs_mem (s : State) (t : Nat) : (s.sampleReqs t).mem = s.mem := by
  refine foldl_mem (fun s r => ?_) _ _
  dsimp only
  split
  · rfl
  · split <;> simp [apply_ite State.mem]

@[simp] theorem State.modPetty_mem (s : State) (t : Nat) (n : BitVec 32) (g : Petty → Petty) :
    (s.modPetty t n g).mem = s.mem := by
  simp [State.modPetty]

@[simp] theorem State.startWindow_mem (s : State) (t : Nat) (p : Petty) : (s.startWindow t p).mem = s.mem := by
  unfold State.startWindow
  dsimp only
  (repeat' split) <;> simp

@[simp] theorem State.startPost_mem (s : State) (t : Nat) (q : LatePost) : (s.startPost t q).mem = s.mem := by
  simp [State.startPost]

@[simp] theorem State.queuePost_mem (s : State) (t : Nat) (q : LatePost) : (s.queuePost t q).mem = s.mem := by
  unfold State.queuePost
  split <;> simp

@[simp] theorem State.startLate_mem (s : State) (t : Nat) : (s.startLate t).mem = s.mem := by
  simp [State.startLate, foldl_mem]

@[simp] theorem State.postRead_mem (s : State) (t : Nat) (r : ReqLine) (d : Line) : (s.postRead t r d).mem = s.mem := by
  simp [State.postRead, apply_ite State.mem]

@[simp] theorem State.pettyDone_mem (s : State) (t : Nat) (n : BitVec 32) (burned : Bool) :
    (s.pettyDone t n burned).mem = s.mem := by
  simp [State.pettyDone]

@[simp] theorem State.fillPq_mem (s : State) (t : Nat) (fuel : Nat) : (s.fillPq t fuel).mem = s.mem := by
  induction fuel generalizing s with
  | zero => rfl
  | succ fuel ih =>
    unfold State.fillPq
    split
    · dsimp only
      split
      · rfl
      · split <;> simp [ih]
    · rfl

@[simp] theorem State.localGet_mem (s : State) (p : Petty) : (s.localGet p).1.mem = s.mem := by
  unfold State.localGet
  split
  · split <;> simp [State.mem_of_eq ‹s.dramRead _ _ _ = _›]
  · rfl

@[simp] theorem State.getReplied_mem (s : State) (t : Nat) (n : BitVec 32) (bs : List Byte) :
    (s.getReplied t n bs).mem = s.mem := by
  simp [State.getReplied]

/-! ## Sys2Proof/Machine/Stream.lean -/

@[simp] theorem State.captureWord_mem (s : State) (t : Nat) (west : Bool) (track : Nat) (w : Word) :
    (s.captureWord t west track w).mem = s.mem := by
  simp [State.captureWord, apply_ite State.mem]

@[simp] theorem State.stepWord_mem (s : State) (t : Nat) (west : Bool) (track : Nat) (w : Word) :
    (s.stepWord t west track w).mem = s.mem := by
  unfold State.stepWord
  dsimp only
  (repeat' split) <;> simp

@[simp] theorem State.stepWords_mem (s : State) : s.stepWords.mem = s.mem := by
  refine (foldl_mem (fun s w => by simp) _ _).trans ?_
  exact foldl_mem (fun s x => by simp) _ _

@[simp] theorem State.passOutput_mem (s : State) (now : Scc) (x : Transit) : (s.passOutput now x).mem = s.mem := by
  unfold State.passOutput
  dsimp only
  (repeat' split) <;> simp

@[simp] theorem State.stepTransits_mem (s : State) : s.stepTransits.mem = s.mem := by
  simp [State.stepTransits, foldl_mem]

@[simp] theorem State.arrive_mem (s : State) (t : Nat) (west : Bool) (track : BitVec 6) :
    (s.arrive t west track).mem = s.mem := by
  unfold State.arrive
  dsimp only
  split <;> simp

@[simp] theorem State.judgeArrivals_mem (s : State) (t : Nat) (y : Tile) : (s.judgeArrivals t y).mem = s.mem := by
  unfold State.judgeArrivals
  exact foldl_mem (fun _ _ => by split <;> simp) _ _

/-! ## Sys2Proof/Machine/Escrow.lean -/

@[simp] theorem State.resolvePosts_mem (s : State) (t : Nat) (commit : Bool) :
    (s.resolvePosts t commit).mem = s.mem := by
  unfold State.resolvePosts
  exact foldl_mem (fun _ _ => by split <;> simp) _ _

@[simp] theorem State.burnWaiting_mem (s : State) (t : Nat) : (s.burnWaiting t).mem = s.mem := by
  unfold State.burnWaiting
  exact foldl_mem (fun _ _ => by split <;> simp) _ _

@[simp] theorem State.resolveMember_mem (s : State) (t : Nat) : (s.resolveMember t).mem = s.mem := by
  unfold State.resolveMember
  dsimp only
  split <;> simp

@[simp] theorem State.undoIssue_mem (s : State) (t : Nat) : (s.undoIssue t).mem = s.mem := by
  unfold State.undoIssue
  split <;> rfl

@[simp] theorem State.disagree_mem (s : State) (eres : Bool) (t : Nat) : (s.disagree eres t).mem = s.mem := by
  unfold State.disagree
  dsimp only
  (repeat' split) <;> simp [foldl_mem]

@[simp] theorem State.checkGroups_mem (s : State) : s.checkGroups.mem = s.mem := by simp [State.checkGroups, foldl_mem]

@[simp] theorem State.resolveGroups_mem (s : State) : s.resolveGroups.mem = s.mem := by
  refine (foldl_mem (fun s t => ?_) _ _).trans ?_
  · dsimp only
    split <;> simp
  · exact foldl_mem (fun s t => by simp) _ _

/-! ## Sys2Proof/Machine/Gleaner.lean -/

@[simp] theorem State.scriptFault_mem (s : State) (k : Nat) (p : Post) (pc : Nat) (f : ScriptFault) :
    (s.scriptFault k p pc f).mem = s.mem :=
  rfl

@[simp] theorem State.script_mem (s : State) (k : BitVec 4) (post : BitVec 32) (item : BitVec 20) (o : ScriptOp)
    (n : Needs) (body : Post → Thread → Except ScriptFault Thread) : (s.script k post item o n body).mem = s.mem := by
  unfold State.script
  dsimp only
  (repeat' split) <;> simp

@[simp] theorem State.pushFq_mem (s : State) (k : Nat) (p : Post) (ws : List Line) : (s.pushFq k p ws).mem = s.mem := by
  simp [State.pushFq]

@[simp] theorem State.postDone_mem (s : State) (k : Nat) (p : Post) : (s.postDone k p).mem = s.mem := by
  simp [State.postDone]

/-! ## Sys2Proof/Machine/Bundle.lean -/

/-- Every script opcode has a meaning as a script instruction. -/
theorem scriptCommand_runs {op : Nat} {f : BitVec 4 → BitVec 32 → BitVec 20 → ScriptOp → State → Answer}
    (hf : scriptCommand op = some f) (k : BitVec 4) (n : BitVec 32) (i : BitVec 20) (o : ScriptOp) (s : State) :
    ∃ needs body, f k n i o s = .next (s.script k n i o needs body) := by
  unfold scriptCommand at hf
  split at hf <;> cases hf <;> exact ⟨_, _, rfl⟩

@[simp] theorem State.runThread_mem (s : State) (k : Nat) (p : Post) (item : Nat) (t : Thread) :
    (s.runThread k p item t).mem = s.mem := by
  unfold State.runThread
  dsimp only
  split
  · rfl
  · split
    · next hf =>
      obtain ⟨needs, body, hrun⟩ := scriptCommand_runs hf (BitVec.ofNat 4 k) p.number (BitVec.ofNat 20 item)
        (scriptFields (Sparse.get 0 (s.stack k).script t.pc)) s
      rw [hrun]
      simp
    · split <;> simp

@[simp] theorem State.runScripts_mem (s : State) : s.runScripts.mem = s.mem := by
  refine foldl_mem (fun s k => foldl_mem (fun s p => foldl_mem (fun s t => ?_) _ _) _ _) _ _
  split <;> simp

/-! ## Sys2Proof/Machine/Links.lean -/

@[simp] theorem State.linkTally_mem (s : State) (k : Nat) (event : BitVec 8) : (s.linkTally k event).mem = s.mem := by
  simp [State.linkTally]

@[simp] theorem State.linkComesUp_mem (s : State) (k : Nat) : (s.linkComesUp k).mem = s.mem := by
  simp [State.linkComesUp]

@[simp] theorem State.linkTrains_mem (s : State) (k : Nat) (st : BitVec 3) : (s.linkTrains k st).mem = s.mem := rfl
@[simp] theorem State.linkReady_mem (s : State) (k : Nat) : (s.linkReady k).mem = s.mem := rfl
@[simp] theorem State.resend_mem (s : State) (k : Nat) : (s.resend k).mem = s.mem := by simp [State.resend, foldl_mem]

@[simp] theorem State.takeFlit_mem (s : State) (n : Nat) (x : Flit) : (s.takeFlit n x).1.mem = s.mem := by
  unfold State.takeFlit
  dsimp only
  (repeat' split) <;> simp

@[simp] theorem State.reroute_mem (s : State) (k : Nat) : (s.reroute k).mem = s.mem := rfl

@[simp] theorem State.askAbout_mem (s : State) (ps : List (PacketType × Packet)) : (s.askAbout ps).1.mem = s.mem :=
  foldl_mem (fun s c => by simp) _ _

@[simp] theorem State.linkFails_mem (s : State) (k : Nat) (st : BitVec 3) : (s.linkFails k st).mem = s.mem := by
  simp [State.linkFails]

@[simp] theorem State.linkRestarts_mem (s : State) (k : Nat) : (s.linkRestarts k).mem = s.mem := rfl

@[simp] theorem State.reconciled_mem (s : State) (src : BitVec 12) (chan : BitVec 16) :
    (s.reconciled src chan).mem = s.mem := by
  refine foldl_mem (fun s l => ?_) _ _
  dsimp only
  split
  · split <;> simp
  · rfl

@[simp] theorem State.took_mem (s : State) (k : Nat) (ty : PacketType) (p : Packet) : (s.took k ty p).mem = s.mem := by
  simp [State.took]

@[simp] theorem State.refuse_mem (s : State) (dst : BitVec 12) (chan : BitVec 14) (tid : BitVec 32) (which : Nat)
    (cause : BitVec 8) (coins : Nat) : (s.refuse dst chan tid which cause coins).mem = s.mem := by
  simp [State.refuse]

@[simp] theorem State.hopLimit_mem (s : State) (ty : PacketType) (p : Packet) : (s.hopLimit ty p).mem = s.mem := by
  unfold State.hopLimit
  split
  · exact foldl_mem (fun s m => by simp) _ _
  · split <;> simp

@[simp] theorem State.forward_mem (s : State) (n : Nat) (ty : PacketType) (p : Packet) :
    (s.forward n ty p).mem = s.mem := by
  unfold State.forward
  split <;> simp

/-! ## Sys2Proof/Machine/Packets.lean -/

@[simp] theorem State.modPart_mem (s : State) (w : Flow) (g : Partial → Partial) : (s.modPart w g).mem = s.mem := rfl

@[simp] theorem State.openPart_mem (s : State) (w : Flow) : (s.openPart w).mem = s.mem := by
  unfold State.openPart
  dsimp only
  split <;> simp

@[simp] theorem State.acknowledge_mem (s : State) (w : Flow) : (s.acknowledge w).mem = s.mem := by
  simp [State.acknowledge]

@[simp] theorem State.refuseFlow_mem (s : State) (w : Flow) (cause : BitVec 8) (coins : Nat) :
    (s.refuseFlow w cause coins).mem = s.mem := by
  simp [State.refuseFlow]

@[simp] theorem State.reply_mem (s : State) (w : Flow) (a : Nat) (bs : List Byte) : (s.reply w a bs).mem = s.mem := by
  unfold State.reply
  refine (foldl_mem (fun s p => by simp) _ _).trans ?_
  simp

@[simp] theorem State.dropRead_mem (s : State) (w : Flow) : (s.dropRead w).mem = s.mem := rfl
@[simp] theorem State.landed_mem (s : State) (x : RingPlace) : (s.landed x).mem = s.mem := rfl
@[simp] theorem State.ringRefused_mem (s : State) (x : RingPlace) : (s.ringRefused x).mem = s.mem := rfl

@[simp] theorem State.finishPart_mem (s : State) (w : Flow) : (s.finishPart w).mem = s.mem := by
  unfold State.finishPart
  (repeat' split) <;> simp

@[simp] theorem State.notePacket_mem (s : State) (w : Flow) (p : Packet) (cause : Option (BitVec 8)) (waits : Nat)
    (total : Option Nat) (ring : Option RingPlace) : (s.notePacket w p cause waits total ring).mem = s.mem := by
  simp [State.notePacket]

theorem State.once_mem (s : State) (w : Flow) (p : Packet) {f : State → State} (hf : ∀ s, (f s).mem = s.mem) :
    (s.once w p f).mem = s.mem := by
  unfold State.once
  split
  · rfl
  · split
    · simp
    · dsimp only
      split <;> simp [hf]

@[simp] theorem State.takeReadReq_mem (s : State) (p : Packet) : (s.takeReadReq p).mem = s.mem := by
  refine State.once_mem s _ p fun s => ?_
  split
  · split
    · simp
    · split <;> simp [State.mem_of_eq ‹s.dramRead _ _ _ = _›]
  · dsimp only
    split
    · simp
    · split
      · simp
      · simp [foldl_mem]
  · simp

@[simp] theorem State.takeReadReply_mem (s : State) (p : Packet) : (s.takeReadReply p).mem = s.mem := by
  unfold State.takeReadReply
  dsimp only
  (repeat' split) <;> simp

@[simp] theorem State.passMcast_mem (s : State) (k : Nat) (tree : Nat) (whole p : Packet) :
    (s.passMcast k tree whole p).mem = s.mem := by
  simp [State.passMcast, apply_ite State.mem]

@[simp] theorem State.applySignal_mem (s : State) (w : Flow) : (s.applySignal w).mem = s.mem := by
  unfold State.applySignal
  split
  · split
    · split
      · dsimp only
        split <;> simp
      · rfl
    · rfl
  · rfl

@[simp] theorem State.takeSignal_mem (s : State) (p : Packet) : (s.takeSignal p).mem = s.mem :=
  State.once_mem s _ p fun s => by simp

@[simp] theorem State.copyDone_mem (s : State) (t : Nat) (n : BitVec 32) : (s.copyDone t n).mem = s.mem := by
  unfold State.copyDone
  split
  · rfl
  · split <;> simp

@[simp] theorem State.transferDone_mem (s : State) (c : Nat) (tr : Transfer) : (s.transferDone c tr).mem = s.mem := by
  unfold State.transferDone
  dsimp only
  (repeat' split) <;> simp

theorem State.copyOf_mem {s s' : State} {c : Nat} {tr : Transfer} {p : Packet} (h : s.copyOf c tr p = some s') :
    s'.mem = s.mem := by
  unfold State.copyOf at h
  split at h
  · cases h; rfl
  · dsimp only at h
    split at h
    · cases h
    · cases h; simp

@[simp] theorem State.takeAck_mem (s : State) (p : Packet) : (s.takeAck p).mem = s.mem := by
  unfold State.takeAck
  dsimp only
  split
  · rfl
  · split
    · rfl
    · split
      · simp
      · split
        · next h => simp [State.copyOf_mem h]
        · rfl

@[simp] theorem State.giveCoins_mem (s : State) (c n : Nat) : (s.giveCoins c n).mem = s.mem := rfl
@[simp] theorem State.routeFails_mem (s : State) (c : Nat) : (s.routeFails c).mem = s.mem := rfl

@[simp] theorem State.returnRefused_mem (s : State) (dst : BitVec 12) (p : Packet) :
    (s.returnRefused dst p).mem = s.mem := by
  unfold State.returnRefused
  dsimp only
  (repeat' split) <;> simp

@[simp] theorem State.refused_mem (s : State) (c : Nat) (tr : Transfer) (cause : Nat) (ring : Bool) :
    (s.refused c tr cause ring).mem = s.mem := by
  unfold State.refused
  dsimp only
  (repeat' split) <;> simp

@[simp] theorem State.answerRefused_mem (s : State) (p : Packet) : (s.answerRefused p).mem = s.mem := by
  simp [State.answerRefused, apply_ite State.mem]

@[simp] theorem State.takeRefuse_mem (s : State) (p : Packet) : (s.takeRefuse p).mem = s.mem := by
  unfold State.takeRefuse
  dsimp only
  split
  · simp
  · split
    · split <;> simp
    · split
      · split <;> split <;> simp
      · split
        · split <;> split <;> simp
        · next h => simp [State.copyOf_mem h, apply_ite State.mem]

@[simp] theorem State.applyReturns_mem (s : State) (link : Option Nat) (c : Nat) (fuel : Nat) :
    (s.applyReturns link c fuel).mem = s.mem := by
  induction fuel generalizing s with
  | zero => rfl
  | succ fuel ih =>
    unfold State.applyReturns
    dsimp only
    split
    · rfl
    · split <;> simp [ih]

@[simp] theorem State.takeReturn_mem (s : State) (link : Option Nat) (p : Packet) :
    (s.takeReturn link p).mem = s.mem := by
  simp [State.takeReturn, apply_ite State.mem]

@[simp] theorem State.joinControl_mem (s : State) (link : Option Nat) (p : Packet) :
    (s.joinControl link p).mem = s.mem := by
  unfold State.joinControl
  dsimp only
  (repeat' split) <;> simp

@[simp] theorem State.modArrival_mem (s : State) (die : BitVec 2) (index : BitVec 10) (pos : BitVec 24)
    (g : Arrived → Arrived) : (s.modArrival die index pos g).mem = s.mem :=
  rfl

@[simp] theorem State.accessRefused_mem (s : State) (t : Nat) (r : URequest) : (s.accessRefused t r).mem = s.mem := by
  obtain ⟨agent, age, line, data, gen, spec, owner⟩ := r
  cases owner <;> simp [State.accessRefused, UOwner.flow]

@[simp] theorem State.accessWritten_mem (s : State) (r : URequest) : (s.accessWritten r).mem = s.mem := by
  obtain ⟨agent, age, line, data, gen, spec, owner⟩ := r
  cases owner <;> simp [State.accessWritten, UOwner.flow]

@[simp] theorem State.lineRead_mem (s : State) (t : Nat) (r : URequest) (v : Line) :
    (s.lineRead t r v).mem = s.mem := by
  obtain ⟨agent, age, line, data, gen, spec, owner⟩ := r
  cases owner <;> simp [State.lineRead, UOwner.flow]

@[simp] theorem State.lineBad_mem (s : State) (t : Nat) (r : URequest) : (s.lineBad t r).mem = s.mem := by
  obtain ⟨agent, age, line, data, gen, spec, owner⟩ := r
  cases owner <;> simp [State.lineBad, UOwner.flow]

@[simp] theorem State.grantedRead_mem (s : State) (t : Nat) (r : URequest) : (s.grantedRead t r).mem = s.mem := by
  simp [State.grantedRead, apply_ite State.mem]

@[simp] theorem State.stewardBytes_mem (s : State) (t a : Nat) (bs : List Byte) :
    (s.stewardBytes t a bs).mem = s.mem := by
  simp [State.stewardBytes, foldl_mem]

/-! ## Sys2Proof/Machine/Ledger.lean -/

@[simp] theorem State.measure_mem (s : State) (kind : BitVec 8) (d : BitVec 256) : (s.measure kind d).mem = s.mem := rfl
@[simp] theorem State.closeSessions_mem (s : State) (p : Session → Bool) : (s.closeSessions p).mem = s.mem := rfl

@[simp] theorem State.sendOut_mem (s : State) (port : Bool) (sub : BitVec 2) (dscp : BitVec 6) (o : Output) :
    (s.sendOut port sub dscp o).mem = s.mem := by
  simp [State.sendOut, apply_ite State.mem]

@[simp] theorem State.spendPn_mem (s : State) (n : BitVec 32) : (s.spendPn n).mem = s.mem := by
  unfold State.spendPn
  dsimp only
  (repeat' split) <;> simp

@[simp] theorem State.sendMessage1_mem (s : State) (n : BitVec 32) (mtype status seg : BitVec 8)
    (reqid lseq ltime : BitVec 64) (dscp : BitVec 6) (data : List Byte) :
    (s.sendMessage1 n mtype status seg reqid lseq ltime dscp data).mem = s.mem := by
  unfold State.sendMessage1
  split <;> simp

@[simp] theorem State.sendStatus_mem (s : State) (n : BitVec 32) (dscp : BitVec 6) (reqid : BitVec 64) (st : BitVec 8) :
    (s.sendStatus n dscp reqid st).mem = s.mem := by
  unfold State.sendStatus
  split <;> simp

@[simp] theorem State.storedReply_mem (s : State) (r : Receipt) : (s.storedReply r).1.mem = s.mem := by
  unfold State.storedReply
  split
  · rfl
  · split <;> simp [State.mem_of_eq ‹s.readDram _ _ = _›]

@[simp] theorem State.floor_mem (s : State) (client : Nat) : (s.floor client).1.mem = s.mem := by
  unfold State.floor
  split
  · rfl
  · split <;> simp [State.mem_of_eq ‹s.readDram _ _ = _›]

@[simp] theorem State.sendReply_mem (s : State) (mtype : BitVec 8) (r : Receipt) (data : List Byte) :
    (s.sendReply mtype r data).mem = s.mem := by
  unfold State.sendReply
  dsimp only
  split <;> simp [foldl_mem]

@[simp] theorem State.exportItem_mem (s : State) (n : BitVec 32) (item part parts count : Nat) (content : List Byte) :
    (s.exportItem n item part parts count content).mem = s.mem := by
  simp [State.exportItem]

@[simp] theorem State.appendWith_mem (s : State) (d : RecordDraft) (imd : BitVec 192) :
    (s.appendWith d imd).mem = s.mem := by
  unfold State.appendWith
  dsimp only
  split <;> simp [foldl_mem]

@[simp] theorem State.append_mem (s : State) (d : RecordDraft) : (s.append d).mem = s.mem := by
  unfold State.append
  split <;> simp

@[simp] theorem State.sealNow_mem (s : State) : s.sealNow.mem = s.mem := by simp [State.sealNow, apply_ite State.mem]

@[simp] theorem State.exportSeal_mem (s : State) (n : BitVec 32) (sl : List Byte) :
    (s.exportSeal n sl).mem = s.mem := by
  simp [State.exportSeal, foldl_mem]

@[simp] theorem State.flushAppends_mem (s : State) (drafts : List RecordDraft) :
    (s.flushAppends drafts).mem = s.mem := by
  induction drafts generalizing s with
  | nil => rfl
  | cons d ds ih =>
    unfold State.flushAppends
    split
    · rfl
    · simp [ih]

@[simp] theorem State.sealDone_mem (s : State) : s.sealDone.mem = s.mem := by
  unfold State.sealDone
  split
  · rfl
  · extract_lets sl v signed counted exported told v' resealed
    have he : exported.mem = s.mem := by
      unfold exported
      rw [foldl_mem fun s u => by split <;> simp, State.count_mem]
    have ht : told.mem = s.mem := by
      unfold told
      split <;> simp [he]
    rw [State.flushAppends_mem]
    unfold resealed
    split <;> simp [ht]

@[simp] theorem State.startEpoch_mem (s : State) : s.startEpoch.mem = s.mem := by simp [State.startEpoch]

/-! ## Sys2Proof/Machine/Cycle.lean -/

@[simp] theorem State.windowDrives_mem (s : State) : s.windowDrives.mem = s.mem := by
  unfold State.windowDrives
  refine foldl_mem (fun s x => ?_) _ _
  split
  · split <;> simp
  · rfl

@[simp] theorem State.settleDrain_mem (s : State) : s.settleDrain.mem = s.mem := by
  unfold State.settleDrain
  dsimp only
  (repeat' split) <;> simp

@[simp] theorem State.checkDrainers_mem (s : State) : s.checkDrainers.mem = s.mem := by
  unfold State.checkDrainers
  refine foldl_mem (fun s d => ?_) _ _
  dsimp only
  split <;> split <;> simp

@[simp] theorem State.checkRunOff_mem (s : State) : s.checkRunOff.mem = s.mem := by simp [State.checkRunOff, foldl_mem]

@[simp] theorem State.haltAll_mem (s : State) (t : Nat) (fs : List (BitVec 11 × Failure)) :
    (s.haltAll t fs).mem = s.mem := by
  simp [State.haltAll, foldl_mem]

@[simp] theorem State.settleTile_mem (s : State) (t : Nat) : (s.settleTile t).mem = s.mem := by
  unfold State.settleTile
  dsimp only
  split <;> simp

@[simp] theorem State.countPortWaits_mem (s : State) : s.countPortWaits.mem = s.mem := by
  unfold State.countPortWaits
  exact foldl_mem (fun _ _ => by dsimp only; split <;> simp) _ _

@[simp] theorem State.endCycle_mem (s : State) : s.endCycle.mem = s.mem := by
  unfold State.endCycle
  dsimp only
  rw [State.stepWords_mem, foldl_mem fun s x => State.setTile_mem _ _ _, State.resolveGroups_mem,
    State.checkDrainers_mem,
    foldl_mem State.settleTile_mem, foldl_mem fun s t => State.judgeArrivals_mem _ _ _, State.checkGroups_mem,
    State.settleDrain_mem, State.checkRunOff_mem]

@[simp] theorem State.raiseLate_mem (s : State) (t : Nat) : (s.raiseLate t).mem = s.mem := by
  unfold State.raiseLate
  dsimp only
  split <;> simp

@[simp] theorem State.beginWakes_mem (s : State) : s.beginWakes.mem = s.mem := by
  unfold State.beginWakes
  split
  · rfl
  · refine foldl_mem (fun s x => ?_) _ _
    dsimp only
    split <;> simp

@[simp] theorem State.forgetDrains_mem (s : State) : s.forgetDrains.mem = s.mem := by
  unfold State.forgetDrains
  dsimp only
  split <;> simp

@[simp] theorem State.beginCycle_mem (s : State) : s.beginCycle.mem = s.mem := by
  unfold State.beginCycle
  dsimp only
  rw [State.forgetDrains_mem, State.beginWakes_mem, foldl_mem fun s t => by simp, State.stepTransits_mem]

@[simp] theorem State.sendSignal_mem (s : State) (p : Posted) : (s.sendSignal p).mem = s.mem := by
  unfold State.sendSignal
  split
  · dsimp only
    split
    · rfl
    · split <;> simp
  · rfl

@[simp] theorem State.sendSignals_mem (s : State) (t : Nat) : (s.sendSignals t).mem = s.mem := by
  unfold State.sendSignals
  dsimp only
  rw [foldl_mem fun s o => State.sendSignal_mem _ _, State.modTile_mem]

@[simp] theorem State.watchHold_mem (s : State) : s.watchHold.mem = s.mem := by
  unfold State.watchHold
  dsimp only
  (repeat' split) <;> simp [foldl_mem]

@[simp] theorem State.countTime_mem (s : State) (ns us : Nat) : (s.countTime ns us).mem = s.mem := by
  unfold State.countTime
  extract_lets held hs s1 s2
  have h1 : s1.mem = s.mem := by
    unfold s1
    split
    · rfl
    · exact foldl_mem (fun s n => by dsimp only; split <;> simp) _ s
  have h2 : s2.mem = s.mem := by
    unfold s2
    split <;> simp [h1]
  split
  · exact h2
  · refine (foldl_mem (fun s k => ?_) _ _).trans h2
    dsimp only
    split <;> split <;> simp

@[simp] theorem State.passTime_mem (s : State) (u : Nat) : (s.passTime u).mem = s.mem := by
  unfold State.passTime
  dsimp only
  split <;> simp

@[simp] theorem State.repayDebt_mem (s : State) : s.repayDebt.mem = s.mem := by
  unfold State.repayDebt
  split <;> rfl

/-! ## Sys2Proof/Machine/Blocks.lean -/

@[simp] theorem State.putIo0_mem (s : State) (off : Nat) (v : BitVec 32) : (s.putIo0 off v).mem = s.mem := by
  simp [State.putIo0, apply_ite State.mem]

@[simp] theorem State.putReg_mem (s : State) (b : RegBlock) (off : Nat) (v : BitVec 32) :
    (s.putReg b off v).mem = s.mem := by
  unfold State.putReg
  split
  · simp
  · simp
  · simp
  · simp
  · split <;> simp

@[simp] theorem State.mapChannel_mem (s : State) (c : Nat) : (s.mapChannel c).mem = s.mem := by
  unfold State.mapChannel
  exact foldl_mem (fun _ _ => by simp) _ _

@[simp] theorem State.mapChannels_mem (s : State) : s.mapChannels.mem = s.mem := by
  unfold State.mapChannels
  exact foldl_mem (fun _ _ => by simp) _ _

/-! ## Sys2Proof/Machine/House.lean -/

@[simp] theorem State.dropFrame_mem (s : State) (port : Bool) (sub : BitVec 2) :
    (s.dropFrame port sub).mem = s.mem := by
  simp [State.dropFrame]

@[simp] theorem State.bufferFrame_mem (s : State) (port : Bool) (sub : BitVec 2) (n : Nat) :
    (s.bufferFrame port sub n).mem = s.mem := by
  simp [State.bufferFrame, apply_ite State.mem]

@[simp] theorem State.answerFrame_mem (s : State) (port : Bool) (sub : BitVec 2) (k : FrameKind) :
    (s.answerFrame port sub k).mem = s.mem := by
  simp [State.answerFrame, apply_ite State.mem]

@[simp] theorem State.releaseTx_mem (s : State) (port : Bool) (sub : BitVec 2) :
    (s.releaseTx port sub).mem = s.mem := by
  unfold State.releaseTx
  dsimp only
  split
  · rw [foldl_mem fun s e => State.emit_mem _ _, State.setSub_mem]
  · rfl

@[simp] theorem State.drainSub_mem (s : State) (port : Bool) (sub : BitVec 2) : (s.drainSub port sub).mem = s.mem := by
  simp [State.drainSub, apply_ite State.mem]

@[simp] theorem State.readPtp_mem (s : State) : s.readPtp.mem = s.mem := by
  unfold State.readPtp
  split
  · rfl
  · rw [foldl_mem fun s q => foldl_mem (fun s t => State.emit_mem _ _) _ _]

@[simp] theorem State.drainPorts_mem (s : State) : s.drainPorts.mem = s.mem := by
  unfold State.drainPorts
  rw [State.readPtp_mem, foldl_mem fun s p => by simp]

@[simp] theorem State.applyPatch_mem (s : State) (source : Nat) (bs : List Byte)
    (es : List (Nat × Nat × BitVec 32 × Nat)) : (s.applyPatch source bs es).mem = s.mem := by
  simp [State.applyPatch, foldl_mem]

@[simp] theorem State.patchPart_mem (s : State) (source : Nat) (x : PatchPart) :
    (s.patchPart source x).1.mem = s.mem := by
  unfold State.patchPart
  dsimp only
  (repeat' split) <;> simp

@[simp] theorem State.sendHandshake_mem (s : State) (type : BitVec 8) (x : InitMsg) (session : BitVec 32)
    (body : List Byte) : (s.sendHandshake type x session body).mem = s.mem := by
  simp [State.sendHandshake, foldl_mem]

@[simp] theorem State.sendReject_mem (s : State) (port : Bool) (sub : BitVec 2) (session : BitVec 32)
    (exchange : BitVec 64) (status : BitVec 8) : (s.sendReject port sub session exchange status).mem = s.mem := by
  simp [State.sendReject]

@[simp] theorem State.freeSlow_mem (s : State) (session : BitVec 32) : (s.freeSlow session).mem = s.mem := by
  simp [State.freeSlow]

@[simp] theorem State.hear_mem (s : State) (x : Session) (d : Datagram) : (s.hear x d).1.mem = s.mem := by
  unfold State.hear
  split
  · rfl
  · split <;> simp

@[simp] theorem State.openSealed_mem (s : State) (h : Sealed) : (s.openSealed h).1.mem = s.mem := by
  unfold State.openSealed
  split <;> simp

@[simp] theorem State.houseRead_mem (s : State) (a : Arrived) (addr n : Nat) :
    (s.houseRead a addr n).1.mem = s.mem := by
  unfold State.houseRead
  dsimp only
  (repeat' split) <;> simp [foldl_mem]

@[simp] theorem State.outboxError_mem (s : State) (cause : BitVec 4) : (s.outboxError cause).mem = s.mem := rfl

@[simp] theorem State.exportSealsOf_mem (s : State) (u : BitVec 32) (n : Nat) : (s.exportSealsOf u n).mem = s.mem := by
  unfold State.exportSealsOf
  exact foldl_mem (fun _ _ => by split <;> simp) _ _

@[simp] theorem State.exportRun_mem (s : State) (u : BitVec 32) (n : Nat) (m : Nat) (bs : List Byte) (fuel : Nat) :
    (s.exportRun u n m bs fuel).mem = s.mem := by
  induction fuel generalizing s n m bs with
  | zero =>
    unfold State.exportRun
    split <;> simp
  | succ k ih =>
    unfold State.exportRun
    dsimp only
    split
    · exact ih ..
    · split <;> simp [ih]

@[simp] theorem State.startExport_mem (s : State) (u : BitVec 32) (from_ : BitVec 64) :
    (s.startExport u from_).mem = s.mem := by
  simp [State.startExport, apply_ite State.mem]

/-! ## Sys2Proof/Machine/Resets.lean -/

@[simp] theorem State.burnInFlight_mem (s : State) : s.burnInFlight.mem = s.mem := by
  unfold State.burnInFlight
  exact foldl_mem (fun _ _ => by dsimp only; split <;> simp) _ _

@[simp] theorem State.measureBoot_mem (s : State) (n : Nat) : (s.measureBoot n).mem = s.mem := by
  simp [State.measureBoot]

@[simp] theorem State.trainLinks_mem (s : State) : s.trainLinks.mem = s.mem := by
  unfold State.trainLinks
  exact foldl_mem (fun _ _ => by simp) _ _

@[simp] theorem State.calibrate_mem (s : State) (o : BootOutcome) : (s.calibrate o).1.mem = s.mem := rfl
@[simp] theorem State.takeMargins_mem (s : State) (o : BootOutcome) (k : Nat) : (s.takeMargins o k).mem = s.mem := rfl

@[simp] theorem State.askWarm_mem (s : State) (why : BitVec 2) : (s.askWarm why).mem = s.mem := by
  unfold State.askWarm
  split <;> rfl

/-! ## Sys2Proof/Machine/Clocks.lean -/

@[simp] theorem State.relock_mem (s : State) (n : BitVec 3) : (s.relock n).mem = s.mem := by
  unfold State.relock
  split <;> simp

@[simp] theorem State.applyStep_mem (s : State) : s.applyStep.mem = s.mem := by
  unfold State.applyStep
  split <;> simp

@[simp] theorem State.refLost_mem (s : State) (domain : Nat) (guardFault : Bool) :
    (s.refLost domain guardFault).mem = s.mem := by
  simp [State.refLost]

@[simp] theorem State.abandonDrain_mem (s : State) : s.abandonDrain.mem = s.mem := rfl

@[simp] theorem State.lossIn_mem (s : State) (d : Nat) : (s.lossIn d).mem = s.mem := by
  unfold State.lossIn
  split
  · simp
  · split
    · split
      · split <;> simp
      · rfl
    · split
      · exact foldl_mem (fun s i => by simp) _ _
      · split
        · simp
        · split
          · simp
          · split
            · simp
            · split <;> rfl

@[simp] theorem State.followStep_mem (s : State) : s.followStep.mem = s.mem := by
  simp [State.followStep, apply_ite State.mem]

@[simp] theorem State.beaconAt_mem (s : State) (full : Bool) (d : Nat) : (s.beaconAt full d).mem = s.mem := rfl

/-! ## Sys2Proof/Machine/Plans.lean -/

@[simp] theorem State.tellAll_mem (s : State) (kind : BitVec 8) (data : List Byte) :
    (s.tellAll kind data).mem = s.mem := by
  unfold State.tellAll
  refine foldl_mem (fun s l => ?_) _ _
  split
  · rfl
  · split <;> simp

@[simp] theorem State.readPieces_mem (s : State) (a : Nat) (fuel : Nat) : (s.readPieces a fuel).1.mem = s.mem := by
  induction fuel generalizing s a with
  | zero => rfl
  | succ n ih =>
    unfold State.readPieces
    split
    · split
      · simp [State.mem_of_eq ‹s.dramRead _ _ _ = _›]
      · split <;> simp [State.mem_of_eq ‹State.readPieces _ _ n = _›, ih, State.mem_of_eq ‹s.dramRead _ _ _ = _›]
    · rfl

@[simp] theorem State.copyChannel_mem (s : State) (dev : BitVec 12) (base size : Nat) :
    (s.copyChannel dev base size).1.mem = s.mem := by
  unfold State.copyChannel
  split
  · rw [State.mapChannel_mem, State.modChan_mem]
  · split
    · rw [State.mapChannel_mem, State.modChan_mem]
    · rfl

@[simp] theorem State.sendPieces_mem (s : State) (c : Nat) (src dst : Nat) (fuel : Nat) :
    (s.sendPieces c src dst fuel).mem = s.mem := by
  induction fuel generalizing s src dst with
  | zero => rfl
  | succ n ih =>
    unfold State.sendPieces
    split <;> simp [ih, State.mem_of_eq ‹s.readPieces _ _ = _›]

@[simp] theorem State.setInterval_mem (s : State) : s.setInterval.mem = s.mem := by
  unfold State.setInterval
  dsimp only
  (repeat' split) <;> simp

@[simp] theorem State.startDrain_mem (s : State) (k : BitVec 64) : (s.startDrain k).mem = s.mem := rfl

@[simp] theorem State.commitHere_mem (s : State) (r : BitVec 64) (loss : BitVec 32) (snapshot : Bool) :
    (s.commitHere r loss snapshot).mem = s.mem := by
  unfold State.commitHere
  dsimp only
  (repeat' split) <;> simp

@[simp] theorem State.readLoss_mem (s : State) (p : Line) : (s.readLoss p).1.mem = s.mem := by
  unfold State.readLoss
  dsimp only
  (repeat' split) <;> simp

@[simp] theorem State.mismatch_mem (s : State) : s.mismatch.mem = s.mem := by simp [State.mismatch]

@[simp] theorem State.judge_mem (s : State) (p : Line) : (s.judge p).mem = s.mem := by
  unfold State.judge
  split
  · dsimp only
    split <;> simp [State.mem_of_eq ‹s.readLoss p = _›]
  · simp [State.mem_of_eq ‹s.readLoss p = _›]

@[simp] theorem State.tryCommit_mem (s : State) : s.tryCommit.mem = s.mem := by
  unfold State.tryCommit
  split
  · rfl
  · dsimp only
    split
    · rfl
    · split
      · split <;> simp
      · split
        · split <;> simp [State.mem_of_eq ‹s.readLoss _ = _›]
        · rfl

@[simp] theorem State.retryCommit_mem (s : State) : s.retryCommit.mem = s.mem := by
  unfold State.retryCommit
  split <;> simp

@[simp] theorem State.noteReport_mem (s : State) (l : BitVec 12) (step : BitVec 64) (copied ended : Bool) :
    (s.noteReport l step copied ended).mem = s.mem := by
  simp [State.noteReport]

@[simp] theorem State.report_mem (s : State) (step : BitVec 64) (copied ended : Bool) :
    (s.report step copied ended).mem = s.mem := by
  unfold State.report
  split
  · simp
  · split <;> simp

@[simp] theorem State.askSnapshot_mem (s : State) : s.askSnapshot.mem = s.mem := by
  unfold State.askSnapshot
  split
  · rfl
  · split <;> simp

@[simp] theorem State.replayEnded_mem (s : State) : s.replayEnded.mem = s.mem := by
  simp [State.replayEnded, apply_ite State.mem]

/-! ## Sys2Proof/Machine/Image.lean -/

@[simp] theorem State.clearListed_mem (s : State) : s.clearListed.mem = s.mem := rfl

/-! ## Sys2Proof/Machine/Messages.lean -/

@[simp] theorem State.proveLink_mem (s : State) (k : Nat) : (s.proveLink k).mem = s.mem := by
  unfold State.proveLink
  dsimp only
  split
  · split <;> simp
  · rfl

@[simp] theorem State.takeOver_mem (s : State) (logical : BitVec 12) (time : BitVec 64) :
    (s.takeOver logical time).mem = s.mem := by
  unfold State.takeOver
  split <;> simp

@[simp] theorem State.peerDies_mem (s : State) (phys logical : BitVec 12) (time : BitVec 64) :
    (s.peerDies phys logical time).mem = s.mem := by
  simp [State.peerDies, apply_ite State.mem]

@[simp] theorem State.answerPlan_mem (s : State) (ok : Bool) : (s.answerPlan ok).mem = s.mem := rfl

@[simp] theorem State.startVerify_mem (s : State) : s.startVerify.mem = s.mem := by
  unfold State.startVerify
  split <;> rfl

@[simp] theorem State.sendHalves_mem (s : State) : s.sendHalves.mem = s.mem := by
  unfold State.sendHalves
  dsimp only
  rw [foldl_mem, foldl_mem]
  · intro s c
    split
    · rfl
    · split <;> simp
  · intro s r
    split
    · rfl
    · split <;> simp

@[simp] theorem State.dropHalves_mem (s : State) : s.dropHalves.mem = s.mem := rfl

@[simp] theorem State.releaseCount_mem (s : State) : s.releaseCount.mem = s.mem := by
  unfold State.releaseCount
  dsimp only
  split <;> simp

@[simp] theorem State.endAnswered_mem (s : State) (src : BitVec 12) (chan : BitVec 14) (t : Transfer) :
    (s.endAnswered src chan t).mem = s.mem := by
  unfold State.endAnswered
  dsimp only
  split
  · rfl
  · split
    · split <;> simp
    · exact foldl_mem (fun s m => State.takeAck_mem _ _) _ _

@[simp] theorem State.dropAnswered_mem (s : State) (src : BitVec 12) (chan : BitVec 16) (first : BitVec 32)
    (done : BitVec 4096) : (s.dropAnswered src chan first done).mem = s.mem :=
  rfl

@[simp] theorem State.redraw_mem (s : State) (logical phys : BitVec 12) : (s.redraw logical phys).mem = s.mem := by
  simp [State.redraw]

@[simp] theorem State.refill_mem (s : State) (logical phys : BitVec 12) : (s.refill logical phys).mem = s.mem := by
  unfold State.refill
  split
  · dsimp only
    split
    · rfl
    · split <;> simp [State.mem_of_eq ‹State.copyChannel _ _ _ _ = _›]
  · rfl

@[simp] theorem State.setProgram_mem (s : State) (digest : BitVec 256) (img : Image) (logical : BitVec 12) :
    (s.setProgram digest img logical).mem = s.mem :=
  rfl

/-! ## Sys2Proof/Machine/Boxes.lean -/

@[simp] theorem State.sendFrame_mem (s : State) (y : Session) (o : Output) : (s.sendFrame y o).mem = s.mem := by
  simp [State.sendFrame]

@[simp] theorem State.replyFrame_mem (s : State) (mb : BitVec 4) (tag : BitVec 16) (cmd : BitVec 8) (r : Refused)
    (data : List Byte) : (s.replyFrame mb tag cmd r data).mem = s.mem := by
  unfold State.replyFrame
  split <;> simp

@[simp] theorem State.complete_mem (s : State) (mb : BitVec 4) (tag : BitVec 16) (cmd : BitVec 8) (r : Refused)
    (data : List Byte) : (s.complete mb tag cmd r data).mem = s.mem := by
  simp [State.complete]

@[simp] theorem State.busyReply_mem (s : State) (f : Frame) (cmd : BitVec 8) (op : LongOp) (p : BitVec 16) :
    (s.busyReply f cmd op p).mem = s.mem := by
  unfold State.busyReply
  split <;> simp

@[simp] theorem State.openFrame_mem (s : State) (f : Frame) : (s.openFrame f).1.mem = s.mem := by
  unfold State.openFrame
  split
  · rfl
  · split
    · rfl
    · split <;> simp [State.mem_of_eq ‹s.hear _ _ = _›]

@[simp] theorem State.latchTallies_mem (s : State) : s.latchTallies.mem = s.mem := by
  simp [State.latchTallies, foldl_mem]

@[simp] theorem State.staged_mem (s : State) (a n : Nat) : (s.staged a n).1.mem = s.mem := by simp [State.staged]

@[simp] theorem State.beginReplay_mem (s : State) : s.beginReplay.mem = s.mem := by
  unfold State.beginReplay
  dsimp only
  rw [foldl_mem fun s f => State.modField_mem _ _ _, foldl_mem fun s t => State.modTile_mem _ _ _]

@[simp] theorem State.answerSteps_mem (s : State) : s.answerSteps.mem = s.mem := by simp [State.answerSteps, foldl_mem]
@[simp] theorem State.measureFrame_mem (s : State) (data : List Byte) : (s.measureFrame data).mem = s.mem := rfl

@[simp] theorem State.configPort_mem (s : State) (port : Bool) (sub : BitVec 2) (cfg : BitVec 64) :
    (s.configPort port sub cfg).mem = s.mem := by
  unfold State.configPort
  exact foldl_mem (fun _ _ => by dsimp only; split <;> simp) _ _

@[simp] theorem State.askRing_mem (s : State) (dev : BitVec 12) (chan : Nat) (d i coins : Nat) :
    (s.askRing dev chan d i coins).mem = s.mem := by
  unfold State.askRing
  split <;> simp

@[simp] theorem State.openRing_mem (s : State) (d i : Nat) (entry : BitVec 256) : (s.openRing d i entry).mem = s.mem :=
  rfl

@[simp] theorem State.setByHand_mem (s : State) (n : BitVec 15) (v : BitVec 32) (session : BitVec 32)
    (client : BitVec 16) : (s.setByHand n v session client).mem = s.mem := by
  simp [State.setByHand]

/-! ## Sys2Proof/Machine/Trust.lean -/

@[simp] theorem State.nextGeneration_mem (s : State) : s.nextGeneration.mem = s.mem := rfl

@[simp] theorem State.enrolNewOwner_mem (s : State) (key : BitVec 15616) (osigA osigB : Option Signature) :
    (s.enrolNewOwner key osigA osigB).mem = s.mem := by
  simp [State.enrolNewOwner, apply_ite State.mem]

@[simp] theorem State.editEnrolment_mem (s : State) (g : Enrolment → Enrolment) : (s.editEnrolment g).mem = s.mem := rfl

@[simp] theorem State.updateDone_mem (s : State) (mb : BitVec 4) (x : FwSlot) : (s.updateDone mb x).mem = s.mem := by
  simp [State.updateDone]

@[simp] theorem State.zeroiseRecord_mem (s : State) : s.zeroiseRecord.mem = s.mem := by
  unfold State.zeroiseRecord
  dsimp only
  (repeat' split) <;> simp

/-! ## Sys2Proof/Machine/Survive.lean -/

@[simp] theorem State.noteTake_mem (s : State) (r : BitVec 1536) : (s.noteTake r).mem = s.mem := rfl

@[simp] theorem State.readTallies_mem (s : State) (time : BitVec 64) : (s.readTallies time).1.mem = s.mem := by
  unfold State.readTallies
  exact foldl_fst_mem (fun a u => State.setTally_mem _ _ _ _) _ _

@[simp] theorem State.loadDone_mem (s : State) (mb : BitVec 4) (digest req : BitVec 256) (logical : BitVec 12)
    (sections : List Section) (tiles : List Nat) : (s.loadDone mb digest req logical sections tiles).mem = s.mem := by
  simp [State.loadDone]

/-! ## Sys2Proof/Machine/Power.lean -/

@[simp] theorem State.smbRead_mem (s : State) (data : List Byte) : (s.smbRead data).mem = s.mem := by
  unfold State.smbRead
  split <;> rfl

@[simp] theorem State.sampleSensors_mem (s : State) : s.sampleSensors.mem = s.mem := rfl

@[simp] theorem State.noteReading_mem (s : State) (n : Nat) (r : BitVec 16) : (s.noteReading n r).mem = s.mem := by
  unfold State.noteReading
  split <;> rfl

@[simp] theorem State.tripped_mem (s : State) (n : BitVec 5) : (s.tripped n).mem = s.mem := by
  unfold State.tripped
  dsimp only
  rw [foldl_mem fun s k => State.modStack_mem _ _ _, State.abort_mem]

/-! ## Sys2Proof/Machine/Wire.lean -/

@[simp] theorem State.sendIdle_mem (s : State) : s.sendIdle.mem = s.mem := by
  unfold State.sendIdle
  exact foldl_mem (fun _ _ => by split <;> simp) _ _

/-! ## Sys2Proof/Machine/Registers.lean -/

@[simp] theorem State.clearOvf_mem (s : State) (u : TallyUnit) (n : Nat) (v : BitVec 32) :
    (s.clearOvf u n v).mem = s.mem := by
  unfold State.clearOvf
  split <;> simp

@[simp] theorem State.putTally_mem (s : State) (u : TallyUnit) (base off : Nat) (v : BitVec 32) :
    (s.putTally u base off v).mem = s.mem := by
  unfold State.putTally
  split <;> simp

@[simp] theorem State.putIsland_mem (s : State) (d : Nat) (v : BitVec 32) : (s.putIsland d v).mem = s.mem := rfl

@[simp] theorem State.writeField_mem (s : State) (f off : Nat) (v : BitVec 32) :
    (s.writeField f off v).mem = s.mem := by
  unfold State.writeField
  dsimp only
  (repeat' split) <;> simp only [State.modField_mem, State.putTally_mem, State.putReg_mem, State.putIsland_mem]

@[simp] theorem State.writeDie_mem (s : State) (d off : Nat) (v : BitVec 32) : (s.writeDie d off v).mem = s.mem := by
  unfold State.writeDie
  (repeat' split) <;> simp

@[simp] theorem State.writeStack_mem (s : State) (k off : Nat) (v : BitVec 32) :
    (s.writeStack k off v).mem = s.mem := by
  unfold State.writeStack
  dsimp only
  (repeat' split) <;> simp only [State.modStack_mem, State.putTally_mem, State.putReg_mem]

@[simp] theorem State.writeHeath_mem (s : State) (w : Writer) (off : Nat) (v : BitVec 32) :
    (s.writeHeath w off v).mem = s.mem := by
  simp [State.writeHeath, apply_ite State.mem]

@[simp] theorem State.writePorts_mem (s : State) (i off : Nat) (v : BitVec 32) :
    (s.writePorts i off v).mem = s.mem := by
  simp [State.writePorts, apply_ite State.mem]

@[simp] theorem State.writeIo0_mem (s : State) (w : Writer) (off : Nat) (v : BitVec 32) :
    (s.writeIo0 w off v).mem = s.mem := by
  unfold State.writeIo0
  (repeat' split) <;> simp

@[simp] theorem State.writeIo1_mem (s : State) (off : Nat) (v : BitVec 32) : (s.writeIo1 off v).mem = s.mem := by
  simp [State.writeIo1, apply_ite State.mem]

/-! ## Sys2Proof/Machine/Vector.lean -/

@[simp] theorem State.completeResults_mem (s : State) (t : Nat) (dst : BitVec 6) :
    (s.completeResults t dst).mem = s.mem := by
  simp [State.completeResults]

/-! ## Sys2Proof/Machine/Tick.lean -/

@[simp] theorem State.nextCycle_mem (s : State) : s.nextCycle.mem = s.mem := by
  unfold State.nextCycle
  dsimp only
  split <;> simp

@[simp] theorem State.refreshAlive_mem (s : State) : s.refreshAlive.mem = s.mem := by
  unfold State.refreshAlive
  split <;> rfl

end Sys2Proof.Machine
end

section
/-!
SUPPORT. What keeps the memory canonical: the operations that write bytes, in the order of the model's files, on top of
`Memory.wf_writeBytes` and its kin.
-/
namespace Sys2Proof.Machine

/-! ## Runs of changes, and what an operation gives back -/

/-- A run of changes that each keep the memory canonical keeps it so. -/
theorem foldl_wf {α : Type} {f : State → α → State} (hf : ∀ s a, s.mem.wf = true → (f s a).mem.wf = true)
    (l : List α) {s : State} (hs : s.mem.wf = true) : (l.foldl f s).mem.wf = true := by
  induction l generalizing s with
  | nil => exact hs
  | cons a l ih => exact ih (hf s a hs)

/-- The next state that an answer gives, if any, has a canonical memory. -/
def AnswerWf (a : Answer) : Prop := ∀ s, a = .next s → s.mem.wf = true

@[simp] theorem answerWf_next (s : State) : AnswerWf (.next s) ↔ s.mem.wf = true :=
  ⟨fun h => h s rfl, fun h _ e => by cases e; exact h⟩

/-- The state that an accepted command leaves, if any, has a canonical memory. -/
def ResultWf (r : Except Refused (State × Done)) : Prop := ∀ s d, r = .ok (s, d) → s.mem.wf = true

@[simp] theorem resultWf_ok (s : State) (d : Done) : ResultWf (.ok (s, d)) ↔ s.mem.wf = true :=
  ⟨fun h => h s d rfl, fun h _ _ e => by cases e; exact h⟩

@[simp] theorem resultWf_error (r : Refused) : ResultWf (.error r) := fun _ _ e => by cases e

@[simp] theorem resultWf_short (s : State) (data : List Byte) : ResultWf (short s data) ↔ s.mem.wf = true :=
  resultWf_ok s _

/-- A command that first computes a value has the result of what it does with that value. -/
@[simp] theorem resultWf_bind {α : Type} {x : Except Refused α} {k : α → Except Refused (State × Done)} :
    ResultWf (x >>= k) ↔ ∀ a, x = .ok a → ResultWf (k a) := by
  cases x with
  | error r => simp
  | ok a => simp

/-- The state in which a long operation ends, if it does, has a canonical memory. -/
def FinishWf (r : Option (State × Except Refused (List Byte))) : Prop := ∀ t e, r = some (t, e) → t.mem.wf = true

@[simp] theorem finishWf_none : FinishWf none := fun _ _ h => by cases h

@[simp] theorem finishWf_some (t : State) (e : Except Refused (List Byte)) :
    FinishWf (some (t, e)) ↔ t.mem.wf = true :=
  ⟨fun h => h t e rfl, fun h _ _ he => by cases he; exact h⟩

/-! ## Sys2Proof/Machine/Ops.lean -/

@[simp] theorem State.writeBytes_wf {s : State} (hs : s.mem.wf = true) (a : Nat) (bs : List Byte) :
    (s.writeBytes a bs).mem.wf = true := by
  unfold State.writeBytes
  dsimp only
  rw [State.eccWrite_mem]
  split
  · exact Memory.wf_writeBytes _ hs a
  · refine Memory.wf_foldl _ (fun m x hm => ?_) _ hs
    split
    · exact hm
    · exact Memory.wf_setByte hm _ _

/-! ## Sys2Proof/Machine/Dram.lean -/

@[simp] theorem State.dramWrite_wf {s : State} (hs : s.mem.wf = true) (k b : Nat) (bs : List Byte) :
    (s.dramWrite k b bs).mem.wf = true := by
  rw [State.dramWrite_mem]
  exact State.writeBytes_wf (by simpa using hs) b bs

@[simp] theorem State.writeDram_wf {s : State} (hs : s.mem.wf = true) (a : Nat) (bs : List Byte) :
    (s.writeDram a bs).mem.wf = true := by
  unfold State.writeDram
  exact foldl_wf (fun _ _ h => by split <;> simp [h]) _ hs

/-! ## Sys2Proof/Machine/Scratch.lean -/

@[simp] theorem State.setPadLine_wf {s : State} (hs : s.mem.wf = true) (t n : Nat) (v : Line)
    (gen : Option (BitVec 2)) : (s.setPadLine t n v gen).mem.wf = true := by
  rw [State.setPadLine_mem]
  exact Memory.wf_setLine hs _ _

@[simp] theorem State.copyPadLine_wf {s : State} (hs : s.mem.wf = true) (t src dst : Nat) :
    (s.copyPadLine t src dst).mem.wf = true := by
  unfold State.copyPadLine
  dsimp only
  rw [State.modTile_mem, State.writeLine_mem]
  exact Memory.wf_setLine hs _ _

@[simp] theorem State.goLive_wf {s : State} (hs : s.mem.wf = true) (t n : Nat) : (s.goLive t n).mem.wf = true := by
  unfold State.goLive
  split <;> simp [hs]

@[simp] theorem State.landWrite_wf {s : State} (hs : s.mem.wf = true) (t : Nat) (w : PadWrite) :
    (s.landWrite t w).mem.wf = true := by
  unfold State.landWrite
  refine foldl_wf (fun s n hs => ?_) _ hs
  dsimp only
  split
  · exact State.setPadLine_wf (State.goLive_wf hs _ _) _ _ _ _
  · exact State.setPadLine_wf hs _ _ _ _

@[simp] theorem execScratchpadWriteLand_wf {s : State} (hs : s.mem.wf = true) (t : TileNo) :
    AnswerWf (execScratchpadWriteLand t s) := by
  unfold execScratchpadWriteLand
  dsimp only
  (repeat' split) <;> simp [hs]

@[simp] theorem State.landUnscheduled_wf {s : State} (hs : s.mem.wf = true) (t : Nat) (r : URequest) :
    (s.landUnscheduled t r).mem.wf = true := by
  unfold State.landUnscheduled
  split
  · exact hs
  · extract_lets live n a mark blocked touched m' fixed landed
    have hlive : live.mem.wf = true := by
      unfold live
      split <;> simp [hs]
    have hlanded : landed.mem.wf = true := by
      unfold landed
      split
      · exact Memory.wf_setLine hlive _ _
      · rw [State.tileEvent_mem]
        exact Memory.wf_setLine hlive _ _
    split <;> simp [hlanded]

@[simp] theorem execScrub_wf {s : State} (hs : s.mem.wf = true) (t : TileNo) (line : BitVec 15) :
    AnswerWf (execScrub t line s) := by
  unfold execScrub
  dsimp only
  split <;> simp [hs]

/-! ## Sys2Proof/Machine/Rings.lean -/

@[simp] theorem State.asyncWrite_wf {s : State} (hs : s.mem.wf = true) (a : Nat) (bs : List Byte) (agent : Nat)
    (gen : Option (BitVec 2)) (spec : Bool) (owner : UOwner) :
    (s.asyncWrite a bs agent gen spec owner).1.mem.wf = true := by
  unfold State.asyncWrite
  dsimp only
  (repeat' split) <;> simp [hs, foldl_mem]

@[simp] theorem State.writeUnit_wf {s : State} (hs : s.mem.wf = true) (e : Line) (u : Nat) (bs : List Byte) :
    (s.writeUnit e u bs).mem.wf = true := by
  unfold State.writeUnit
  split <;> simp [hs]

@[simp] theorem State.writeRecord_wf {s : State} (hs : s.mem.wf = true) (e : Line) (m : Spilled) :
    (s.writeRecord e m).mem.wf = true := by
  unfold State.writeRecord
  split <;> simp [hs]

@[simp] theorem State.spillMessage_wf {s : State} (hs : s.mem.wf = true) (c : Nat) (m : Message) (owed : BitVec 64)
    (tid : BitVec 32) : (s.spillMessage c m owed tid).mem.wf = true := by
  unfold State.spillMessage
  extract_lets ch n us x fresh s1
  split
  · simp [hs]
  · have h1 : s1.mem.wf = true := by simpa [s1] using hs
    exact foldl_wf (fun s u hs => State.writeUnit_wf hs _ _ _) _ (State.writeRecord_wf h1 _ _)

@[simp] theorem State.spillRing_wf {s : State} (hs : s.mem.wf = true) (c : Nat) (m : Message) :
    (s.spillRing c m).mem.wf = true := by
  unfold State.spillRing
  dsimp only
  split <;> exact State.spillMessage_wf (by simp [hs]) _ _ _ _

@[simp] theorem State.placeMessage_wf {s : State} (hs : s.mem.wf = true) (c : Nat) (m : Message) :
    (s.placeMessage c m).mem.wf = true := by
  unfold State.placeMessage
  dsimp only
  (repeat' split) <;> simp [hs]

@[simp] theorem State.placeMulticast_wf {s : State} (hs : s.mem.wf = true) (c : Nat) (m : Message) :
    (s.placeMulticast c m).mem.wf = true := by
  unfold State.placeMulticast
  extract_lets e ms all
  split
  · simp [hs]
  · split
    next gathered tid ht =>
    split
    next s1 ready hr =>
    extract_lets spent s2 mask sent s3 owed
    have h1 : s1.mem.wf = true := by
      rwa [State.mem_of_eq hr, State.readyMembers_mem, State.mem_of_eq ht, State.takeTid_mem]
    have h2 : s2.mem.wf = true := by
      unfold s2 spent
      rw [foldl_fst_mem]
      · exact h1
      · intro x r
        simp
    have h3 : s3.mem.wf = true := by
      unfold s3
      split
      · exact h2
      · rw [foldl_mem fun s p => by simp]
        simpa [sent] using h2
    split
    · exact h3
    · exact State.spillMessage_wf h3 _ _ _ _

@[simp] theorem State.payOwed_wf {s : State} (hs : s.mem.wf = true) (c m : Nat) (x : Spilled) :
    (s.payOwed c m x).mem.wf = true := by
  unfold State.payOwed
  dsimp only
  split <;> simp [hs]

@[simp] theorem State.departMember_wf {s : State} (hs : s.mem.wf = true) (c m mc : Nat) :
    (s.departMember c m mc).mem.wf = true := by
  unfold State.departMember
  split
  · exact hs
  · split
    · exact hs
    · dsimp only
      split
      · simp [hs]
      · split <;> simp [State.mem_of_eq ‹State.unspill _ _ _ = _›, hs]

@[simp] theorem execSpillDepart_wf {s : State} (hs : s.mem.wf = true) (chan : BitVec 14) :
    AnswerWf (execSpillDepart chan s) := by
  unfold execSpillDepart
  dsimp only
  rw [answerWf_next]
  split
  · exact foldl_wf (fun s x hs => State.departMember_wf hs _ _ _) _ hs
  · simp [hs]

@[simp] theorem execAtillApply_wf {s : State} (hs : s.mem.wf = true) (die : BitVec 2) (index : BitVec 10) :
    AnswerWf (execAtillApply die index s) := by
  unfold execAtillApply
  extract_lets r n step at_ out go
  have hgo (p : BitVec 24) (gone : List (BitVec 24)) : (go p gone).mem.wf = true := by
    unfold go
    split
    · split
      · exact hs
      · dsimp only
        split
        · simp [hs]
        · split <;> simp [State.mem_of_eq ‹State.applyTill _ _ _ _ = _›, hs]
    · exact hs
  rw [answerWf_next]
  split
  · exact hs
  · split
    · split
      · exact hs
      · exact hgo _ _
    · exact hgo _ _
    · exact hs

/-! ## Sys2Proof/Machine/Control.lean -/

@[simp] theorem execSpineSetSwitch_wf {s : State} (hs : s.mem.wf = true) : AnswerWf (execSpineSetSwitch s) := by
  unfold execSpineSetSwitch
  rw [answerWf_next]
  split
  · split
    · rwa [foldl_mem fun s f => State.modField_mem _ _ _]
    · exact hs
  · exact hs

@[simp] theorem State.clearBank_wf {s : State} (hs : s.mem.wf = true) (t b : Nat) :
    (s.clearBank t b).mem.wf = true := by
  unfold State.clearBank
  rw [State.modTile_mem]
  exact Memory.wf_filter hs _

/-! ## Sys2Proof/Machine/Petty.lean -/

@[simp] theorem State.startLocal_wf {s : State} (hs : s.mem.wf = true) (t : Nat) (p : Petty) :
    (s.startLocal t p).mem.wf = true := by
  unfold State.startLocal
  dsimp only
  (repeat' split) <;> simp [hs, foldl_mem]

@[simp] theorem State.startPetty_wf {s : State} (hs : s.mem.wf = true) (t : Nat) (n : BitVec 32) :
    (s.startPetty t n).mem.wf = true := by
  unfold State.startPetty
  dsimp only
  (repeat' split) <;> simp [hs]

@[simp] theorem State.pettyRead_wf {s : State} (hs : s.mem.wf = true) (t : Nat) (r : ReqLine) (d : Line) :
    (s.pettyRead t r d).mem.wf = true := by
  unfold State.pettyRead
  dsimp only
  (repeat' split) <;> simp [hs]

@[simp] theorem execPgetReply_wf {s : State} (hs : s.mem.wf = true) (t : TileNo) (n : BitVec 32) :
    AnswerWf (execPgetReply t n s) := by
  unfold execPgetReply
  dsimp only
  rw [answerWf_next]
  split
  · exact hs
  · next p _ =>
    split
    · exact hs
    · split
      · simp [hs]
      · split
        · simp [hs]
        · split
          · simp [hs]
          · split
            · exact hs
            · have got : (if p.chan.toNat = localChan then s.localGet p else (s, some p.lineBytes)).1.mem = s.mem := by
                split <;> simp
              split <;> simp [State.mem_of_eq ‹(if p.chan.toNat = localChan then _ else _) = _›, got, hs]

/-! ## Sys2Proof/Machine/Escrow.lean -/

@[simp] theorem State.swapTile_wf {s : State} (hs : s.mem.wf = true) (t : Nat) : (s.swapTile t).mem.wf = true := by
  unfold State.swapTile
  dsimp only
  rw [State.modTile_mem]
  exact foldl_wf (fun s r hs => State.copyPadLine_wf hs _ _ _) _ hs

@[simp] theorem execEscrowSwap_wf {s : State} (hs : s.mem.wf = true) (f : BitVec 4) (row : BitVec 3) (g : BitVec 4) :
    AnswerWf (execEscrowSwap f row g s) := by
  unfold execEscrowSwap
  rw [answerWf_next]
  split
  · exact hs
  · refine foldl_wf (fun s t hs => ?_) _ hs
    dsimp only
    split <;> simp [hs]

@[simp] theorem State.releaseOp_wf {s : State} (hs : s.mem.wf = true) (t : Nat) (p : Posted) :
    (s.releaseOp t p).mem.wf = true := by
  unfold State.releaseOp
  split <;> simp [hs]

/-! ## Sys2Proof/Machine/Gleaner.lean -/

@[simp] theorem State.finishAccess_wf {s : State} (hs : s.mem.wf = true) (k : Nat) (t : Thread) (a : Access)
    (reset : Bool) : (s.finishAccess k t a reset).1.mem.wf = true := by
  unfold State.finishAccess
  dsimp only
  split
  · split <;> simp [State.mem_of_eq ‹s.dramRead _ _ _ = _›, hs]
  · split <;> simp [State.mem_of_eq ‹s.dramRead _ _ _ = _›, hs]
  · split
    · split <;> simp [foldl_mem, hs]
    · split <;> simp [foldl_mem, hs]
  · simp [hs]
  · split
    · simp [State.mem_of_eq ‹s.dramRead _ _ _ = _›, hs]
    · split <;> simp [State.mem_of_eq ‹s.dramRead _ _ _ = _›, hs]

@[simp] theorem execScriptAccessComplete_wf {s : State} (hs : s.mem.wf = true) (k : BitVec 4) (post : BitVec 32)
    (item : BitVec 20) (second : Bool) : AnswerWf (execScriptAccessComplete k post item second s) := by
  unfold execScriptAccessComplete
  rw [answerWf_next]
  split
  · exact hs
  · split
    · exact hs
    · split
      · exact hs
      · extract_lets blocked waits
        split
        · exact hs
        · split <;> simp [State.mem_of_eq ‹s.finishAccess _ _ _ _ = _›, hs]

/-! ## Sys2Proof/Machine/Links.lean -/

@[simp] theorem execPacketForward_wf {s : State} (hs : s.mem.wf = true) (k : BitVec 5) (ty : PacketType) (p : Packet) :
    AnswerWf (execPacketForward k ty p s) := by
  unfold execPacketForward
  rw [answerWf_next]
  split <;> simp [hs]

@[simp] theorem execHeartbeat_wf {s : State} (hs : s.mem.wf = true) (k : BitVec 5) (p : Packet) :
    AnswerWf (execHeartbeat k p s) := by
  unfold execHeartbeat
  rw [answerWf_next]
  split <;> simp [hs]

/-! ## Sys2Proof/Machine/Packets.lean -/

theorem State.once_wf {s : State} (hs : s.mem.wf = true) (w : Flow) (p : Packet) {f : State → State}
    (hf : ∀ s, s.mem.wf = true → (f s).mem.wf = true) : (s.once w p f).mem.wf = true := by
  unfold State.once
  split
  · exact hs
  · split
    · simp [hs]
    · dsimp only
      split
      · simp [hs]
      · exact hf _ (by simp [hs])

@[simp] theorem State.takeWrite_wf {s : State} (hs : s.mem.wf = true) (hedge : Bool) (p : Packet) :
    (s.takeWrite hedge p).mem.wf = true := by
  refine State.once_wf hs _ p fun s hs => ?_
  dsimp only
  split
  · simp [hs]
  · split
    · rw [State.notePacket_mem]
      exact State.dramWrite_wf (by simp [State.mem_of_eq ‹s.dramRead _ _ _ = _›, hs]) _ _ _
    · simp [State.mem_of_eq ‹s.dramRead _ _ _ = _›, hs]
  · simp [hs]

@[simp] theorem State.landRing_wf {s : State} (hs : s.mem.wf = true) (w : Flow) (d i : Nat) (off : Nat)
    (pos : Option Nat) (p : Packet) : (s.landRing w d i off pos p).mem.wf = true := by
  unfold State.landRing
  dsimp only
  split <;> simp [hs]

@[simp] theorem State.takeRing_wf {s : State} (hs : s.mem.wf = true) (link : Option Nat) (p : Packet) :
    (s.takeRing link p).mem.wf = true := by
  unfold State.takeRing
  dsimp only
  split
  · split <;> simp [hs]
  · exact State.once_wf hs _ p fun s hs => State.landRing_wf hs _ _ _ _ _ _

@[simp] theorem State.takeMember_wf {s : State} (hs : s.mem.wf = true) (link : Option Nat) (p : Packet) (m : Nat)
    (pos : BitVec 32) : (s.takeMember link p m pos).mem.wf = true := by
  unfold State.takeMember
  dsimp only
  split
  · split <;> simp [hs]
  · exact State.once_wf hs _ p fun s hs => State.landRing_wf hs _ _ _ _ _ _

@[simp] theorem State.takeMcast_wf {s : State} (hs : s.mem.wf = true) (link : Option Nat) (p : Packet) :
    (s.takeMcast link p).mem.wf = true := by
  unfold State.takeMcast
  extract_lets tree s1 here on s2
  have h1 : s1.mem.wf = true := by
    unfold s1
    split <;> simp [hs]
  have h2 : s2.mem.wf = true := by
    unfold s2
    split <;> simp [h1]
  exact foldl_wf (fun s x hs => State.takeMember_wf hs _ _ _ _) _ h2

@[simp] theorem State.deliver_wf {s : State} (hs : s.mem.wf = true) (link : Option Nat) (ty : PacketType) (p : Packet) :
    (s.deliver link ty p).mem.wf = true := by
  unfold State.deliver
  split <;> simp [hs]

@[simp] theorem State.receive_wf {s : State} (hs : s.mem.wf = true) (k : BitVec 5) (ty : PacketType) (p : Packet) :
    (s.receive k ty p).mem.wf = true := by
  unfold State.receive
  dsimp only
  (repeat' split) <;> simp [hs]

@[simp] theorem State.landAccess_wf {s : State} (hs : s.mem.wf = true) (t : Nat) (r : URequest) :
    (s.landAccess t r).mem.wf = true := by
  simp [State.landAccess, hs]

@[simp] theorem State.grantAccess_wf {s : State} (hs : s.mem.wf = true) (t : Nat) (bank : BitVec 4) (r : URequest) :
    (s.grantAccess t bank r).mem.wf = true := by
  unfold State.grantAccess
  dsimp only
  (repeat' split) <;> simp [hs]

@[simp] theorem State.landPartials_wf {s : State} (hs : s.mem.wf = true) : s.landPartials.mem.wf = true := by
  unfold State.landPartials
  refine foldl_wf (fun s x hs => foldl_wf (fun s l hs => ?_) _ hs) _ hs
  split <;> simp [hs]

/-! ## Sys2Proof/Machine/Ledger.lean -/

@[simp] theorem State.storeReply_wf {s : State} (hs : s.mem.wf = true) (r : Receipt) (data : List Byte) :
    (s.storeReply r data).mem.wf = true := by
  unfold State.storeReply
  split <;> simp [hs]

/-! ## Sys2Proof/Machine/Cycle.lean -/

@[simp] theorem State.deliverLoop_wf {s : State} (hs : s.mem.wf = true) : s.deliverLoop.mem.wf = true := by
  unfold State.deliverLoop
  exact foldl_wf (fun s o hs => State.deliver_wf hs _ _ _) _ hs

@[simp] theorem State.asyncWork_wf {s : State} (hs : s.mem.wf = true) : s.asyncWork.mem.wf = true := by
  unfold State.asyncWork
  dsimp only
  rw [State.drainOut_mem]
  refine State.deliverLoop_wf ?_
  rw [foldl_mem fun s t => by simp, foldl_mem fun s f => foldl_mem (fun s d => by simp) _ _]
  exact hs

/-! ## Sys2Proof/Machine/Blocks.lean -/

@[simp] theorem State.setFallow_wf {s : State} (hs : s.mem.wf = true) (t : Nat) (mask : BitVec 16) :
    (s.setFallow t mask).mem.wf = true := by
  unfold State.setFallow
  dsimp only
  rw [State.modTile_mem]
  exact foldl_wf (fun s b hs => State.clearBank_wf hs _ _) _ hs

/-! ## Sys2Proof/Machine/House.lean -/

theorem State.onMessage_wf {s : State} (hs : s.mem.wf = true) (h : Sealed) (reqid : BitVec 64)
    {g : State → Session → State} (hg : ∀ s y, s.mem.wf = true → (g s y).mem.wf = true) :
    (s.onMessage h reqid g).mem.wf = true := by
  unfold State.onMessage
  split
  · exact hs
  · split
    · split
      · simp [State.mem_of_eq ‹s.openSealed h = _›, hs]
      · exact hg _ _ (by simp [State.mem_of_eq ‹s.openSealed h = _›, hs])
    · simp [State.mem_of_eq ‹s.openSealed h = _›, hs]

@[simp] theorem execKeepalive_wf {s : State} (hs : s.mem.wf = true) (h : Sealed) : AnswerWf (execKeepalive h s) := by
  unfold execKeepalive
  rw [answerWf_next]
  exact State.onMessage_wf hs h 0 fun s y hs => by simp [hs]

@[simp] theorem execClose_wf {s : State} (hs : s.mem.wf = true) (h : Sealed) : AnswerWf (execClose h s) := by
  unfold execClose
  rw [answerWf_next]
  exact State.onMessage_wf hs h 0 fun s y hs => by simp [hs]

@[simp] theorem State.raiseFloor_wf {s : State} (hs : s.mem.wf = true) (c : Nat) (v : BitVec 64) :
    (s.raiseFloor c v).mem.wf = true := by
  unfold State.raiseFloor
  dsimp only
  split <;> simp [hs]

@[simp] theorem State.evict_wf {s : State} (hs : s.mem.wf = true) (slot : Nat) : (s.evict slot).mem.wf = true := by
  unfold State.evict
  split <;> simp [hs]

@[simp] theorem State.acceptRequest_wf {s : State} (hs : s.mem.wf = true) (c : Nat) (client : BitVec 13) (y : Session)
    (x : RequestMsg) : (s.acceptRequest c client y x).mem.wf = true := by
  simp [State.acceptRequest, hs]

@[simp] theorem State.handleRequest_wf {s : State} (hs : s.mem.wf = true) (y : Session) (x : RequestMsg) :
    (s.handleRequest y x).mem.wf = true := by
  unfold State.handleRequest
  dsimp only
  (repeat' split) <;> simp [hs]

@[simp] theorem execRequest_wf {s : State} (hs : s.mem.wf = true) (h : Sealed) (x : RequestMsg) :
    AnswerWf (execRequest h x s) := by
  unfold execRequest
  rw [answerWf_next]
  exact State.onMessage_wf hs _ _ fun s y hs => by simp [hs]

@[simp] theorem State.answerTicket_wf {s : State} (hs : s.mem.wf = true) (r : Receipt) (st : BitVec 8)
    (data : List Byte) : (s.answerTicket r st data).mem.wf = true := by
  simp [State.answerTicket, hs]

@[simp] theorem State.handleArrived_wf {s : State} (hs : s.mem.wf = true) (a : Arrived) (m : Option (List Byte)) :
    (s.handleArrived a m).mem.wf = true := by
  unfold State.handleArrived
  dsimp only
  (repeat' split) <;> simp [hs]

@[simp] theorem State.outboxData_wf {s : State} (hs : s.mem.wf = true) (a : Arrived) (frame : BitVec 32) :
    (s.outboxData a frame).mem.wf = true := by
  unfold State.outboxData
  dsimp only
  split <;> simp [State.mem_of_eq ‹s.houseRead _ _ _ = _›, hs]

@[simp] theorem State.outboxTurn_wf {s : State} (hs : s.mem.wf = true) (a : Arrived) :
    (s.outboxTurn a).mem.wf = true := by
  unfold State.outboxTurn
  split
  · simp [hs]
  · dsimp only
    split
    · simp [State.mem_of_eq ‹s.houseRead _ _ _ = _›, hs]
    · simp [State.mem_of_eq ‹s.houseRead _ _ _ = _›, hs]
    · exact State.outboxData_wf (by simp [State.mem_of_eq ‹s.houseRead _ _ _ = _›, hs]) _ _

@[simp] theorem State.endTickets_wf {s : State} (hs : s.mem.wf = true) : s.endTickets.mem.wf = true := by
  unfold State.endTickets
  extract_lets house stopped turned
  have hturned : turned.mem.wf = true := foldl_wf (fun s a hs => by split <;> simp [hs]) _ hs
  split
  · exact hturned
  · exact foldl_wf (fun s r hs => by split <;> simp [hs]) _ hturned

@[simp] theorem execLedger_wf {s : State} (hs : s.mem.wf = true) (h : Sealed) (start : Option (BitVec 64)) :
    AnswerWf (execLedger h start s) := by
  unfold execLedger
  rw [answerWf_next]
  refine State.onMessage_wf hs h 0 fun s y hs => ?_
  split
  · simp [hs]
  · split <;> simp [hs]

@[simp] theorem execPatchMessage_wf {s : State} (hs : s.mem.wf = true) (h : Sealed) (x : PatchPart) :
    AnswerWf (execPatchMessage h x s) := by
  unfold execPatchMessage
  rw [answerWf_next]
  refine State.onMessage_wf hs h 0 fun s y hs => ?_
  split
  · simp [hs]
  · split
    · simp [hs]
    · split <;> simp [State.mem_of_eq ‹s.patchPart _ _ = _›, hs]

/-! ## Sys2Proof/Machine/Resets.lean -/

@[simp] theorem State.clearPads_wf {s : State} (hs : s.mem.wf = true) : s.clearPads.mem.wf = true :=
  Memory.wf_filter hs _

@[simp] theorem State.programReset_wf {s : State} (hs : s.mem.wf = true) : s.programReset.mem.wf = true := by
  unfold State.programReset
  dsimp only
  split <;> simp [hs]

@[simp] theorem State.clearData_wf (s : State) : s.clearData.mem.wf = true := rfl

@[simp] theorem State.bringUp_wf {s : State} (hs : s.mem.wf = true) (o : BootOutcome) (first : Nat) :
    (s.bringUp o first).mem.wf = true := by
  unfold State.bringUp
  dsimp only
  (repeat' split) <;> simp [hs]

@[simp] theorem State.powerOff_wf (s : State) : s.powerOff.mem.wf = true := rfl

@[simp] theorem execPowerOn_wf {s : State} (hs : s.mem.wf = true) (o : BootOutcome) : AnswerWf (execPowerOn o s) := by
  unfold execPowerOn
  rw [answerWf_next]
  split
  · exact hs
  · dsimp only
    split
    · exact rfl
    · split
      · exact rfl
      · split
        · rw [State.startEpoch_mem]
          exact State.bringUp_wf rfl _ _
        · exact State.bringUp_wf rfl _ _

@[simp] theorem State.warmClear_wf {s : State} (hs : s.mem.wf = true) : s.warmClear.mem.wf = true := by
  simp [State.warmClear, hs]

@[simp] theorem execWarmReset_wf {s : State} (hs : s.mem.wf = true) (o : BootOutcome) :
    AnswerWf (execWarmReset o s) := by
  unfold execWarmReset
  rw [answerWf_next]
  split
  · exact hs
  · extract_lets status step ends ended up waiting begun done doneHouse
    have hended : ended.mem.wf = true := by
      unfold ended
      split <;> simp [hs]
    have hup : up.mem.wf = true := State.bringUp_wf (State.warmClear_wf hended) _ _
    split
    · exact hended
    · split
      · exact hup
      · refine State.endTickets_wf ?_
        unfold begun
        split <;> simp [hup]

/-! ## Sys2Proof/Machine/Clocks.lean -/

@[simp] theorem execBeacon_wf {s : State} (hs : s.mem.wf = true) (full : Bool) (missed : List (BitVec 7)) :
    AnswerWf (execBeacon full missed s) := by
  unfold execBeacon
  rw [answerWf_next]
  split
  · exact hs
  · dsimp only
    rwa [foldl_mem fun s d => State.beaconAt_mem _ _ _]

/-! ## Sys2Proof/Machine/Image.lean -/

@[simp] theorem State.writeSection_wf {s : State} (hs : s.mem.wf = true) (dram : Bool) (x : Section) :
    (s.writeSection dram x).mem.wf = true := by
  unfold State.writeSection
  dsimp only
  split
  · simp [hs]
  · split
    · split <;> simp [hs]
    · split
      · split <;> simp [hs]
      · split
        · exact hs
        · split
          · exact foldl_wf (fun s b hs => foldl_wf (fun s w hs => by simp [hs]) _ hs) _ (by simp [hs])
          · exact hs

@[simp] theorem State.writeImage_wf {s : State} (hs : s.mem.wf = true) (dram : Bool) (img : Image) (logical : Nat) :
    (s.writeImage dram img logical).mem.wf = true := by
  unfold State.writeImage
  dsimp only
  rw [foldl_mem fun s x => State.modTile_mem _ _ _, State.mapChannels_mem]
  exact foldl_wf (fun s x hs => State.writeSection_wf hs _ _) _ hs

@[simp] theorem State.armProgram_wf {s : State} (hs : s.mem.wf = true) : s.armProgram.mem.wf = true := by
  unfold State.armProgram
  dsimp only
  rw [foldl_mem fun s t => State.modTile_mem _ _ _]
  split <;> simp [hs]

@[simp] theorem State.afterReset_wf {s : State} (hs : s.mem.wf = true) (cause : ResetCause) :
    (s.afterReset cause).mem.wf = true := by
  unfold State.afterReset
  dsimp only
  (repeat' split) <;> simp [hs]

@[simp] theorem State.tryReset_wf {s : State} (hs : s.mem.wf = true) : s.tryReset.mem.wf = true := by
  unfold State.tryReset
  split
  · exact hs
  · extract_lets lost ended
    have hended : ended.mem.wf = true := by
      unfold ended
      split <;> simp [hs]
    split <;> simp [hended]

@[simp] theorem State.askReset_wf {s : State} (hs : s.mem.wf = true) (c : ResetCause) :
    (s.askReset c).mem.wf = true := by
  simp [State.askReset, hs]

/-! ## Sys2Proof/Machine/Messages.lean -/

@[simp] theorem execLinkNonce_wf {s : State} (hs : s.mem.wf = true) (c : Control) (nonce : BitVec 256) :
    AnswerWf (execLinkNonce c nonce s) := by
  unfold execLinkNonce
  rw [answerWf_next]
  split <;> simp [hs]

@[simp] theorem execLinkProof_wf {s : State} (hs : s.mem.wf = true) (c : Control) (owner : BitVec 256) (chain : Chain)
    (signature : Signature) : AnswerWf (execLinkProof c owner chain signature s) := by
  unfold execLinkProof
  dsimp only
  rw [answerWf_next]
  (repeat' split) <;> simp [hs]

@[simp] theorem execDeathDeclaration_wf {s : State} (hs : s.mem.wf = true) (phys : BitVec 12) :
    AnswerWf (execDeathDeclaration phys s) := by
  unfold execDeathDeclaration
  dsimp only
  rw [answerWf_next]
  split
  · exact hs
  · split
    · split
      · simp [hs]
      · rw [State.peerDies_mem, foldl_mem]
        · simp [hs]
        · intro s d
          split
          · rfl
          · split <;> simp
    · simp [hs]

@[simp] theorem execDeath_wf {s : State} (hs : s.mem.wf = true) (_c : Control) (phys : BitVec 12) (logical : BitVec 12)
    (image : BitVec 256) (time : BitVec 64) : AnswerWf (execDeath _c phys logical image time s) := by
  unfold execDeath
  rw [answerWf_next]
  split <;> simp [hs]

@[simp] theorem execExpelled_wf {s : State} (hs : s.mem.wf = true) (_c : Control) (logical : BitVec 12)
    (image : BitVec 256) : AnswerWf (execExpelled _c logical image s) := by
  unfold execExpelled
  rw [answerWf_next]
  split <;> simp [hs]

@[simp] theorem execPlanCheck_wf {s : State} (hs : s.mem.wf = true) (c : Control) (plan : Line) (image : BitVec 256)
    (grade : BitVec 2) (feed : BitVec 4) : AnswerWf (execPlanCheck c plan image grade feed s) := by
  unfold execPlanCheck
  rw [answerWf_next]
  (repeat' split) <;> simp [hs]

@[simp] theorem execPlanAnswer_wf {s : State} (hs : s.mem.wf = true) (c : Control) (refuses : Bool) (_reason : BitVec 8)
    (cofated : Bool) : AnswerWf (execPlanAnswer c refuses _reason cofated s) := by
  unfold execPlanAnswer
  rw [answerWf_next]
  (repeat' split) <;> simp [hs]

@[simp] theorem State.rearm_wf {s : State} (hs : s.mem.wf = true) : s.rearm.mem.wf = true := by simp [State.rearm, hs]

@[simp] theorem State.resumeHere_wf {s : State} (hs : s.mem.wf = true) (step : BitVec 64) (what : BitVec 8) :
    (s.resumeHere step what).mem.wf = true := by
  unfold State.resumeHere
  dsimp only
  (repeat' split) <;> simp [hs]

@[simp] theorem State.announce_wf {s : State} (hs : s.mem.wf = true) (step : BitVec 64) (what : BitVec 8) :
    (s.announce step what).mem.wf = true := by
  simp [State.announce, hs]

@[simp] theorem State.recovered_wf {s : State} (hs : s.mem.wf = true) : s.recovered.mem.wf = true := by
  simp [State.recovered, hs]

@[simp] theorem execReport_wf {s : State} (hs : s.mem.wf = true) (_c : Control) (step : BitVec 64) (logical : BitVec 12)
    (copied : Bool) (ended : ReportEnd) : AnswerWf (execReport _c step logical copied ended s) := by
  unfold execReport
  rw [answerWf_next]
  (repeat' split) <;> simp [hs]

@[simp] theorem execCommit_wf {s : State} (hs : s.mem.wf = true) (c : Control) (step : BitVec 64) (loss : BitVec 32)
    (snapshot : Bool) : AnswerWf (execCommit c step loss snapshot s) := by
  unfold execCommit
  rw [answerWf_next]
  split <;> simp [hs]

@[simp] theorem execCoinHalf_wf {s : State} (hs : s.mem.wf = true) (c : Control) (chan : BitVec 14) (die : BitVec 2)
    (index : BitVec 10) (ringHalf : Bool) (spillEmpty : Bool) (coins : BitVec 32) (returned : BitVec 32) :
    AnswerWf (execCoinHalf c chan die index ringHalf spillEmpty coins returned s) := by
  unfold execCoinHalf
  dsimp only
  rw [answerWf_next]
  (repeat' split) <;> simp [hs]

@[simp] theorem execReconcileAsk_wf {s : State} (hs : s.mem.wf = true) (c : Control) (chan : BitVec 16)
    (first : BitVec 32) (count : BitVec 13) : AnswerWf (execReconcileAsk c chan first count s) := by
  simp [execReconcileAsk, hs]

@[simp] theorem execReconcileAnswer_wf {s : State} (hs : s.mem.wf = true) (c : Control) (chan : BitVec 16)
    (first : BitVec 32) (done : BitVec 4096) (_returned : BitVec 32) :
    AnswerWf (execReconcileAnswer c chan first done _returned s) := by
  unfold execReconcileAnswer
  dsimp only
  rw [answerWf_next]
  (repeat' split) <;> simp [hs, foldl_mem]

@[simp] theorem execRingEndCheck_wf {s : State} (hs : s.mem.wf = true) (c : Control) (chan : BitVec 14) (die : BitVec 2)
    (index : BitVec 10) (rcoins : BitVec 32) (_matching : Bool) (answer : Bool) :
    AnswerWf (execRingEndCheck c chan die index rcoins _matching answer s) := by
  unfold execRingEndCheck
  dsimp only
  rw [answerWf_next]
  (repeat' split) <;> simp [hs]

@[simp] theorem execMap_wf {s : State} (hs : s.mem.wf = true) (c : Control) (logical : BitVec 12) (phys : BitVec 12)
    (image : BitVec 256) (step : BitVec 64) : AnswerWf (execMap c logical phys image step s) := by
  unfold execMap
  rw [answerWf_next]
  (repeat' split) <;> simp [hs]

@[simp] theorem execSpareJoin_wf {s : State} (hs : s.mem.wf = true) (_c : Control) (logical : BitVec 12)
    (image : BitVec 256) (step : BitVec 64) (plan : Line) : AnswerWf (execSpareJoin _c logical image step plan s) := by
  unfold execSpareJoin
  rw [answerWf_next]
  split
  · exact hs
  · split
    · exact hs
    · split
      · simp [State.mem_of_eq ‹s.readDram _ _ = _›, hs]
      · have hread := (State.mem_of_eq ‹s.readDram _ _ = _›).trans (s.readDram_mem _ _)
        split
        · simp [hread, hs]
        · split <;> simp [hread, hs]

@[simp] theorem execResume_wf {s : State} (hs : s.mem.wf = true) (c : Control) (step : BitVec 64) (what : BitVec 8) :
    AnswerWf (execResume c step what s) := by
  unfold execResume
  rw [answerWf_next]
  (repeat' split) <;> simp [hs]

@[simp] theorem execSealReport_wf {s : State} (hs : s.mem.wf = true) (c : Control) (epoch : BitVec 32)
    (last : BitVec 64) (head : BitVec 256) : AnswerWf (execSealReport c epoch last head s) := by
  unfold execSealReport
  rw [answerWf_next]
  split <;> simp [hs]

/-! ## Sys2Proof/Machine/Boxes.lean -/

theorem State.runFrame_wf {s : State} (hs : s.mem.wf = true) (f : Frame) (c : Command) {body : Body}
    (hb : ∀ s, s.mem.wf = true → ResultWf (body s)) : (s.runFrame f c body).mem.wf = true := by
  unfold State.runFrame
  split
  · exact hs
  · split
    · next ho => rwa [State.mem_of_eq ho, State.openFrame_mem]
    · next s1 ho =>
      have h1 : s1.mem.wf = true := by rwa [State.mem_of_eq ho, State.openFrame_mem]
      split
      · simpa using h1
      · split
        · simpa using h1
        · split
          · simpa using h1
          · split
            · split <;> simpa using h1
            · split
              · simpa using h1
              · next hd => simpa using hb s1 h1 _ _ hd
              · next hd =>
                dsimp only
                split <;> simpa using hb s1 h1 _ _ hd
              · next hd => simpa using hb s1 h1 _ _ hd
              · next hd => simpa using hb s1 h1 _ _ hd

theorem State.command_wf {s : State} (hs : s.mem.wf = true) (f : Frame) (c : Command) {body : Body}
    (hb : ∀ s, s.mem.wf = true → ResultWf (body s)) : (s.command f c body).mem.wf = true := by
  unfold State.command
  split
  · exact s.runFrame_wf hs f c hb
  · split
    · exact s.runFrame_wf hs f _ fun _ _ => resultWf_error _
    · exact hs

@[simp] theorem State.copyDram_wf {s : State} (hs : s.mem.wf = true) (a b n : Nat) :
    (s.copyDram a b n).mem.wf = true := by
  unfold State.copyDram
  split
  · exact State.writeDram_wf (by simp [State.mem_of_eq ‹s.readDram _ _ = _›, hs]) _ _
  · simp [State.mem_of_eq ‹s.readDram _ _ = _›, hs]

@[simp] theorem State.moveReceipts_wf {s : State} (hs : s.mem.wf = true) (old : BitVec 62) :
    (s.moveReceipts old).mem.wf = true := by
  unfold State.moveReceipts
  extract_lets new
  split
  · exact hs
  · split
    · exact State.writeDram_wf hs _ _
    · refine State.copyDram_wf (foldl_wf (fun s r hs => ?_) _ hs) _ _ _
      split
      · split <;> simp [hs]
      · exact hs

@[simp] theorem execLoadImage_wf {s : State} (hs : s.mem.wf = true) (f : Frame) (addr : BitVec 48) (length : BitVec 64)
    (logical : BitVec 16) (digest : BitVec 256) : AnswerWf (execLoadImage f addr length logical digest s) := by
  refine (answerWf_next _).mpr (State.command_wf hs f _ fun s hs => ?_)
  simp only [resultWf_bind]
  intros
  split
  · exact resultWf_error _
  · have hstaged := (State.mem_of_eq ‹s.staged _ _ = _›).trans (s.staged_mem _ _)
    simp only [resultWf_bind]
    intros
    split
    · exact resultWf_error _
    · split
      · exact resultWf_error _
      · simp only [resultWf_bind]
        intros
        exact (resultWf_ok _ _).mpr (State.moveReceipts_wf (State.writeImage_wf (by simp [hstaged, hs]) _ _ _) _)

@[simp] theorem execPatch_wf {s : State} (hs : s.mem.wf = true) (f : Frame) (x : PatchPart) :
    AnswerWf (execPatch f x s) := by
  refine (answerWf_next _).mpr (State.command_wf hs f _ fun s hs => ?_)
  split <;> simp [State.mem_of_eq ‹s.patchPart _ _ = _›, hs]

@[simp] theorem execStop_wf {s : State} (hs : s.mem.wf = true) (f : Frame) (reset : Bool) :
    AnswerWf (execStop f reset s) := by
  refine (answerWf_next _).mpr (State.command_wf hs f _ fun s hs => ?_)
  simp only [resultWf_bind, resultWf_short]
  intros
  split <;> simp [hs]

@[simp] theorem execHold_wf {s : State} (hs : s.mem.wf = true) (f : Frame) (hold : Bool) :
    AnswerWf (execHold f hold s) := by
  refine (answerWf_next _).mpr (State.command_wf hs f _ fun s hs => ?_)
  simp only [resultWf_bind, resultWf_short]
  intros
  split
  · simp [hs]
  · split <;> exact hs

@[simp] theorem execSetStep_wf {s : State} (hs : s.mem.wf = true) (f : Frame) (step : BitVec 8) :
    AnswerWf (execSetStep f step s) := by
  refine (answerWf_next _).mpr (State.command_wf hs f _ fun s hs => ?_)
  simp only [resultWf_bind]
  intros
  split <;> simp [hs]

@[simp] theorem execChannelOpen_wf {s : State} (hs : s.mem.wf = true) (f : Frame) (chan : BitVec 16) (entry : Line)
    (remote : Option Bool) : AnswerWf (execChannelOpen f chan entry remote s) := by
  refine (answerWf_next _).mpr (State.command_wf hs f _ fun s hs => ?_)
  refine resultWf_bind.mpr fun _ _ => resultWf_bind.mpr fun _ _ => resultWf_bind.mpr fun _ _ => ?_
  extract_lets ring asked restarted opened
  have hasked : asked.mem.wf = true := by
    unfold asked
    split <;> simp [hs]
  have hrestarted : restarted.mem.wf = true := by
    unfold restarted
    split <;> simp [hasked]
  split
  · exact (resultWf_ok _ _).mpr hasked
  · simpa [opened] using hrestarted

@[simp] theorem execRingEndClose_wf {s : State} (hs : s.mem.wf = true) (f : Frame) (index : BitVec 16)
    (remoteClosed : Bool) : AnswerWf (execRingEndClose f index remoteClosed s) := by
  refine (answerWf_next _).mpr (State.command_wf hs f _ fun s hs => ?_)
  refine resultWf_bind.mpr fun _ _ => ?_
  extract_lets r c own asked closed
  have hasked : asked.mem.wf = true := by
    unfold asked
    split <;> simp [hs]
  split <;> simp [hasked]

/-! ## Sys2Proof/Machine/Trust.lean -/

@[simp] theorem State.enrolForm_wf {s : State} (hs : s.mem.wf = true) (f : Frame) (form : BitVec 8) (x : EnrolArgs)
    (uses : List Nat) : (s.enrolForm f form x uses).mem.wf = true :=
  State.command_wf hs f _ fun s hs => by simp [hs]

@[simp] theorem execEnrolOwner_wf {s : State} (hs : s.mem.wf = true) (f : Frame) (x : EnrolArgs) (osigA : Signature)
    (osigB : Signature) : AnswerWf (execEnrolOwner f x osigA osigB s) := by
  refine (answerWf_next _).mpr (State.command_wf hs f _ fun s hs => ?_)
  refine resultWf_bind.mpr fun _ _ => resultWf_bind.mpr fun _ _ => resultWf_bind.mpr fun _ _ => ?_
  split
  · exact resultWf_error _
  · exact resultWf_error _
  · have hstaged := (State.mem_of_eq ‹s.staged _ _ = _›).trans (s.staged_mem _ _)
    refine resultWf_bind.mpr fun _ _ => ?_
    rw [resultWf_ok, hstaged]
    exact hs

@[simp] theorem State.evictClient_wf {s : State} (hs : s.mem.wf = true) (c : BitVec 16) :
    (s.evictClient c).mem.wf = true := by
  unfold State.evictClient
  refine foldl_wf (fun s r hs => ?_) _ hs
  split
  · split <;> simp [hs]
  · exact hs

@[simp] theorem State.enrolEffect_wf {s : State} (hs : s.mem.wf = true) (form : BitVec 8) (x : EnrolArgs)
    (key : BitVec 15616) (osigA osigB : Option Signature) : (s.enrolEffect form x key osigA osigB).mem.wf = true := by
  unfold State.enrolEffect
  dsimp only
  (repeat' split) <;> simp [hs]

@[simp] theorem State.enrolDone_wf {s : State} (hs : s.mem.wf = true) (mb : BitVec 4) (form : BitVec 8) (x : EnrolArgs)
    (key : BitVec 15616) (osigA osigB : Option Signature) : (s.enrolDone mb form x key osigA osigB).mem.wf = true := by
  simp [State.enrolDone, hs]

@[simp] theorem execUpdateFw_wf {s : State} (hs : s.mem.wf = true) (f : Frame) (addr : BitVec 48) (length : BitVec 64)
    (esig : Signature) (osig : Signature) : AnswerWf (execUpdateFw f addr length esig osig s) := by
  refine (answerWf_next _).mpr (State.command_wf hs f _ fun s hs => ?_)
  simp only [resultWf_bind]
  intros
  split
  · exact resultWf_error _
  · simp [State.mem_of_eq ‹s.staged _ _ = _›, hs]

@[simp] theorem State.zeroiseBegins_wf {s : State} (hs : s.mem.wf = true) (mb : BitVec 4) (ret : Bool) :
    (s.zeroiseBegins mb ret).mem.wf = true := by
  simp [State.zeroiseBegins, hs]

@[simp] theorem State.zeroiseStep_wf {s : State} (hs : s.mem.wf = true) : s.zeroiseStep.mem.wf = true := by
  unfold State.zeroiseStep
  dsimp only
  (repeat' split) <;> simp [hs]

@[simp] theorem State.zeroiseEnds_wf (s : State) : s.zeroiseEnds.mem.wf = true := by simp [State.zeroiseEnds]

@[simp] theorem State.retireEnds_wf (s : State) (record : List Byte) : (s.retireEnds record).mem.wf = true := by
  simp [State.retireEnds]

/-! ## Sys2Proof/Machine/Survive.lean -/

@[simp] theorem execSnapshotPlan_wf {s : State} (hs : s.mem.wf = true) (f : Frame) (plan : Line) :
    AnswerWf (execSnapshotPlan f plan s) := by
  refine (answerWf_next _).mpr (State.command_wf hs f _ fun s hs => ?_)
  simp only [resultWf_bind]
  intros
  split <;> simp [hs]

@[simp] theorem execRestore_wf {s : State} (hs : s.mem.wf = true) (f : Frame) (step : BitVec 64) :
    AnswerWf (execRestore f step s) := by
  refine (answerWf_next _).mpr (State.command_wf hs f _ fun s hs => ?_)
  simp only [resultWf_bind]
  intros
  split <;> simp [hs]

@[simp] theorem State.restoreEnds_wf {s : State} (hs : s.mem.wf = true) (b tagsOk : Bool) :
    (s.restoreEnds b tagsOk).1.mem.wf = true := by
  unfold State.restoreEnds
  dsimp only
  (repeat' split) <;> simp [hs]

@[simp] theorem execBulkCopy_wf {s : State} (hs : s.mem.wf = true) : AnswerWf (execBulkCopy s) := by
  unfold execBulkCopy
  rw [answerWf_next]
  split
  · dsimp only
    split
    · exact hs
    · split
      · simp [State.mem_of_eq ‹s.copyChannel _ _ _ = _›, hs]
      · simp [State.mem_of_eq ‹s.copyChannel _ _ _ = _›, hs, apply_ite State.mem]
  · exact hs

@[simp] theorem execSnapshotDrainComplete_wf {s : State} (hs : s.mem.wf = true) :
    AnswerWf (execSnapshotDrainComplete s) := by
  unfold execSnapshotDrainComplete
  rw [answerWf_next]
  split
  · dsimp only
    split
    · exact hs
    · split
      · simp [State.mem_of_eq ‹State.readPieces _ _ _ = _›, hs]
      · split <;> simp [State.mem_of_eq ‹State.readPieces _ _ _ = _›, hs, apply_ite State.mem]
  · exact hs

theorem State.finish_wf {s : State} (hs : s.mem.wf = true) (op : LongOp) (ok : Bool) : FinishWf (s.finish op ok) := by
  unfold State.finish
  dsimp only
  split
  -- A restore ends with a second value beside its state.
  case h_11 =>
    split <;> simp [State.mem_of_eq ‹s.restoreEnds _ _ = _›, hs]
  all_goals (repeat' split) <;> simp [hs]

@[simp] theorem execLongOperationComplete_wf {s : State} (hs : s.mem.wf = true) (ok : Bool) :
    AnswerWf (execLongOperationComplete ok s) := by
  unfold execLongOperationComplete
  rw [answerWf_next]
  split
  · exact hs
  · split
    · exact hs
    · next hf =>
      have ht := State.finish_wf hs _ ok _ _ hf
      dsimp only
      split <;> simp [ht]

/-! ## Sys2Proof/Machine/Power.lean -/

@[simp] theorem State.smbWrite_wf {s t : State} (hs : s.mem.wf = true) (ht : t.mem.wf = true) (ok : Bool) :
    (s.smbWrite ok t).mem.wf = true := by
  unfold State.smbWrite
  split
  · exact hs
  · split <;> simp [hs, ht]

/-! ## Sys2Proof/Machine/Wire.lean -/

@[simp] theorem after_wf {s : State} {a : Answer} (hs : s.mem.wf = true) (ha : AnswerWf a) :
    (after a s).mem.wf = true := by
  unfold after
  split
  · next t => exact ha t rfl
  · exact hs

@[simp] theorem State.hearMessage_wf {s : State} (hs : s.mem.wf = true) (x : Joining) :
    (s.hearMessage x).mem.wf = true := by
  unfold State.hearMessage
  split <;> simp [hs]

@[simp] theorem State.readInbox_wf {s : State} (hs : s.mem.wf = true) : s.readInbox.mem.wf = true := by
  unfold State.readInbox
  exact foldl_wf (fun _ _ h => by simp [h]) _ hs

@[simp] theorem State.takePacket_wf {s : State} (hs : s.mem.wf = true) (k : BitVec 5) (ty : Nat) (p : Packet) :
    (s.takePacket k ty p).mem.wf = true := by
  unfold State.takePacket
  (repeat' split) <;> simp [hs]

@[simp] theorem execFlitReceive_wf {s : State} (hs : s.mem.wf = true) (k : BitVec 5) (x : Flit) :
    AnswerWf (execFlitReceive k x s) := by
  unfold execFlitReceive
  dsimp only
  rw [answerWf_next]
  split
  · exact hs
  · exact State.readInbox_wf (foldl_wf (fun s p hs => State.takePacket_wf hs _ _ _) _ (by simp [hs]))

/-! ## Sys2Proof/Machine/Registers.lean -/

@[simp] theorem State.writeTile_wf {s : State} (hs : s.mem.wf = true) (t off : Nat) (v : BitVec 32) :
    (s.writeTile t off v).mem.wf = true := by
  unfold State.writeTile
  dsimp only
  (repeat' split) <;> simp [hs]

@[simp] theorem State.writeWord_wf {s : State} (hs : s.mem.wf = true) (w : Writer) (b : RegBlock) (off : Nat)
    (v : BitVec 32) : (s.writeWord w b off v).mem.wf = true := by
  unfold State.writeWord
  split
  · simp [hs]
  · simp [hs]
  · simp [hs]
  · simp [hs]
  · split <;> simp [hs]

@[simp] theorem execRegisterWrite_wf {s : State} (hs : s.mem.wf = true) (w : Writer) (addr : BitVec 48)
    (value : BitVec 64) (wide : Bool) : AnswerWf (execRegisterWrite w addr value wide s) := by
  unfold execRegisterWrite
  extract_lets a
  generalize (if wide then 8 else 4) = bytes
  rw [answerWf_next]
  split
  · exact hs
  · split
    · split <;> simp [hs]
    · split <;> simp [hs]

/-! ## Sys2Proof/Machine/Tick.lean -/

@[simp] theorem State.endBeat_wf {s : State} (hs : s.mem.wf = true) : s.endBeat.mem.wf = true := by
  simp [State.endBeat, hs]

@[simp] theorem State.background_wf {s : State} (hs : s.mem.wf = true) : s.background.mem.wf = true := by
  unfold State.background
  refine State.zeroiseStep_wf ?_
  rw [State.retryCommit_mem, State.sendIdle_mem]
  refine State.readInbox_wf (State.asyncWork_wf ?_)
  rwa [State.runScripts_mem, State.selectRedrawn_mem, State.refreshAlive_mem]

@[simp] theorem State.tick_wf {s : State} (hs : s.mem.wf = true) : s.tick.mem.wf = true := by
  unfold State.tick
  split
  · exact hs
  · split
    · exact hs
    · extract_lets u beat cycle work
      have hcycle : cycle.mem.wf = true := by
        have hb : beat.mem.wf = true := State.endBeat_wf hs
        unfold cycle
        split
        · simp [hb]
        · split <;> simp [hb]
      have hwork : work.mem.wf = true := by
        unfold work
        rw [State.drainPorts_mem, State.watchHold_mem]
        exact State.background_wf (by simpa using hcycle)
      split <;> simp [hwork]

end Sys2Proof.Machine
end

section
/-!
O59: a step keeps the memory canonical, by the command that it executes or by the tick of an empty queue.
-/
namespace Sys2Proof.Machine

/-- Every command keeps the memory canonical: those of the first three groups touch it only through operations of the
layers above, without a branch, with branches, or with branches under a shared value; those of the fourth through the
body of a mailbox command; and each of the rest has a lemma of its own. -/
theorem exec_wf {s : State} (hs : s.mem.wf = true) (c : Instr) : AnswerWf (exec c s) := by
  cases c with
  | mma | ldw | mov | fadd | fsub | fmul | fma | fmax | fmin | fabs | fneg | fcmpgt | fcmpeq | sel | exp | log | tanh
    | sigm | rsqrt | iadd | isub | imul | and_ | or_ | xor | shl | shr | sar | rot | cvtn | cvtw | rng | xclr | xadd
    | xsum | xrd | xout | xin | dadd | dsub | dmul | dfma | f2d | d2f | ld | st | ldv | stv | ocw | pget | pput | gpost
    | take | tap | drive | move | loop | loopEnd | jump | idle | endProgram | tadd | tsub | wait | drain | farm | agset
    | agadd | eopen | eres | vbr | tsig | gen | scriptNop | scriptLi | scriptLih | scriptAdd | scriptSub | scriptMuli
    | scriptAnd | scriptShl | scriptShr | scriptModu | scriptHash | scriptLd8 | scriptLdrow | scriptProbe | scriptXw
    | scriptNsamp | scriptSetrow | scriptBclr | scriptBadd | scriptBmax | scriptBdiv | scriptEmitb | scriptEmitw
    | scriptEmitx | scriptSt8 | scriptRadd | scriptBeq | scriptBne | scriptBltu | scriptJmp | scriptEnd | write
    | readReq | readReply | ring | signal | ack | ret | refuse | mcast | reconcileAsk | enrolBind | enrolUnbind
    | enrolClient | enrolRevoke | enumId | smbCap | smbHalt | smbStatus | capWrite | warm | smbState | powerLoss
    | reservedOpcodeIssue =>
    refine (answerWf_next _).mpr ?_
    simp [hs]
  | weightLoadComplete | passSettle | vResultComplete | streamWordArrival | idleExpiry | referenceLoss | measure
    | beaconTimeout | tillOperationApply | tillWriteJtag | shadowActivation | refresh | tempSample | retryTimeout
    | heartbeat | packetForward | linkNonce | death | expelled | commit | sealReport | heartbeatSend | isolation
    | pauseFrame | replayStart | lockstepMismatch | sealDue | sealComplete | enumAssign | pwr | temps | pgoodTimeout
    | strapSample | bringupTimeout | programReset | lreset | clear | tallyEventSelect | tallyLatch | tallySample | nop
    | undervoltageDip | portDown | requestLineRead | fallowBankPowerDown | bankWakeComplete | heldOperationRelease
    | capturedWordRelease | holdTimeout | measureComplete | timeStep | farmArrival | blockIssue | pputAck
    | unscheduledAccessGrant | hotClear | postActivate | itemStart | postResultDelivery | postComplete | ringMessageSend
    | signalApply | linkDown | linkTraining | planCheck | planAnswer | report | map | resume | frameReceive | init
    | handshakeTimeout | sessionTimeout | outboxMessage | programEndTickets | patchAssemblyTimeout | firmwareAbort
    | bulkCopyComplete | enable =>
    refine (answerWf_next _).mpr ?_
    (repeat' split) <;> simp [hs]
  | waitSample | drainSample | holdStop | holdRestart | stretch | relockComplete | ptpEventMessage | tagHome | dramScrub
    | coinCount | linkProof | coinHalf | ringEndCheck | finish | linkReset | powerCapStep | thermalStepDown
    | thermalStepUp | thermalHold | thermalHoldRelease | trip | spareCopyComplete =>
    refine (answerWf_next _).mpr ?_
    dsimp only
    (repeat' split) <;> simp [hs]
  | query | lastResult | readHalt | stage | arm | start | replay | setHeathId | setPort | heathTablesRoute
    | heathTablesDevmap | heathTablesSelect | channelClose | ringEndOpen | fallow | tillsRead | tillsSet | readTallies
    | snapshotTake | snapshotList | snapshotSpare | snapshotTwin | attest | zeroise | prepareReturn | reset =>
    exact (answerWf_next _).mpr (State.command_wf hs _ _ fun s hs => by simp [hs])
  | scratchpadWriteLand t => exact execScratchpadWriteLand_wf hs t
  | spineSetSwitch => exact execSpineSetSwitch_wf hs
  | escrowSwap f row g => exact execEscrowSwap_wf hs f row g
  | beacon full missed => exact execBeacon_wf hs full missed
  | pgetReply t n => exact execPgetReply_wf hs t n
  | scrub t line => exact execScrub_wf hs t line
  | scriptAccessComplete k post item second => exact execScriptAccessComplete_wf hs k post item second
  | spillDepart chan => exact execSpillDepart_wf hs chan
  | atillApply die index => exact execAtillApply_wf hs die index
  | flitReceive k x => exact execFlitReceive_wf hs k x
  | reconcileAnswer c chan first completed returned => exact execReconcileAnswer_wf hs c chan first completed returned
  | spareJoin c logical image step plan => exact execSpareJoin_wf hs c logical image step plan
  | deathDeclaration phys => exact execDeathDeclaration_wf hs phys
  | request h x => exact execRequest_wf hs h x
  | keepalive h => exact execKeepalive_wf hs h
  | close h => exact execClose_wf hs h
  | ledger h start => exact execLedger_wf hs h start
  | patchMessage h x => exact execPatchMessage_wf hs h x
  | loadImage f addr length logical digest => exact execLoadImage_wf hs f addr length logical digest
  | patch f x => exact execPatch_wf hs f x
  | stop f reset => exact execStop_wf hs f reset
  | hold f hold => exact execHold_wf hs f hold
  | setStep f step => exact execSetStep_wf hs f step
  | channelOpen f chan entry remote => exact execChannelOpen_wf hs f chan entry remote
  | ringEndClose f index remoteClosed => exact execRingEndClose_wf hs f index remoteClosed
  | snapshotPlan f plan => exact execSnapshotPlan_wf hs f plan
  | restore f step => exact execRestore_wf hs f step
  | enrolOwner f x osigA osigB => exact execEnrolOwner_wf hs f x osigA osigB
  | updateFw f addr length esig osig => exact execUpdateFw_wf hs f addr length esig osig
  | longOperationComplete ok => exact execLongOperationComplete_wf hs ok
  | bulkCopy => exact execBulkCopy_wf hs
  | snapshotDrainComplete => exact execSnapshotDrainComplete_wf hs
  | powerOn o => exact execPowerOn_wf hs o
  | warmReset o => exact execWarmReset_wf hs o
  | registerWrite w addr value wide => exact execRegisterWrite_wf hs w addr value wide

end Sys2Proof.Machine

open Sys2Proof Sys2Proof.Machine

/-- Settles O59, by the command in front of the queue or the tick. -/
theorem stepsKeepMemoryCanonical : Obligations.StepsKeepMemoryCanonical := by
  intro s s' hs h
  unfold step at h
  split at h
  · cases h
    split
    · exact hs
    · exact State.tick_wf hs
  · next c rest _ => exact exec_wf (s := { s with pending := rest }) hs c s' h
end

section
/-!
O12: what TAKE, TAP, DRIVE, MOVE and the arrival of a word do when nothing stops them.
-/
namespace Sys2Proof.Machine

/-- Marking a track as driven leaves the queue ends that the bundle has popped. -/
theorem Tile.popped_modBundle_driven (x : Tile) (keys : Bundle → List Nat) (q : BitVec 6) :
    (x.modBundle fun b => { b with driven := keys b }).popped q = x.popped q := by
  cases hb : x.bundle <;> simp [Tile.popped, Tile.modBundle, hb]

/-- A take or a tap of a word with the expected stamp pushes the word, and then leaves it only if it is a tap short of
the end of the route. -/
theorem takeIssue_ok {tap : Bool} {v : SSub} {env : IssueEnv} {z x : Tile} {w : Word}
    (rsv : v.rsv = 0) (track : v.track.toNat < 48) (lat : v.lat ≠ 0)
    (once : (z.bundle.any fun b => b.taken.contains (trackKey v.west v.track)) = false)
    (claim : (z.modBundle fun b => { b with taken := trackKey v.west v.track :: b.taken }).claimPush 3
      (v.fin.setWidth 6) = .ok x)
    (word : x.wordAt v.west v.track.toNat = some w)
    (stamp : w.stamp = (env.now - v.lat.setWidth 48).setWidth 3) :
    takeIssue tap v env z =
      (let y := x.put64 env.now 3 (v.fin.setWidth 6) w.data w.mark
       .ok (if tap && !y.marked v.west v.track.toNat
        then { y with taps := (trackKey v.west v.track, v.fin.setWidth 6) :: y.taps }
        else y.setWord v.west v.track.toNat none)) := by
  have form : (v.rsv = 0 && v.track.toNat < 48 && v.lat != 0) = true := by simpa [rsv, track] using lat
  simp only [takeIssue, form, once, Bool.not_false, check_true, except_ok_bind, claim, word, if_pos stamp]

/-- A drive outside the window of a set switch puts the popped word among the cycle's drives. -/
theorem driveIssue_ok {set : BitVec 4} {v : SSub} {env : IssueEnv} {z : Tile} {e : Entry} {es : List Entry}
    (rsv : v.rsv = 0) (track : v.track.toNat < 48) (lat : v.lat = 0)
    (once : (z.bundle.any fun b => b.driven.contains (trackKey v.west v.track)) = false) (window : env.window = false)
    (pop : (z.modBundle fun b => { b with driven := trackKey v.west v.track :: b.driven }).CanPop env.now
      (8 + v.fin.setWidth 6) e es) :
    driveIssue set v env z =
      (let y := (z.modBundle fun b => { b with driven := trackKey v.west v.track :: b.driven }).afterPop
        (8 + v.fin.setWidth 6) e es
       .ok { y with drives := y.drives ++ [(trackKey v.west v.track,
        { data := e.data, stamp := env.now.setWidth 3, set := set,
          spec := if y.speculative env.now then 1 else 0 })] }) := by
  have form : (v.rsv = 0 && v.track.toNat < 48 && v.lat = 0) = true := by simp [rsv, track, lat]
  have fresh : z.popped (8 + v.fin.setWidth 6) = false := by
    rw [← z.popped_modBundle_driven fun b => trackKey v.west v.track :: b.driven]
    exact pop.1
  simp only [driveIssue, form, once, fresh, window, Bool.not_false, Bool.and_self, check_true, except_ok_bind,
    Tile.pop64_ok pop]

/-- A move pushes the word that it popped. -/
theorem moveIssue_ok {m : SMove} {env : IssueEnv} {z x : Tile} {e : Entry} {es : List Entry}
    (rsv : m.rsv = 0) (src : qeSrc64 m.src = true) (dst : qeDst64 m.dst = true)
    (claim : z.claimPush 3 m.dst = .ok x) (pop : x.CanPop env.now m.src e es) :
    moveIssue m env z = .ok ((x.afterPop m.src e es).put64 env.now 3 m.dst e.data) := by
  have form : (m.rsv = 0 && qeSrc64 m.src && qeDst64 m.dst) = true := by simp [rsv, src, dst]
  simp only [moveIssue, form, check_true, except_ok_bind, claim, Tile.pop64_ok pop]

/-- The state in which the word before a spine input of a tile is noted. -/
def State.noteWord (s : State) (t : Nat) (west : Bool) (track : BitVec 6) : State :=
  s.modTile t fun y =>
    match y.wordAt west track.toNat with
    | some w => y.setWord west track.toNat (some { w with noted := true })
    | none => y

/-- The halt of a tile for a word that no spine entry lets go on. -/
def State.untaken (s : State) (t : Nat) (west : Bool) (track : BitVec 6) (x : Transit) : State :=
  { s with fab := { s.fab with transits := s.fab.transits.filter fun z => z != x } }.tileHalt t s.fab.scc
    (s.tile t).iaddr (stampFail 2 0 x.word.stamp track.toNat west)

/-- An arrival notes the word at the tile, and then halts for a word that goes astray there. -/
theorem State.arrive_eq (s : State) (t : Nat) (west : Bool) (track : BitVec 6) :
    s.arrive t west track =
      match (s.noteWord t west track).strayOf t west track with
      | some x => (s.noteWord t west track).untaken t west track x
      | none => s.noteWord t west track := rfl

/-- In a running cycle the arrival of a word happens at the tile. -/
theorem runs_streamWordArrival {s : State} {t : TileNo} (west : Bool) (track : BitVec 6) (run : s.running = true)
    (tile : tileIn s.grade t.toNat = true) :
    Runs (.streamWordArrival t west track) s (s.arrive t.toNat west track) := by
  change execStreamWordArrival t west track s = _
  rw [execStreamWordArrival, if_pos (by rw [run, tile]; rfl)]

/-- An operation whose body passes its checks issues with the tile that the body gives. -/
theorem issues_of_ok {c : Instr} {s : State} {t : TileNo} {slot : Nat} {body : IssueEnv → Tile → Except Failure Tile}
    {uses : Bundle → Bundle} {y : Tile} (h : SlotOpen s t slot) (hc : exec c s = .next (s.issue t slot body uses))
    (hb : body (s.issueEnv t.toNat) (s.slotTile t.toNat slot) = .ok y) : Issues c s t y :=
  hc.trans (by rw [State.issue_ok h hb])

end Sys2Proof.Machine

open Sys2Proof Sys2Proof.Machine

/-- Settles O12, one clause per operation and one for the arrival of a word. -/
theorem streamOperationsComplete : Obligations.StreamOperationsComplete := by
  intro s t
  refine ⟨fun h v rsv track => ⟨fun w x lat once claim word stamp => ?_, fun e es lat once window pop => ?_⟩,
    fun h m x e es rsv src dst claim pop => ?_, fun west track run tile => ⟨fun stray => ?_, fun y stray => ?_⟩⟩
  · have issued (tap : Bool) := takeIssue_ok (tap := tap) (env := s.issueEnv t.toNat) rsv track lat once claim word stamp
    refine ⟨issues_of_ok h rfl (issued false), fun ends => issues_of_ok h rfl ((issued true).trans ?_),
      fun goes => issues_of_ok h rfl ((issued true).trans ?_)⟩
    · simp only [issueEnv_now, ends, Bool.not_true, Bool.and_false, Bool.false_eq_true, if_false]
    · simp only [issueEnv_now, goes, Bool.not_false, Bool.and_self, if_true]
  · exact issues_of_ok h rfl (driveIssue_ok rsv track lat once window pop)
  · exact issues_of_ok h rfl (moveIssue_ok rsv src dst claim pop)
  · change (s.noteWord t.toNat west track).strayOf t.toNat west track = none at stray
    refine (runs_streamWordArrival west track run tile).trans (congrArg _ ?_)
    rw [State.arrive_eq, stray]
    rfl
  · change (s.noteWord t.toNat west track).strayOf t.toNat west track = some y at stray
    refine (runs_streamWordArrival west track run tile).trans (congrArg _ ?_)
    rw [State.arrive_eq, stray]
    rfl
end

section
/-!
O23: the ends that a petty transfer can come to.
-/
namespace Sys2Proof.Machine

/-- A change of a tile leaves the cycle counter. -/
@[simp] theorem State.modTile_fab_scc (s : State) (t : Nat) (f : Tile → Tile) :
    (s.modTile t f).fab.scc = s.fab.scc := by
  unfold State.modTile
  split <;> rfl

/-- A change of a tile leaves the grade. -/
@[simp] theorem State.modTile_grade (s : State) (t : Nat) (f : Tile → Tile) : (s.modTile t f).grade = s.grade := by
  unfold State.modTile
  split <;> rfl

/-- A count of events in a field's fetch tallies leaves the cycle counter. -/
@[simp] theorem State.count_fetch_fab_scc (s : State) (f : BitVec 4) (event qual : BitVec 8) (n : Nat) :
    (s.count (.fetch f) event qual n).fab.scc = s.fab.scc :=
  State.count_keeps (·.fab.scc) (fun _ _ _ => rfl) s event qual n

/-- A count of events in a field's fetch tallies leaves the grade. -/
@[simp] theorem State.count_fetch_grade (s : State) (f : BitVec 4) (event qual : BitVec 8) (n : Nat) :
    (s.count (.fetch f) event qual n).grade = s.grade :=
  State.count_keeps State.grade (fun _ _ _ => rfl) s event qual n

/-- The end of a transfer leaves the cycle counter. -/
@[simp] theorem State.pettyDone_fab_scc (s : State) (t : Nat) (n : BitVec 32) (burned : Bool) :
    (s.pettyDone t n burned).fab.scc = s.fab.scc := by
  simp [State.pettyDone]

/-- The end of a transfer leaves what the failure of a transfer is. -/
@[simp] theorem State.pettyDone_pettyFailure (s : State) (t : Nat) (n : BitVec 32) (burned : Bool) (e : Nat × Nat) :
    (s.pettyDone t n burned).pettyFailure e = s.pettyFailure e := by
  simp [State.pettyFailure, State.pettyDone]

section
variable {s : State} {t : TileNo} {n : BitVec 32} {p : Petty} (here : s.pettyOf t.toNat n = some p) (due : p.phase = 1)
include here due

/-- A burned PGET whose lines are all in is dropped. -/
theorem runs_pgetReply_burned (get : p.put = false) (burned : p.burn = true) (all : p.left = 0) :
    Runs (.pgetReply t n) s (s.pettyDone t.toNat n true) := by
  change execPgetReply t n s = _
  simp [execPgetReply, here, get, due, burned, all]

/-- A PGET that met an error halts its tile. -/
theorem runs_pgetReply_failed {e : Nat × Nat} (get : p.put = false) (burned : p.burn = false)
    (err : p.err = some e) :
    Runs (.pgetReply t n) s
      ((s.pettyDone t.toNat n false).tileHalt t.toNat s.fab.scc p.iaddr (s.pettyFailure e)) := by
  change execPgetReply t n s = _
  simp [execPgetReply, here, get, due, burned, err]

/-- A PGET without error whose lines are all in has the bytes that its channel gives. -/
theorem runs_pgetReply_of_bytes {s' : State} {bs : List Byte} (get : p.put = false) (burned : p.burn = false)
    (err : p.err = none) (all : p.left = 0)
    (bytes : (if p.chan.toNat = localChan then s.localGet p else (s, some p.lineBytes)) = (s', some bs)) :
    Runs (.pgetReply t n) s (s'.getReplied t.toNat n bs) := by
  change execPgetReply t n s = _
  simp [execPgetReply, here, get, due, burned, err, all, bytes]

/-- A PPUT whose write and signal are done is no longer outstanding. -/
theorem runs_pputAck_done (put : p.put = true) (err : p.err = none) (all : p.left = 0) (sig : p.sig = none) :
    Runs (.pputAck t n) s (s.pettyDone t.toNat n false) := by
  change execPputAck t n s = _
  simp [execPputAck, here, put, due, err, all, sig]

/-- A PPUT that met an error is no longer outstanding, and halts its tile unless a fallow bank refused it. -/
theorem runs_pputAck_failed {e : Nat × Nat} (put : p.put = true) (err : p.err = some e) :
    Runs (.pputAck t n) s
      (if e.1 = 2 then s.pettyDone t.toNat n false
       else (s.pettyDone t.toNat n false).tileHalt t.toNat s.fab.scc p.iaddr (s.pettyFailure e)) := by
  change execPputAck t n s = _
  simp [execPputAck, here, put, due, err]

end

/-- A PGET of the scratchpads gives the bytes of the lines that came for it. -/
theorem State.localGet_pad {s : State} {p : Petty} {u o : Nat} (h : place s.grade true p.addr.toNat = .pad u o) :
    s.localGet p = (s, some p.lineBytes) := by
  simp only [State.localGet, h]

/-- A PGET of a stack gives the bytes that its bank reads. -/
theorem State.localGet_dram {s s' : State} {p : Petty} {k b : Nat} {bs : List Byte}
    (h : place s.grade true p.addr.toNat = .dram k b) (read : s.dramRead k b p.len.toNat = (s', some bs)) :
    s.localGet p = (s', some bs) := by
  simp only [State.localGet, h, read]

end Sys2Proof.Machine

open Sys2Proof Sys2Proof.Machine

/-- Settles O23, a clause for each end that a petty transfer can come to. -/
theorem pettyTransfersComplete : Obligations.PettyTransfersComplete := by
  intro s t n p here
  refine ⟨fun get due => ⟨fun burned all => runs_pgetReply_burned here due get burned all,
    fun burned err all => ⟨fun remote => ?_, fun u o near pad => ?_, fun k b s' bs near dram read => ?_⟩,
    fun e burned err => runs_pgetReply_failed here due get burned err⟩,
    fun put due => ⟨fun err all sig => runs_pputAck_done here due put err all sig,
      fun e err => ⟨fun fallow => ?_, fun other => ?_⟩⟩⟩
  · exact runs_pgetReply_of_bytes here due get burned err all (if_neg remote)
  · exact runs_pgetReply_of_bytes here due get burned err all ((if_pos near).trans (State.localGet_pad pad))
  · exact runs_pgetReply_of_bytes here due get burned err all ((if_pos near).trans (State.localGet_dram dram read))
  · simpa only [if_pos fallow] using runs_pputAck_failed here due put err
  · simpa only [if_neg other] using runs_pputAck_failed here due put err
end

section
/-!
SUPPORT. Commands whose next state depends on a condition, runs of changes that keep a part of the state, and what a count of
events changes.
-/
namespace Sys2Proof.Machine

/-- A command whose next state depends on a condition runs to the state of the side that holds. -/
theorem runs_of_pos {p : Prop} [Decidable p] {c : Instr} {s a b : State} (h : Runs c s (if p then a else b)) (hp : p) :
    Runs c s a := by
  rwa [if_pos hp] at h

/-- The same for a condition that fails. -/
theorem runs_of_neg {p : Prop} [Decidable p] {c : Instr} {s a b : State} (h : Runs c s (if p then a else b)) (hp : ¬ p) :
    Runs c s b := by
  rwa [if_neg hp] at h

/-- A run of changes that each keep a part of the state keeps it. -/
theorem foldl_keeps {α β : Type} (g : State → β) {f : State → α → State} (h : ∀ s a, g (f s a) = g s) (l : List α)
    (s : State) : g (l.foldl f s) = g s := by
  induction l generalizing s with
  | nil => rfl
  | cons a l ih => rw [List.foldl_cons, ih, h]

/-- Outside the tiles a count of events changes the table of tallies only. -/
theorem State.count_eq {u : TallyUnit} (h : ∀ t, u ≠ .tile t) (s : State) (event qual : BitVec 8) (n : Nat) :
    ∃ m, s.count u event qual n = { s with stew := { s.stew with tallies := m } } := by
  unfold State.count
  induction List.range (tallyCount u) generalizing s with
  | nil => exact ⟨s.stew.tallies, rfl⟩
  | cons i is ih =>
    rw [List.foldl_cons]
    dsimp only
    split
    · exact ih s
    · obtain ⟨m, hm⟩ : ∃ m, s.setTally u i ((s.getTally u i).note event qual n)
          = { s with stew := { s.stew with tallies := m } } := by
        cases u with
        | tile t => exact absurd rfl (h t)
        | _ => exact ⟨_, rfl⟩
      rw [hm]
      exact ih _

end Sys2Proof.Machine
end

section
/-!
O52: the beacons that distribute the time counter, the value that a consumer rebuilds from them, and the stamps of PTP event
messages.
-/
namespace Sys2Proof.Machine

/-! ## The value that a short beacon gives -/

/-- From a valid value less than 2^31 ns away a short beacon gives the counter's value (R53). -/
theorem rebuild_setWidth {v t : BitVec 64} (lo : -(2 ^ 31) ≤ (t - v).toInt) (hi : (t - v).toInt < 2 ^ 31) :
    rebuild v (t.setWidth 32) = t := by
  have diff : (t.setWidth 32 - v.setWidth 32).signExtend 64 = t - v := by
    have low : t.setWidth 32 - v.setWidth 32 = (t - v).setWidth 32 := by
      apply BitVec.eq_of_toNat_eq
      simp only [BitVec.toNat_sub, BitVec.toNat_setWidth]
      omega
    apply BitVec.eq_of_toInt_eq
    rw [low, BitVec.toInt_signExtend_of_le (by decide), BitVec.toInt_setWidth]
    rw [BitVec.toInt_eq_toNat_bmod] at lo hi ⊢
    rw [← Int.bmod_bmod_of_dvd (show 2 ^ 32 ∣ 2 ^ 64 by decide)]
    exact Int.bmod_eq_of_le lo hi
  rw [rebuild, diff, add_sub_cancel]

/-- The signed difference of the low 32 bits, added to the value (R53). -/
theorem rebuild_eq (v : BitVec 64) (b : BitVec 32) {d : Nat} (diff : d = (b.toNat + 2 ^ 32 - v.toNat % 2 ^ 32) % 2 ^ 32) :
    rebuild v b = if d < 2 ^ 31 then v + BitVec.ofNat 64 d else v - BitVec.ofNat 64 (2 ^ 32 - d) := by
  have low : (b - v.setWidth 32).toNat = d := by
    rw [diff, BitVec.toNat_sub, BitVec.toNat_setWidth]
    omega
  have small : d < 2 ^ 32 := diff ▸ Nat.mod_lt _ (by decide)
  apply BitVec.eq_of_toNat_eq
  rw [rebuild, BitVec.toNat_add, BitVec.toNat_signExtend, BitVec.toNat_setWidth, BitVec.msb_eq_decide, low]
  by_cases near : d < 2 ^ 31
  · have clear : ¬ 2 ^ (32 - 1) ≤ d := by omega
    simp only [near, clear, decide_false, Bool.false_eq_true, if_false, if_true, BitVec.toNat_add, BitVec.toNat_ofNat]
    omega
  · have set : 2 ^ (32 - 1) ≤ d := by omega
    simp only [near, set, decide_true, if_false, if_true, BitVec.toNat_sub, BitVec.toNat_ofNat]
    omega

/-- A small error adds to a signed difference that is far from the ends of its range. -/
theorem toInt_add_ofInt {x : BitVec 64} {e : Int} (lo : -(2 ^ 30) ≤ x.toInt) (hi : x.toInt ≤ 2 ^ 30) (elo : -4 ≤ e)
    (ehi : e ≤ 4) : (x + BitVec.ofInt 64 e).toInt = x.toInt + e := by
  have err : e.bmod (2 ^ 64) = e := Int.bmod_eq_of_le (by omega) (by omega)
  rw [BitVec.toInt_add, BitVec.toInt_ofInt, err]
  exact Int.bmod_eq_of_le (by omega) (by omega)

/-- A valid value within 2^30 ns of the counter becomes by a short beacon the counter's value as read. -/
theorem rebuild_near {v t : BitVec 64} {e : Int} (lo : -(2 ^ 30) ≤ (t - v).toInt) (hi : (t - v).toInt ≤ 2 ^ 30)
    (elo : -4 ≤ e) (ehi : e ≤ 4) :
    rebuild v ((t + BitVec.ofInt 64 e).setWidth 32) = t + BitVec.ofInt 64 e := by
  have diff : (t + BitVec.ofInt 64 e - v).toInt = (t - v).toInt + e := by
    rw [add_sub_right_comm, toInt_add_ofInt lo hi elo ehi]
  exact rebuild_setWidth (by omega) (by omega)

/-- The reading error lies within ±4 ns (R52). -/
theorem beaconErr_bounds (n : Nat) : ∃ e : Int, -4 ≤ e ∧ e ≤ 4 ∧ beaconErr n = BitVec.ofInt 64 e :=
  ⟨_, by omega, by omega, rfl⟩

/-! ## The beacon at every consumer -/

/-- What consumer `d` holds. -/
abbrev State.consumer (s : State) (d : Nat) : Consumer := Sparse.get {} s.clk.consumers d

/-- The consumers that a beacon reaches when those of `missed` do not receive it (R53). -/
def State.beaconHearers (s : State) (missed : List (BitVec 7)) : List Nat :=
  (List.range 100).filter fun d => isConsumer s.grade d && !(missed.any fun m => m.toNat = d)

/-- The state after the beacon that is due. -/
def State.beaconSent (s : State) (missed : List (BitVec 7)) : State :=
  (s.beaconHearers missed).foldl (fun z d => z.beaconAt s.beaconFull d)
    { s with clk := { s.clk with beacons := s.beaconSlot } }

/-- A beacon of the kind that is due goes to every consumer that does not miss it (R52, R53). -/
theorem runs_beacon {s : State} (missed : List (BitVec 7)) (due : s.beaconDue = true) :
    Runs (.beacon s.beaconFull missed) s (s.beaconSent missed) := by
  change execBeacon s.beaconFull missed s = _
  simp only [execBeacon, due, Bool.not_true, bne_self_eq_false, Bool.or_self, Bool.false_eq_true, if_false]
  rfl

/-- Whatever the beacon leaves at each consumer, and the count of beacons does not touch, it leaves. -/
theorem State.beaconSent_keeps {β : Type} (g : State → β) (s : State) (missed : List (BitVec 7))
    (each : ∀ (z : State) (full : Bool) (d : Nat), g (z.beaconAt full d) = g z) :
    g (s.beaconSent missed) = g { s with clk := { s.clk with beacons := s.beaconSlot } } :=
  foldl_keeps g (fun z d => each z _ d) _ _

/-- At each consumer of a list without repetitions the beacon arrives once, and at no other. -/
theorem State.foldl_beaconAt_consumer (full : Bool) (ds : List Nat) (once : ds.Nodup) (s : State) (d : Nat) :
    ∃ e : Int, -4 ≤ e ∧ e ≤ 4 ∧ (ds.foldl (fun z d => z.beaconAt full d) s).consumer d =
      if d ∈ ds then (s.consumer d).take full (s.now + BitVec.ofInt 64 e) s.clk.clk else s.consumer d := by
  induction ds generalizing s with
  | nil => exact ⟨0, by decide, by decide, rfl⟩
  | cons c ds ih =>
    obtain ⟨new, once⟩ := List.nodup_cons.mp once
    obtain ⟨e, lo, hi, rest⟩ := ih once (s.beaconAt full c)
    have first : (s.beaconAt full c).consumer d =
        if d = c then (s.consumer c).take full (s.now + beaconErr s.fresh) s.clk.clk else s.consumer d :=
      Sparse.get_set _ _ _ _ _
    rw [List.foldl_cons, rest, first]
    by_cases here : d = c
    · subst here
      obtain ⟨e, lo, hi, err⟩ := beaconErr_bounds s.fresh
      exact ⟨e, lo, hi, by simp [new, err]⟩
    · exact ⟨e, lo, hi, by simp only [here, List.mem_cons, false_or, if_false]; rfl⟩

/-- Every consumer's number is below 100. -/
theorem isConsumer_lt {grade : BitVec 2} {d : Nat} (h : isConsumer grade d = true) : d < 100 := by
  simp only [isConsumer, Bool.or_eq_true, decide_eq_true_eq, List.any_eq_true, List.mem_range,
    Bool.and_eq_true] at h
  rcases h with h | ⟨k, hk, -, h⟩
  · omega
  · unfold linkDomain at h
    omega

/-- A consumer hears the beacon unless it misses it. -/
theorem State.mem_beaconHearers {s : State} {missed : List (BitVec 7)} {d : BitVec 7}
    (consumer : isConsumer s.grade d.toNat = true) : d.toNat ∈ s.beaconHearers missed ↔ d ∉ missed := by
  have other : (missed.any fun m => m.toNat = d.toNat) = false ↔ d ∉ missed := by
    simp only [List.any_eq_false, decide_eq_true_eq, BitVec.toNat_inj]
    exact ⟨fun h misses => h d misses rfl, fun h m hm same => h (same ▸ hm)⟩
  rw [← other]
  simp only [State.beaconHearers, List.mem_filter, List.mem_range, isConsumer_lt consumer, consumer, true_and,
    Bool.true_and, Bool.not_eq_true']

/-- A consumer that the beacon reaches takes the counter's value as it reads it, within 4 ns. -/
theorem State.beaconSent_heard {s : State} {missed : List (BitVec 7)} {d : BitVec 7}
    (consumer : isConsumer s.grade d.toNat = true) (heard : d ∉ missed) :
    ∃ e : Int, -4 ≤ e ∧ e ≤ 4 ∧ (s.beaconSent missed).consumer d.toNat =
      (s.consumer d.toNat).take s.beaconFull (s.now + BitVec.ofInt 64 e) s.clk.clk := by
  obtain ⟨e, lo, hi, h⟩ := State.foldl_beaconAt_consumer s.beaconFull (s.beaconHearers missed)
    (List.nodup_range.filter _) { s with clk := { s.clk with beacons := s.beaconSlot } } d.toNat
  rw [if_pos ((State.mem_beaconHearers consumer).mpr heard)] at h
  exact ⟨e, lo, hi, h⟩

/-- A consumer that misses the beacon keeps what it holds. -/
theorem State.beaconSent_missed {s : State} {missed : List (BitVec 7)} {d : BitVec 7}
    (consumer : isConsumer s.grade d.toNat = true) (misses : d ∈ missed) :
    (s.beaconSent missed).consumer d.toNat = s.consumer d.toNat := by
  obtain ⟨e, -, -, h⟩ := State.foldl_beaconAt_consumer s.beaconFull (s.beaconHearers missed)
    (List.nodup_range.filter _) { s with clk := { s.clk with beacons := s.beaconSlot } } d.toNat
  rwa [if_neg fun heard => (State.mem_beaconHearers consumer).mp heard misses] at h

/-- A full beacon gives its value. -/
theorem Consumer.take_full (c : Consumer) (t : BitVec 64) (clk : Nat) :
    c.take true t clk = { value := t, valid := true, lastBeacon := clk } := rfl

/-- From a short beacon a valid value is rebuilt. -/
theorem Consumer.take_short_valid {c : Consumer} (h : c.valid = true) (t : BitVec 64) (clk : Nat) :
    c.take false t clk = { c with value := rebuild c.value (t.setWidth 32), lastBeacon := clk } := by
  simp [Consumer.take, h]

/-- Without a valid value a short beacon says nothing. -/
theorem Consumer.take_short_invalid {c : Consumer} (h : c.valid = false) (t : BitVec 64) (clk : Nat) :
    c.take false t clk = c := by
  simp [Consumer.take, h]

/-! ## Time-outs and steps of the time -/

/-- A consumer without a beacon for 2^31 ns loses its value (R53). -/
theorem runs_beaconTimeout {s : State} {d : BitVec 7} (valid : (s.consumer d.toNat).valid = true)
    (late : (s.consumer d.toNat).lastBeacon + 2 ^ 31 * nsUnits ≤ s.clk.clk) :
    Runs (.beaconTimeout d) s { s with clk := { s.clk with
      consumers := Sparse.set {} s.clk.consumers d.toNat { s.consumer d.toNat with valid := false } } } := by
  change execBeaconTimeout d s = _
  simp only [execBeaconTimeout, State.passed, valid, late, decide_true, Bool.and_self, if_true]

/-- TIME_STEP adds its offset to the time unless the offset is negative and a ledger record stands (R55, R56). -/
theorem runs_timeStep {s : State} {w : Writer} (o : BitVec 64) (reaches : s.reaches w = true) :
    Runs (.timeStep w o) s (if s.clk.monotonic && o.msb then { s with clk := { s.clk with stepRefused := true } }
      else { s with clk := { s.clk with time := s.clk.time + (o.setWidth 96 <<< 32), valid := true } }) := by
  change execTimeStep w o s = _
  simp only [execTimeStep, reaches, Bool.not_true, Bool.false_eq_true, if_false]

/-! ## PTP event messages -/

/-- The state with the servo's report on its lock, which comes with a PTP event message. -/
def State.ptpLock (s : State) (locked : Bool) : State :=
  { s with clk := { s.clk with ptpLocked := locked, valid := s.clk.valid || locked } }

/-- The stamp of a PTP event message at a port: its consumer's value, less the latency of its mode (R397). -/
def State.ptpStamp (s : State) (port : Bool) : BitVec 64 :=
  (s.consumer (90 + port.toNat)).value - (Sparse.get 0 s.house.phy (portMode (s.subPort port 0).cfg)).setWidth 64

section
variable {s : State} {port : Bool} {sub : BitVec 2} (kind : PtpKind) (oneStep locked : Bool)
  (present : s.subIn port sub = true) (up : (s.subPort port sub).up = true)
include present up

/-- A port without a valid value takes no stamp. -/
theorem runs_ptpEventMessage_unstamped (sent : Bool) (invalid : (s.consumer (90 + port.toNat)).valid = false) :
    Runs (.ptpEventMessage port sub kind sent oneStep locked) s (s.ptpLock locked) := by
  change execPtpEventMessage port sub kind sent oneStep locked s = _
  simp only [execPtpEventMessage, present, up, invalid, Bool.not_true, Bool.not_false, Bool.or_self,
    Bool.false_eq_true, if_false, if_true]
  rfl

variable (valid : (s.consumer (90 + port.toNat)).valid = true)
include valid

/-- The stamp of a received message goes to the steward. -/
theorem runs_ptpEventMessage_received :
    Runs (.ptpEventMessage port sub kind false oneStep locked) s
      ((s.emit (.ptp port sub kind (s.ptpStamp port))).ptpLock locked) := by
  change execPtpEventMessage port sub kind false oneStep locked s = _
  simp only [execPtpEventMessage, present, up, valid, Bool.not_true, Bool.or_self, Bool.false_eq_true, if_false]
  rfl

/-- The stamp of a one-step Pdelay_Resp goes into the message. -/
theorem runs_ptpEventMessage_oneStep :
    Runs (.ptpEventMessage port sub .pdelayResp true true locked) s
      ((s.emit (.ptpOneStep port sub (s.ptpStamp port))).ptpLock locked) := by
  change execPtpEventMessage port sub .pdelayResp true true locked s = _
  simp only [execPtpEventMessage, present, up, valid, Bool.not_true, Bool.or_self, Bool.false_eq_true, if_false]
  rfl

/-- The stamp of any other sent message joins its port's queue while that has room. -/
theorem runs_ptpEventMessage_queued (other : oneStep = false ∨ kind ≠ .pdelayResp)
    (room : (Sparse.get [] s.house.ptpQueue port.toNat).length < 64) :
    Runs (.ptpEventMessage port sub kind true oneStep locked) s
      (State.ptpLock { s with house := { s.house with
        ptpQueue := Sparse.set [] s.house.ptpQueue port.toNat
          (Sparse.get [] s.house.ptpQueue port.toNat ++ [s.ptpStamp port]) } }
        locked) := by
  change execPtpEventMessage port sub kind true oneStep locked s = _
  have queues : (true && oneStep && decide (kind = .pdelayResp)) = false := by
    rcases other with h | h <;> simp [h]
  simp only [execPtpEventMessage, present, up, valid, queues, Nat.not_le.mpr room, Bool.not_true,
    Bool.or_self, Bool.false_eq_true, if_false, if_true]
  rfl

end

/-! ## The clauses -/

/-- The first clause of O52, by the beacon's arrival at each consumer. -/
theorem clauseTimeIsDistributed : Clause.TimeIsDistributed := by
  refine fun s => ⟨fun missed due => ⟨s.beaconSent missed, runs_beacon missed due, ?_, ?_, ?_, ?_, ?_, fun d consumer =>
      ⟨State.beaconSent_missed consumer, fun heard => ?_⟩⟩,
    fun d valid late => runs_beaconTimeout valid late,
    fun w o reaches => ⟨fun taken => ?_, fun refused => ?_⟩,
    fun port sub kind oneStep locked present up valid =>
      ⟨runs_ptpEventMessage_received kind oneStep locked present up valid, fun one => ?_,
        fun other room => runs_ptpEventMessage_queued kind oneStep locked present up valid other room⟩⟩
  · exact State.beaconSent_keeps (·.clk.beacons) s missed fun _ _ _ => rfl
  · exact State.beaconSent_keeps (·.clk.time) s missed fun _ _ _ => rfl
  · exact State.beaconSent_keeps (·.mem) s missed fun _ _ _ => rfl
  · exact State.beaconSent_keeps (·.fab) s missed fun _ _ _ => rfl
  · exact State.beaconSent_keeps (·.house) s missed fun _ _ _ => rfl
  · obtain ⟨e, lo, hi, taken⟩ := State.beaconSent_heard consumer heard
    refine ⟨e, lo, hi, fun full => ?_, fun short valid => ?_, fun short invalid => ?_⟩
    · exact taken.trans (by rw [full, Consumer.take_full])
    · exact taken.trans (by rw [short, Consumer.take_short_valid valid])
    · exact taken.trans (by rw [short, Consumer.take_short_invalid invalid])
  · exact runs_of_neg (runs_timeStep o reaches) (Bool.eq_false_iff.mp taken)
  · exact runs_of_pos (runs_timeStep o reaches) refused
  · subst one
    exact runs_ptpEventMessage_oneStep locked present up valid

/-- The second clause of O52, by the signed difference of the low 32 bits. -/
theorem consumersRebuildTime : Clause.ConsumersRebuildTime := by
  refine ⟨fun v b => rebuild_eq v b rfl, fun v t lo hi => rebuild_setWidth lo hi,
    fun s d missed due short consumer heard => ?_,
    fun s port sub kind sent oneStep locked present up invalid =>
      runs_ptpEventMessage_unstamped kind oneStep locked present up sent invalid,
    fun s d valid late => runs_beaconTimeout valid late, fun d => rfl⟩
  obtain ⟨e, lo, hi, taken⟩ := State.beaconSent_heard consumer heard
  rw [short] at taken
  refine ⟨s.beaconSent missed, short ▸ runs_beacon missed due, fun invalid => ?_, fun valid near far => ?_⟩
  · exact taken.trans (Consumer.take_short_invalid invalid _ _)
  · rw [Consumer.take_short_valid valid, rebuild_near near far lo hi] at taken
    have error : (s.now + BitVec.ofInt 64 e - s.now).toInt = e := by
      rw [add_sub_cancel_left, BitVec.toInt_ofInt]
      exact Int.bmod_eq_of_le (by omega) (by omega)
    refine ⟨congrArg Consumer.lastBeacon taken, (congrArg Consumer.valid taken).trans valid, ?_, ?_⟩
    · exact (congrArg Consumer.value taken) ▸ error.symm ▸ lo
    · exact (congrArg Consumer.value taken) ▸ error.symm ▸ hi

end Sys2Proof.Machine

open Sys2Proof Sys2Proof.Machine

/-- Settles O52, clause by clause. -/
theorem timeIsDistributed : Obligations.TimeIsDistributed :=
  ⟨clauseTimeIsDistributed, consumersRebuildTime⟩
end

section
/-!
O60: the state right after power-on reset.
-/
open Sys2Proof Sys2Proof.Machine

/-- Settles O60: the reset state lists no entry of any table that the statement reads, and every table reads its default. -/
theorem resetIsClean : Obligations.ResetIsClean := by
  have empty {α : Type} (d : α) (k : Nat) : Sparse.get d [] k = d := rfl
  refine ⟨rfl, fun c hc => absurd hc List.not_mem_nil, rfl, rfl, rfl, fun n => empty _ n, fun a => empty _ a, rfl, rfl,
    fun k => ?_, rfl⟩
  have training : (State.reset.link k).st = 1 := congrArg Link.st (empty ({} : Link) k)
  rw [training]
  decide
end

section
/-!
O19: a hold's stop, its restart, its time-out, and the step changes that complete in it.
-/
namespace Sys2Proof.Machine

/-- A step that comes into force changes the clocks' step, and of the rest the steward's tallies only. -/
theorem State.relock_eq (s : State) (n : BitVec 3) : ∃ m, s.relock n =
    { s with stew := { s.stew with tallies := m }
             clk := { s.clk with step := n, target := none, relocked := none } } := by
  unfold State.relock
  split
  · exact ⟨s.stew.tallies, rfl⟩
  · obtain ⟨m, hm⟩ := State.count_eq (u := .steward) nofun s 0xA4 0 1
    exact ⟨m, by rw [hm]⟩

/-- The state that stands at a stop: cycle C − 1 is complete and the island of the largest debt has stopped (R44, R78). -/
def State.held (s : State) : State :=
  let h := s.fab.hold
  { s with fab := { s.fab with hold := { h with
    held := true, stoppedAt := s.wall, stepAt := if h.step then s.wall else h.stepAt, measured := 0, timedOut := false } } }

/-- At the announced cycle the fabric stops, and with a halt every tile does. -/
theorem runs_holdStop {s : State} (going : s.fab.hold.held = false) (now : s.fab.hold.stopAt = some s.fab.scc) :
    Runs .holdStop s (if s.fab.hold.halt then s.held.stopRun else s.held) := by
  have due : s.stopDue = true := by simp only [State.stopDue, going, now, Bool.not_false, decide_true, Bool.and_self]
  change execHoldStop s = _
  simp only [execHoldStop, due, Bool.not_true, Bool.false_eq_true, if_false]
  rfl

/-- The state at a restart, before a cycle begins: every island is free of debt and the step that the hold carries is in force. -/
def State.restarted (s : State) : State :=
  { s with
    fab := { s.fab with hold := { limit := s.fab.hold.limit } }
    clk := { s.clk with islands := s.clk.islands.map fun (x : Nat × Island) =>
      (x.1, { x.2 with debt := 0, slipAsked := false }) } }.applyStep

/-- Where every cause lets it, the hold ends, and cycle C begins once a replay has begun (R45, R78). -/
theorem runs_holdRestart {s : State} (may : s.mayRestart = true) :
    Runs .holdRestart s (if s.restarted.begun then s.restarted.beginCycle else s.restarted) := by
  change execHoldRestart s = _
  simp only [execHoldRestart, may, Bool.not_true, Bool.false_eq_true, if_false]
  rfl

/-- A step that comes into force begins no replay. -/
theorem State.relock_begun (s : State) (n : BitVec 3) : (s.relock n).begun = s.begun := by
  obtain ⟨m, h⟩ := s.relock_eq n
  rw [h]
  rfl

/-- Nor does the step that a hold carries. -/
theorem State.applyStep_begun (s : State) : s.applyStep.begun = s.begun := by
  unfold State.applyStep
  split
  · exact State.relock_begun s _
  · rfl

/-- A restart begins no replay. -/
theorem State.restarted_begun (s : State) : s.restarted.begun = s.begun :=
  State.applyStep_begun _

/-- A hold of HOLD_LIMIT halts the first tile whose wait is not satisfied (R82). -/
theorem runs_holdTimeout {s : State} {w : HeldWait} (held : s.fab.hold.held = true) (first : s.fab.hold.timedOut = false)
    (limited : s.fab.hold.limit ≠ 0) (unmet : s.fab.hold.unmet = true)
    (reached : s.fab.hold.limit.toNat * usUnits ≤ s.fab.hold.measured)
    (waits : firstWait (s.fab.hold.waits.filter fun w => w.metAt.isNone) = some w) :
    Runs .holdTimeout s
      ({ s with fab := { s.fab with hold := { s.fab.hold with timedOut := true } } }.requestHalt w.tile.toNat
        (tileSource w.tile.toNat 4 w.wait.iaddr) s.fab.scc 0x13 0 (w.wait.kind.setWidth 32)) := by
  change execHoldTimeout s = _
  simp only [execHoldTimeout, held, first, limited, unmet, Nat.not_lt.mpr reached, waits, Bool.not_true, Bool.or_self,
    decide_false, Bool.false_eq_true, if_false]

/-- 2 µs after the stop the generators have locked at their target; with a program armed its step waits for the restart
(R48, R441). -/
theorem runs_relockComplete {s : State} (held : s.fab.hold.held = true) (step : s.fab.hold.step = true)
    (locked : s.fab.hold.stepAt + 2 * usUnits ≤ s.clk.clk) :
    let n := s.clk.target.getD s.clk.step
    let z := { s with fab := { s.fab with hold := { s.fab.hold with step := false } } }
    Runs .relockComplete s (if s.noProgram then (z.relock n).answerSteps
      else { z with clk := { z.clk with target := none, relocked := some n } }) := by
  change execRelockComplete s = _
  have due : (s.fab.hold.held && s.fab.hold.step && s.passed s.fab.hold.stepAt (2 * usUnits)) = true := by
    simp only [held, step, State.passed, locked, decide_true, Bool.and_self]
  simp only [execRelockComplete, if_pos due]
  rfl

/-- A step that comes into force is the step of the clocks, and no other change waits. -/
theorem State.relock_clk (s : State) (n : BitVec 3) :
    (s.relock n).clk = { s.clk with step := n, target := none, relocked := none } := by
  obtain ⟨m, h⟩ := s.relock_eq n
  rw [h]

/-- It leaves the fabric. -/
theorem State.relock_fab (s : State) (n : BitVec 3) : (s.relock n).fab = s.fab := by
  obtain ⟨m, h⟩ := s.relock_eq n
  rw [h]

/-- A step that a hold carries comes into force. -/
theorem State.applyStep_some {s : State} {n : BitVec 3} (h : s.clk.relocked = some n) : s.applyStep = s.relock n := by
  rw [State.applyStep, h]

/-- Where the hold carries no step, none changes. -/
theorem State.applyStep_none {s : State} (h : s.clk.relocked = none) : s.applyStep = s := by
  rw [State.applyStep, h]

end Sys2Proof.Machine

open Sys2Proof Sys2Proof.Machine

/-- Settles O19, one command of the hold network after another. -/
theorem holdsStopAndRestart : Obligations.HoldsStopAndRestart := by
  refine fun s => ⟨fun going now => ⟨fun free => ?_, fun halt => ?_⟩, fun may => ⟨fun idle => ?_, fun begun => ?_⟩,
    fun w held first limited unmet reached waits => runs_holdTimeout held first limited unmet reached waits,
    fun held step locked => ⟨fun unarmed => ?_, fun armed => ?_⟩,
    fun n => ⟨by rw [State.relock_clk], by rw [State.relock_clk], by rw [State.relock_clk], State.relock_mem s n,
      by rw [State.relock_fab], State.applyStep_some⟩,
    State.applyStep_none⟩
  · exact runs_of_neg (runs_holdStop going now) (Bool.eq_false_iff.mp free)
  · exact runs_of_pos (runs_holdStop going now) halt
  · exact runs_of_neg (runs_holdRestart may) (Bool.eq_false_iff.mp (s.restarted_begun.trans idle))
  · exact runs_of_pos (runs_holdRestart may) (s.restarted_begun.trans begun)
  · exact runs_of_pos (runs_relockComplete held step locked) (congrArg Bool.not unarmed)
  · exact runs_of_neg (runs_relockComplete held step locked) (Bool.eq_false_iff.mp (congrArg Bool.not armed))
end

section
/-!
O20: what a stretch, the loss of a reference and a margin measurement do to the islands.
-/
namespace Sys2Proof.Machine

/-- The state after a stretch, before its debt asks for anything: the event is counted, and island `d` owes `u` more (R42). -/
def State.stretched (s : State) (d u : Nat) : State :=
  let s := s.count .steward 0xA0 0 1
  let s := if d % 8 < 4 then s.count (.field (BitVec.ofNat 4 (d / 8 * 4 + d % 8))) 0x26 0 1 else s
  s.modIsland d fun x => { x with debt := x.debt + u }

/-- Besides the debt a stretch changes the table of tallies only. -/
theorem State.stretched_eq (s : State) (d u : Nat) : ∃ m, s.stretched d u =
    { s with stew := { s.stew with tallies := m } }.modIsland d fun x => { x with debt := x.debt + u } := by
  obtain ⟨m, hm⟩ := State.count_eq (u := .steward) nofun s 0xA0 0 1
  unfold State.stretched
  rw [hm]
  dsimp only
  split
  · obtain ⟨m', hm'⟩ := State.count_eq (u := .field (BitVec.ofNat 4 (d / 8 * 4 + d % 8))) nofun
      { s with stew := { s.stew with tallies := m } } 0x26 0 1
    exact ⟨m', by rw [hm']⟩
  · exact ⟨m, rfl⟩

/-- Of the clocks a stretch changes the island's debt only. -/
theorem State.stretched_clk (s : State) (d u : Nat) :
    (s.stretched d u).clk = (s.modIsland d fun x => { x with debt := x.debt + u }).clk := by
  obtain ⟨m, h⟩ := s.stretched_eq d u
  rw [h]
  rfl

/-- A stretch leaves the memory. -/
theorem State.stretched_mem (s : State) (d u : Nat) : (s.stretched d u).mem = s.mem := by
  obtain ⟨m, h⟩ := s.stretched_eq d u
  rw [h]
  rfl

/-- The stretched island owes `u` more. -/
theorem State.stretched_debt (s : State) (d u : Nat) : ((s.stretched d u).island d).debt = (s.island d).debt + u := by
  rw [State.island, State.stretched_clk]
  exact congrArg Island.debt (Sparse.get_set_self _ _ _ _)

/-- A stretch of a running island ends the program above a debt of 128/64, and above 96/64 asks for a slip (R43, R44, R46). -/
theorem runs_stretch {s : State} {d : BitVec 7} {u : BitVec 6} (island : islandIn s.grade d.toNat = true)
    (free : s.fab.hold.held = false) (cool : s.power.trip = false) (half : u.toNat ≤ 32) (on : s.power.pgood = true) :
    Runs (.stretch d u) s
      (if 128 < (s.island d.toNat).debt + u.toNat then
        ((s.stretched d.toNat u.toNat).modIsland d.toNat fun x => { x with guardFault := true }).refLost d.toNat true
      else if 96 < (s.island d.toNat).debt + u.toNat then (s.stretched d.toNat u.toNat).requestSlip d.toNat
      else s.stretched d.toNat u.toNat) := by
  change execStretch d u s = _
  rw [← State.stretched_debt]
  simp only [execStretch, island, free, cool, Nat.not_lt.mpr half, on, Bool.not_true, Bool.or_self, decide_false,
    Bool.false_eq_true, if_false]
  rfl

/-- The reference of a domain is lost: a compute island notes it and is no longer locked (R58, R59). -/
theorem runs_referenceLoss {s : State} {d : BitVec 7} (present : domainIn s.grade d.toNat = true)
    (first : (s.island d.toNat).lost = false) :
    Runs (.referenceLoss d) s ((s.modIsland d.toNat fun x =>
      if islandIn s.grade d.toNat then { x with lost := true, refLoss := true, locked := false }
      else { x with lost := true }).lossIn d.toNat) := by
  change execReferenceLoss d s = _
  simp only [execReferenceLoss, present, first, Bool.not_true, Bool.or_self, Bool.false_eq_true, if_false]

/-- A margin is measured while no program runs (R60, R63). -/
theorem runs_measure {s : State} {w : Writer} {d : BitVec 7} (reaches : s.reaches w = true)
    (island : islandIn s.grade d.toNat = true) (stands : s.anyRun = false) :
    Runs (.measure w d) s (s.modIsland d.toNat fun x => { x with measuring := some s.clk.clk }) := by
  change execMeasure w d s = _
  simp only [execMeasure, reaches, island, stands, Bool.not_false, Bool.and_self, if_true]

/-- After 10 µs the margin measured is valid (R63). -/
theorem runs_measureComplete {s : State} {d : BitVec 7} (m : BitVec 6) {since : Nat}
    (measuring : (s.island d.toNat).measuring = some since) (done : since + 10 * usUnits ≤ s.clk.clk) :
    Runs (.measureComplete d m) s (s.setIsland d.toNat
      { s.island d.toNat with margin := m, marginValid := true, measuring := none }) := by
  change execMeasureComplete d m s = _
  simp only [execMeasureComplete, measuring, State.passed, done, decide_true, if_true]

end Sys2Proof.Machine

open Sys2Proof Sys2Proof.Machine

/-- Settles O20, by where the debt stands against 96/64 and 128/64 of a period. -/
theorem clocksStretchAndFail : Obligations.ClocksStretchAndFail := by
  refine fun s d => ⟨fun u island free cool half on => ⟨s.stretched d.toNat u.toNat, _,
      runs_stretch island free cool half on, congrArg Clocks.islands (s.stretched_clk _ _), s.stretched_mem _ _,
      fun low => ?_, fun slips high => ?_, fun fails => if_pos fails⟩,
    fun present first => ⟨fun island => ?_, fun other => ?_⟩,
    fun w reaches island stands => runs_measure reaches island stands,
    fun m since measuring done => runs_measureComplete m measuring done⟩
  · rw [if_neg (by omega), if_neg (by omega)]
  · rw [if_neg (by omega), if_pos slips]
  · simpa only [island, if_true] using runs_referenceLoss present first
  · simpa only [other, Bool.false_eq_true, if_false] using runs_referenceLoss present first
end

section
/-!
O45: power-on and power loss, calibration, straps, time-outs and the warm reset.
-/
namespace Sys2Proof.Machine

/-! ## Calibration -/

/-- A crossing is good when its token shows a slack of 2 or more (R38). -/
def slackGood (o : BootOutcome) (x : (Nat × Nat) × Nat) : Bool := (slackOf o x.1.1 x.1.2 x.2).any fun k => 2 ≤ k

/-- A crossing is good exactly when it has a slack, and that is 2 or more. -/
theorem slackGood_iff (o : BootOutcome) (x : (Nat × Nat) × Nat) :
    slackGood o x = true ↔ ∃ k, slackOf o x.1.1 x.1.2 x.2 = some k ∧ 2 ≤ k := by
  simp only [slackGood, Option.any_eq_true, decide_eq_true_eq]

/-- No two crossings have the same ends. -/
theorem crossings_keys_nodup (grade : BitVec 2) : ((crossings grade).map fun x => 128 * x.1.1 + x.1.2).Nodup := by
  revert grade
  decide

/-- Filling a table under other keys leaves what it reads. -/
theorem Sparse.find?_foldl_put_other {α β : Type} (key : β → Nat) (val : β → α) (ys : List β) (m : SMap α) {k : Nat}
    (new : k ∉ ys.map key) :
    Sparse.find? k (ys.foldl (fun m y => Sparse.put (key y) (val y) m) m) = Sparse.find? k m := by
  induction ys generalizing m with
  | nil => rfl
  | cons y ys ih =>
    obtain ⟨other, rest⟩ := not_or.mp (List.mem_cons.not.mp new)
    rw [List.foldl_cons, ih _ rest, Sparse.find?_put_other other]

/-- A table filled under distinct keys reads each key's value. -/
theorem Sparse.find?_foldl_put {α β : Type} (key : β → Nat) (val : β → α) (ys : List β) (distinct : (ys.map key).Nodup)
    (m : SMap α) {x : β} (hx : x ∈ ys) :
    Sparse.find? (key x) (ys.foldl (fun m y => Sparse.put (key y) (val y) m) m) = some (val x) := by
  induction ys generalizing m with
  | nil => exact absurd hx List.not_mem_nil
  | cons y ys ih =>
    obtain ⟨new, distinct⟩ := List.nodup_cons.mp distinct
    rw [List.foldl_cons]
    rcases List.mem_cons.mp hx with rfl | hx
    · rw [Sparse.find?_foldl_put_other key val ys _ new, Sparse.find?_put_self]
    · exact ih distinct _ hx

/-- A good crossing has its read pointer set at its latency. -/
theorem State.calibrate_crossing {s : State} {o : BootOutcome} {x : (Nat × Nat) × Nat} (hx : x ∈ crossings s.grade)
    (good : slackGood o x = true) :
    Sparse.find? (128 * x.1.1 + x.1.2) (s.calibrate o).1.clk.crossings = some x.2 :=
  Sparse.find?_foldl_put (fun x : (Nat × Nat) × Nat => 128 * x.1.1 + x.1.2) Prod.snd _
    ((crossings_keys_nodup s.grade).sublist (List.filter_sublist.map _)) [] (List.mem_filter.mpr ⟨hx, good⟩)

/-- What calibration reports: the receiver of the first crossing that is not good. -/
theorem State.calibrate_failed (s : State) (o : BootOutcome) :
    (s.calibrate o).2 = ((crossings s.grade).find? fun x => !slackGood o x).map fun x => x.1.2 := rfl

/-- Calibration reports no domain exactly when every crossing is good. -/
theorem State.calibrate_failed_none_iff (s : State) (o : BootOutcome) :
    (s.calibrate o).2 = none ↔ ∀ x ∈ crossings s.grade, slackGood o x = true := by
  simp only [State.calibrate_failed, Option.map_eq_none_iff, List.find?_eq_none, Bool.not_eq_true', Bool.not_eq_false]

/-- A domain that calibration reports receives a crossing that is not good. -/
theorem State.calibrate_failed_some {s : State} {o : BootOutcome} {d : Nat} (h : (s.calibrate o).2 = some d) :
    ∃ x ∈ crossings s.grade, x.1.2 = d ∧ slackGood o x = false := by
  rw [State.calibrate_failed, Option.map_eq_some_iff] at h
  obtain ⟨x, first, receiver⟩ := h
  exact ⟨x, List.mem_of_find?_eq_some first, receiver, by simpa using List.find?_some first⟩

/-! ## Power on and off -/

/-- The rails are asked for (R508). -/
def State.railsAsked (s : State) : State :=
  let z := s.powerOff
  { z with power := { modEn := true, modEnAt := z.clk.clk, cap := designPower z.grade } }

/-- PGOOD rises. -/
def State.powerGood (s : State) : State :=
  { s with power := { s.power with on := true, pgood := true, pgoodAt := s.clk.clk } }

section
variable {s : State} (o : BootOutcome) (off : s.power.pgood = false) (rails : s.power.railsOff = false)
include off rails

/-- Power-on goes as far as PGOOD and the bring-up let it (R505, R508). -/
theorem runs_powerOn :
    Runs (.powerOn o) s
      (if o.pgood = false then s.railsAsked
      else if o.ready = false then s.railsAsked.powerGood
      else if (s.railsAsked.powerGood.bringUp o 0).stew.state = 1 then (s.railsAsked.powerGood.bringUp o 0).startEpoch
      else s.railsAsked.powerGood.bringUp o 0) := by
  change execPowerOn o s = _
  simp only [execPowerOn, off, rails, Bool.or_self, Bool.false_eq_true, if_false, Bool.not_eq_true']
  rfl

/-- With PGOOD the bring-up runs, once the device is ready for it. -/
theorem runs_powerOn_good (good : o.pgood = true) :
    Runs (.powerOn o) s
      (if o.ready = false then s.railsAsked.powerGood
      else if (s.railsAsked.powerGood.bringUp o 0).stew.state = 1 then (s.railsAsked.powerGood.bringUp o 0).startEpoch
      else s.railsAsked.powerGood.bringUp o 0) :=
  runs_of_neg (runs_powerOn o off rails) (ne_false_of_eq_true good)

/-- A bring-up that ends in state 1 starts a ledger epoch (R469). -/
theorem runs_powerOn_ready (good : o.pgood = true) (ready : o.ready = true) :
    Runs (.powerOn o) s
      (if (s.railsAsked.powerGood.bringUp o 0).stew.state = 1 then (s.railsAsked.powerGood.bringUp o 0).startEpoch
      else s.railsAsked.powerGood.bringUp o 0) :=
  runs_of_neg (runs_powerOn_good o off rails good) (ne_false_of_eq_true ready)

end

/-- Without PGOOD after 25 ms every rail stays off (R508). -/
theorem runs_pgoodTimeout {s : State} (modEn : s.power.modEn = true) (off : s.power.pgood = false)
    (late : s.power.modEnAt + 25000 * usUnits ≤ s.clk.clk) :
    Runs .pgoodTimeout s { s with power := { s.power with railsOff := true } } := by
  change execPgoodTimeout s = _
  simp only [execPgoodTimeout, modEn, off, State.passed, late, decide_true, Bool.not_false, Bool.and_self, if_true]

/-! ## While the power is good -/

section
variable {s : State} (on : s.power.pgood = true)
include on

/-- The straps name the device once, 0.5 ms after PGOOD (R364, R445). -/
theorem runs_strapSample (board : BitVec 8) (feed : BitVec 4) (pins : SlotPins) (first : s.power.strapped = false)
    (due : s.power.pgoodAt + 500 * usUnits ≤ s.clk.clk) :
    Runs (.strapSample board feed pins) s { s with
      power := { s.power with strapped := true }
      stew := { s.stew with boardId := board, feedId := feed, pos := pins.pos, chainIn := pins.chainIn }
      heath := { s.heath with id := board.setWidth 12 * 16 + pins.pos.setWidth 12 } } := by
  change execStrapSample board feed pins s = _
  simp only [execStrapSample, on, first, State.passed, due, decide_true, Bool.not_false, Bool.and_self, if_true]

/-- A bring-up of more than 1 s ends in state 6 (R509). -/
theorem runs_bringupTimeout (starting : s.stew.state = 0) (late : s.power.pgoodAt + 1000000 * usUnits ≤ s.clk.clk) :
    Runs .bringupTimeout s { s with stew := { s.stew with state := 6 } } := by
  change execBringupTimeout s = _
  simp only [execBringupTimeout, on, starting, State.passed, late, decide_true, Bool.and_self, if_true]

/-- A dip of the input is noted (R521). -/
theorem runs_undervoltageDip : Runs .undervoltageDip s { s with power := { s.power with uvSeen := true } } := by
  change execUndervoltageDip s = _
  simp only [execUndervoltageDip, on, if_true]

end

/-! ## The warm reset -/

/-- The state in which a warm reset clears the device: where the steward carries the reset out, it has first ended the tickets
that it can (R514). -/
def State.ticketsFirst (s : State) : State := if s.stewardResets then s.endTickets else s

theorem State.ticketsFirst_of_stewardResets {s : State} (h : s.stewardResets = true) : s.ticketsFirst = s.endTickets :=
  if_pos h

/-- The ledger after a bring-up: the chain goes on with a record of the reset, or a new epoch starts (R469). -/
def State.ledgerGoesOn (w : State) (o : BootOutcome) (status : BitVec 8) : State :=
  if o.chainMacOk && w.vault.controlOk then
    (w.appendWith (plainRecord 7 status 0 0) w.imd).flushAppends w.vault.waiting
  else w.startEpoch

/-- The tickets that are pending at the end of a reset are ended, and the house stands until none is left. -/
def State.ticketsLast (s : State) : State :=
  { s.endTickets with house := { s.endTickets.house with stopped := !s.endTickets.ticketsEnded } }

section
variable {s : State} (on : s.power.pgood = true) (o : BootOutcome) (asked : s.stew.warmAsked.isSome = true)
include on asked

/-- A warm reset waits for the tickets that the steward ends first; then the device is cleared and brought up, and in state 1 its
ledger goes on (R510, R511, R514). -/
theorem runs_warmReset :
    Runs (.warmReset o) s
      (if s.stewardResets && !s.ticketsFirst.ticketsEnded then s.ticketsFirst
      else if (s.ticketsFirst.warmClear.bringUp o s.clk.step.toNat).stew.state = 1 then
        ((s.ticketsFirst.warmClear.bringUp o s.clk.step.toNat).ledgerGoesOn o
          (if s.stew.warmBy = 2 then 2 else 1)).ticketsLast
      else s.ticketsFirst.warmClear.bringUp o s.clk.step.toNat) := by
  have goes : (s.stew.warmAsked.isNone || !s.power.pgood) = false := by
    rw [on, Option.isNone_eq_false_iff.mpr asked]
    rfl
  change execWarmReset o s = _
  simp only [execWarmReset, goes, Bool.false_eq_true, if_false, bne_iff_ne, ne_eq, ite_not]
  rfl

/-- While tickets that the steward ends first are pending, a warm reset waits for them. -/
theorem runs_warmReset_waiting (steward : s.stewardResets = true) (pending : s.endTickets.ticketsEnded = false) :
    Runs (.warmReset o) s s.endTickets := by
  have first := State.ticketsFirst_of_stewardResets steward
  rw [← first] at pending ⊢
  exact runs_of_pos (runs_warmReset on o asked) (by rw [steward, pending]; rfl)

/-- Once they are ended, the device is cleared and brought up. -/
theorem runs_warmReset_ended (ended : s.stewardResets = true → s.ticketsFirst.ticketsEnded = true) :
    Runs (.warmReset o) s
      (if (s.ticketsFirst.warmClear.bringUp o s.clk.step.toNat).stew.state = 1 then
        ((s.ticketsFirst.warmClear.bringUp o s.clk.step.toNat).ledgerGoesOn o
          (if s.stew.warmBy = 2 then 2 else 1)).ticketsLast
      else s.ticketsFirst.warmClear.bringUp o s.clk.step.toNat) :=
  runs_of_neg (runs_warmReset on o asked) (by simpa using ended)

end

end Sys2Proof.Machine

open Sys2Proof Sys2Proof.Machine

/-- Settles O45, one sequence after another. -/
theorem powerSequencesComplete : Obligations.PowerSequencesComplete := by
  refine fun s => ⟨fun o off rails => ⟨fun dark => ?_, fun good dead => ?_, fun good ready started => ?_,
      fun good ready failed => ?_⟩,
    fun o => ⟨?_, fun x hx k slack enough => ?_, fun d failed => ?_⟩,
    rfl, fun modEn off late => runs_pgoodTimeout modEn off late,
    fun on => ⟨fun board feed pins first due => runs_strapSample on board feed pins first due,
      fun starting late => runs_bringupTimeout on starting late, runs_undervoltageDip on,
      fun o asked ended failed => ?_, fun o asked steward waits => ?_, fun o w asked ended up started => ?_⟩⟩
  · exact runs_of_pos (runs_powerOn o off rails) dark
  · exact runs_of_pos (runs_powerOn_good o off rails good) dead
  · exact runs_of_pos (runs_powerOn_ready o off rails good ready) started
  · exact runs_of_neg (runs_powerOn_ready o off rails good ready) failed
  · simp only [State.calibrate_failed_none_iff, slackGood_iff]
  · exact State.calibrate_crossing hx ((slackGood_iff o x).mpr ⟨k, slack, enough⟩)
  · obtain ⟨x, hx, receiver, bad⟩ := State.calibrate_failed_some failed
    refine ⟨x, hx, receiver, fun k slack => lt_of_not_ge fun enough => ?_⟩
    exact Bool.eq_false_iff.mp bad ((slackGood_iff o x).mpr ⟨k, slack, enough⟩)
  · exact runs_of_neg (runs_warmReset_ended on o asked ended) failed
  · exact runs_warmReset_waiting on o asked steward waits
  · subst up
    exact runs_of_pos (runs_warmReset_ended on o asked fun h => State.ticketsFirst_of_stewardResets h ▸ ended h) started
end

section
/-!
O8: how results reach their ends: at their cycle they arrive, and at its end a single one enters and a clash enters none.
-/
namespace Sys2Proof.Machine

/-- In a running cycle the results due for a destination arrive at a present tile. -/
theorem runs_vResultComplete {s : State} {t : TileNo} (dst : BitVec 6) (run : s.running = true)
    (tile : tileIn s.grade t.toNat = true) : Runs (.vResultComplete t dst) s (s.completeResults t.toNat dst) := by
  change execVResultComplete t dst s = _
  rw [execVResultComplete, if_pos (by rw [run, tile]; rfl)]

section
variable {x : Tile} {now : Scc} {r : Result}

/-- A single result of a cycle for an end enters it. -/
theorem Tile.enterDst_single (dst : BitVec 6) :
    x.enterDst now dst [r] = ((x.enter now r).1, (x.enter now r).2.map fun f => (r.iaddr, f)) := rfl

/-- A result for nobody raises its flags only. -/
theorem Tile.enter_none (dst : r.dst = qeNone) : x.enter now r = (x.raise r.flags, none) := by
  simp only [Tile.enter, if_pos dst]

/-- Neither a register nor a queue end of the tile is the number that names nobody. -/
theorem ne_qeNone_of_reg_or_vq {q : BitVec 6} (h : qeIsReg q = true ∨ qeIsVQ q = true) : q ≠ qeNone := by
  rintro rfl
  revert h
  decide

/-- A vector queue is no register. -/
theorem not_reg_of_vq {q : BitVec 6} (h : qeIsVQ q = true) : qeIsReg q = false := by
  revert q
  decide

/-- An SO or MA end is neither a register nor a vector queue. -/
theorem not_reg_vq_of_dst64 {q : BitVec 6} (h : qeDst64 q = true) : qeIsReg q = false ∧ qeIsVQ q = false := by
  revert q
  decide

/-- A result for a vector register is written to it. -/
theorem Tile.enter_reg (dst : qeIsReg r.dst = true) :
    x.enter now r = ((x.raise r.flags).setVreg r.dst r.data, none) := by
  simp only [Tile.enter, if_neg (ne_qeNone_of_reg_or_vq (.inl dst)), if_pos dst]

/-- A result for a vector queue joins it, or overflows it. -/
theorem Tile.enter_vq (dst : qeIsVQ r.dst = true) :
    x.enter now r =
      if qeDepth r.dst ≤ (x.vq r.dst).length then
        (x.raise r.flags, some (qOver r.slot r.dst.toNat (x.vq r.dst).length))
      else ((x.raise r.flags).setVq r.dst (x.vq r.dst ++ [{ data := r.data, cyc := now, mark := r.mark }]), none) := by
  simp only [Tile.enter, if_neg (ne_qeNone_of_reg_or_vq (.inr dst)), not_reg_of_vq dst, dst, Bool.false_eq_true, if_false,
    if_true]

/-- A result for a 64 B end joins it, or overflows it. -/
theorem Tile.enter_end64 (named : r.dst ≠ qeNone) (reg : qeIsReg r.dst = false) (vq : qeIsVQ r.dst = false) :
    x.enter now r =
      if qeDepth r.dst ≤ (x.end64 r.dst).length then
        (x.raise r.flags, some (qOver r.slot r.dst.toNat (x.end64 r.dst).length))
      else
        ((x.raise r.flags).setEnd64 r.dst
          (x.end64 r.dst ++ [{ data := r.data.setWidth 512, cyc := now, mark := r.mark }]), none) := by
  simp only [Tile.enter, if_neg named, reg, vq, Bool.false_eq_true, if_false]

end

/-- Of several results for one end none enters, and the later-issued one is inconsistent. -/
theorem Tile.enterDst_clash {dst : BitVec 6} (named : dst ≠ qeNone) (x : Tile) (now : Scc) (a b : Result)
    (rest : List Result) :
    x.enterDst now dst (a :: b :: rest) =
      (x, some (((b :: rest).foldl Result.later a).iaddr, inconsistent ((b :: rest).foldl Result.later a).slot)) := by
  simp only [Tile.enterDst, if_neg named]

/-- A list of copies of one element has that element alone once its copies are dropped. -/
theorem dedup_eq_singleton {α : Type} [DecidableEq α] {l : List α} {a : α} (nonempty : l ≠ [])
    (all : ∀ b ∈ l, b = a) : l.dedup = [a] := by
  rw [List.eq_replicate_of_mem all]
  exact List.replicate_dedup fun empty => nonempty (List.length_eq_zero_iff.mp empty)

/-- Arrivals that all name one end enter it together. -/
theorem Tile.enterAll_one {x : Tile} {dst : BitVec 6} (nonempty : x.arrived ≠ []) (all : ∀ r ∈ x.arrived, r.dst = dst)
    (now : Scc) :
    x.enterAll now =
      (({ x with arrived := [] }.enterDst now dst x.arrived).1,
        ({ x with arrived := [] }.enterDst now dst x.arrived).2.toList) := by
  have ends : (x.arrived.map fun r => r.dst).dedup = [dst] :=
    dedup_eq_singleton (by simpa using nonempty) (by simpa using all)
  have here : (x.arrived.filter fun r => r.dst = dst) = x.arrived :=
    List.filter_eq_self.mpr fun r hr => decide_eq_true (all r hr)
  simp only [Tile.enterAll, ends, List.foldl_cons, List.foldl_nil, here, List.nil_append]

end Sys2Proof.Machine

open Sys2Proof Sys2Proof.Machine

/-- Settles O8, by the kind of the end that a result names. -/
theorem resultsReachTheirEnds : Obligations.ResultsReachTheirEnds := by
  refine ⟨fun s t dst run tile => runs_vResultComplete dst run tile, fun x now r => ?_,
    fun x now dst a b rest named => Tile.enterDst_clash named x now a b rest,
    fun x now dst nonempty all => Tile.enterAll_one nonempty all now⟩
  refine ⟨fun dst => ?_, fun dst => ?_, fun dst room => ?_, fun dst named room => ?_, fun dst full => ?_,
    fun dst named full => ?_⟩
  · rw [Tile.enterDst_single, Tile.enter_none dst]; rfl
  · rw [Tile.enterDst_single, Tile.enter_reg dst]; rfl
  · rw [Tile.enterDst_single, Tile.enter_vq dst, if_neg (Nat.not_le.mpr room)]; rfl
  · obtain ⟨reg, vq⟩ := not_reg_vq_of_dst64 dst
    rw [Tile.enterDst_single, Tile.enter_end64 named reg vq, if_neg (Nat.not_le.mpr room)]; rfl
  · rw [Tile.enterDst_single, Tile.enter_vq dst, if_pos full]; rfl
  · obtain ⟨reg, vq⟩ := not_reg_vq_of_dst64 dst
    rw [Tile.enterDst_single, Tile.enter_end64 named reg vq, if_pos full]; rfl
end

section
/-!
SUPPORT. What a request for a hold and a tile's request for a halt change, and what a slot operation leaves.
-/
namespace Sys2Proof.Machine

/-- A request for a hold changes the hold network, with its cause marked, and the tallies of the steward. -/
theorem State.requestHold_eq (s : State) (c : Cause) (cyc : Scc) :
    ∃ h m, s.requestHold c cyc = { s with fab := { s.fab with hold := h }, stew := { s.stew with tallies := m } }
      ∧ h.halt = (s.fab.hold.mark c s.clk.clk).halt := by
  unfold State.requestHold
  dsimp only
  split
  · exact ⟨_, s.stew.tallies, rfl, rfl⟩
  · split
    all_goals
      obtain ⟨m, counted⟩ := State.count_eq (u := .steward) nofun _ 0xA2 (BitVec.ofNat 8 (causeBit c)) 1
      exact ⟨_, m, counted, rfl⟩

/-- A request for a hold leaves the cycle counter. -/
@[simp] theorem State.requestHold_fab_scc (s : State) (c : Cause) (cyc : Scc) :
    (s.requestHold c cyc).fab.scc = s.fab.scc := by
  obtain ⟨h, m, held, -⟩ := s.requestHold_eq c cyc
  rw [held]

/-- The state with a halt request in its record, and its program aborted. -/
def State.recordHalt (s : State) (rank : Nat) (source : BitVec 64) (cyc : Scc) (reason : BitVec 8)
    (subcode : BitVec 4) (detail : BitVec 32) : State :=
  { s with
    fab := { s.fab with haltRec := s.fab.haltRec.take rank source cyc reason subcode detail }
    stew := { s.stew with program := { s.stew.program with aborted := true } } }

/-- A halt request enters the halt record, halts the hold network and aborts the program; the cycle counter stays. -/
theorem State.requestHalt_fields (s : State) (rank : Nat) (source : BitVec 64) (cyc : Scc) (reason : BitVec 8)
    (subcode : BitVec 4) (detail : BitVec 32) :
    let s' := s.requestHalt rank source cyc reason subcode detail
    s'.fab.haltRec = s.fab.haltRec.take rank source (if s.fab.hold.held then s.fab.scc else cyc) reason subcode detail
      ∧ s'.fab.hold.halt = true ∧ s'.stew.program.aborted = true ∧ s'.fab.scc = s.fab.scc := by
  intro s'
  obtain ⟨at', hat⟩ : ∃ c, c = if s.fab.hold.held then s.fab.scc else cyc := ⟨_, rfl⟩
  have requested : s' = (let u := (s.recordHalt rank source at' reason subcode detail).requestHold .halt at'
      if u.fab.hold.held then u.stopRun else u) := by
    rw [hat]
    rfl
  obtain ⟨h, m, held, halt⟩ := (s.recordHalt rank source at' reason subcode detail).requestHold_eq .halt at'
  rw [requested, held, ← hat]
  dsimp only
  split <;> exact ⟨rfl, halt, rfl, rfl⟩

/-- The first halt request of a tile goes to the halt record. -/
theorem State.tileHalt_first {s : State} {t : Nat} (first : (s.tile t).req = none) (cyc : Scc) (iaddr : BitVec 11)
    (f : Failure) :
    s.tileHalt t cyc iaddr f = (s.modTile t fun y => { y with req := some (cyc, f.rank) }).requestHalt t
      (tileSource t f.slot iaddr) cyc f.reason f.subcode f.detail := by
  simp only [State.tileHalt, first]

/-- A halt request of a tile leaves the cycle counter. -/
@[simp] theorem State.tileHalt_fab_scc (s : State) (t : Nat) (cyc : Scc) (iaddr : BitVec 11) (f : Failure) :
    (s.tileHalt t cyc iaddr f).fab.scc = s.fab.scc := by
  have requested (s' : State) (source : BitVec 64) :
      (s'.requestHalt t source cyc f.reason f.subcode f.detail).fab.scc = s'.fab.scc :=
    (s'.requestHalt_fields t source cyc f.reason f.subcode f.detail).2.2.2
  unfold State.tileHalt
  dsimp only
  (repeat' split) <;> simp [requested]

/-- A change of a tile leaves the halt record. -/
@[simp] theorem State.modTile_fab_haltRec (s : State) (t : Nat) (f : Tile → Tile) :
    (s.modTile t f).fab.haltRec = s.fab.haltRec := by
  unfold State.modTile
  split <;> rfl

/-- Opening a slot leaves the cycle counter and the halt record. -/
theorem State.openSlot_fab (s : State) (n : Nat) :
    (s.openSlot n).fab.scc = s.fab.scc ∧ (s.openSlot n).fab.haltRec = s.fab.haltRec := by
  unfold State.openSlot
  split <;> exact ⟨rfl, rfl⟩

/-- A slot operation whose tile has no failure of the cycle leaves the tile as it is. -/
theorem State.afterSlot_tile {s : State} {t : TileNo} {y : Tile} (fails : y.failsOf s.fab.scc = []) :
    (s.afterSlot t y).tile t.toNat = y.quietFails s.fab.scc := by
  rw [State.afterSlot, State.endSlot, (s.openSlot_fab t.toNat).1, fails]
  exact (State.tile_setTile _ _ _ _).trans (if_pos rfl)

end Sys2Proof.Machine
end

section
/-!
O17: what WAIT and DRAIN leave in their tile, and what their samples and a switch of the spine set do.
-/
namespace Sys2Proof.Machine

/-! ## The C slot -/

/-- The tile with the sample of a wait of cycle `now` scheduled. -/
def Tile.await (x : Tile) (now : Scc) (c : CSlot) : Tile :=
  { x with waits := x.waits ++ [{ issued := now, iaddr := x.iaddr, kind := c.lvl, n := c.value x, arg := c.arg }] }

/-- Every queue end holds at most 64 words. -/
theorem qeDepth_le (q : BitVec 6) : qeDepth q ≤ 64 := by
  revert q
  decide

/-- An immediate that is a small positive number as a signed value is that number. -/
theorem toNat_of_signExtend_le {i : BitVec 16} (h : (i.signExtend 32).toNat ≤ 64) : i.toNat = (i.signExtend 32).toNat := by
  have signed := BitVec.toNat_signExtend i (v := 32)
  rw [BitVec.toNat_setWidth] at signed
  split at signed <;> omega

/-- A wait for words of a queue end schedules its sample. -/
theorem waitIssue_words {c : CSlot} {env : IssueEnv} {z : Tile} {q : BitVec 6} (kind : c.lvl = 0)
    (form : c.valueForm = true) (arg : c.arg = q.setWidth 16) (source : (q = qePQ || qeIsFQ q) = true)
    (pos : 1 ≤ (c.value z).toNat) (fits : (c.value z).toNat ≤ qeDepth q) :
    waitIssue c env z = .ok (z.await env.now c) := by
  have small : q.toNat < 64 := q.isLt
  have named : c.arg.setWidth 6 = q := by
    rw [arg]
    bv_omega
  have narrow : c.arg.toNat < 64 := by
    rw [arg, BitVec.toNat_setWidth]
    omega
  have imm : (c.p || (1 ≤ c.imm.toNat && c.imm.toNat ≤ qeDepth q)) = true := by
    cases p : c.p with
    | true => rfl
    | false =>
      have value : c.value z = c.imm.signExtend 32 := by simp [CSlot.value, p]
      rw [value] at pos fits
      have same := toNat_of_signExtend_le (fits.trans (qeDepth_le q))
      simp [same, pos, fits]
  simp [waitIssue, kind, form, named, narrow, source, imm, pos, fits, Tile.await]

/-- A wait for a till schedules its sample. -/
theorem waitIssue_till {c : CSlot} (env : IssueEnv) (z : Tile) (kind : c.lvl = 1) (form : c.valueForm = true)
    (arg : c.arg.getLsbD 15 = false) : waitIssue c env z = .ok (z.await env.now c) := by
  have clear : c.arg[15] = false := by simpa using arg
  simp [waitIssue, kind, form, clear, Tile.await]

/-- A wait for tags, petty transfers or posts schedules its sample. -/
theorem waitIssue_outstanding {c : CSlot} (env : IssueEnv) (z : Tile) (p : c.p = false) (pidx : c.pidx = 0)
    (fields : c.lvl = 2 ∧ c.imm = 0 ∧ c.arg.toNat < 256 ∨ c.lvl = 3 ∧ c.imm.toNat ≤ 63 ∧ c.arg = 0
      ∨ c.lvl = 4 ∧ c.imm.toNat ≤ 15 ∧ c.arg = 0) : waitIssue c env z = .ok (z.await env.now c) := by
  obtain ⟨kind, imm, arg⟩ | ⟨kind, imm, arg⟩ | ⟨kind, imm, arg⟩ := fields <;>
    simp [waitIssue, kind, p, pidx, imm, arg, Tile.await]

/-- A drain joins the drains of its tile. -/
theorem drainIssue_ok {c : CSlot} (env : IssueEnv) (z : Tile) (bare : c.bare = true) (arg : c.arg.toNat < 32) :
    drainIssue c env z = .ok { z with drains := z.drains ++
      [{ cyc := env.now, iaddr := z.iaddr, set := c.arg.setWidth 4, count := c.arg.getLsbD 4 }] } := by
  have form : (c.bare && c.arg.toNat < 32) = true := by simp [bare, arg]
  simp only [drainIssue, form, check_true, except_ok_bind]

/-! ## Samples -/

/-- The tile's wait `w` has been sampled. -/
def State.dropWait (s : State) (t : Nat) (w : Wait) : State :=
  s.modTile t fun x => { x with waits := x.waits.filter fun v => v != w }

/-- A wait that is sampled and does not hold is counted, and joins those that the hold waits for. -/
def State.holdWait (s : State) (t : TileNo) (w : Wait) : State :=
  let s' := s.modTile t.toNat fun x => x.count 0x07 1
  let held : HeldWait := { tile := t, wait := w, metAt := none }
  { s' with fab := { s'.fab with hold := { s'.fab.hold with waits := s'.fab.hold.waits ++ [held] } } }

/-- The sample of the wait that is due goes on, or requests a hold. -/
theorem runs_waitSample {s : State} {t : TileNo} {w : Wait} (run : s.running = true)
    (due : ((s.tile t.toNat).waits.find? fun w => w.issued + 8 = s.fab.scc) = some w) :
    Runs (.waitSample t) s
      (if s.waitMet t.toNat w then s.dropWait t.toNat w
       else ((s.dropWait t.toNat w).holdWait t w).requestHold .wait s.fab.scc) := by
  change execWaitSample t s = _
  have scc : ((s.dropWait t.toNat w).modTile t.toNat fun x => x.count 0x07 1).fab.scc = s.fab.scc := by
    rw [State.modTile_fab_scc, State.dropWait, State.modTile_fab_scc]
  rw [← scc]
  simp only [execWaitSample, run, due, Bool.not_true, Bool.false_eq_true, if_false]
  rfl

/-- The check of the queue ends leaves the cycle counter. -/
@[simp] theorem State.drainCheck_fab_scc (s : State) (c : Scc) : (s.drainCheck c).fab.scc = s.fab.scc := by
  refine foldl_keeps (·.fab.scc) (fun s' x => ?_) _ _
  split <;> simp

/-- The drain `d` has been sampled: the queue ends are checked, or its condition does not hold and it requests a hold. -/
def State.sampleDrain (s : State) (d : Drain) : State :=
  let s' := s.modDrain d.cyc fun x => { x with sampled := true }
  if s'.drainUnmet.isSome then s'.requestHold .drain s.fab.scc else s'.drainCheck d.cyc

/-- A sample of a drain leaves the cycle counter. -/
theorem State.sampleDrain_fab_scc (s : State) (d : Drain) : (s.sampleDrain d).fab.scc = s.fab.scc := by
  unfold State.sampleDrain
  dsimp only
  split
  · exact State.requestHold_fab_scc _ _ _
  · exact State.drainCheck_fab_scc _ _

/-- The drain that is due is sampled, and requests a hold to count coins. -/
theorem runs_drainSample {s : State} {d : Drain} (run : s.running = true) (due : s.sampleDue = some d) :
    Runs .drainSample s
      (if d.count then (s.sampleDrain d).requestHold .steward s.fab.scc else s.sampleDrain d) := by
  rw [← s.sampleDrain_fab_scc d]
  change execDrainSample s = _
  rw [execDrainSample, due]
  simp only [run, Bool.not_true, Bool.false_eq_true, if_false]
  rfl

/-! ## What a drain puts in force -/

/-- The set that is due comes into force in every field. -/
theorem runs_spineSetSwitch {s : State} {k : BitVec 4} (run : s.running = true) (due : s.setDue = some k) :
    Runs .spineSetSwitch s (s.presentFields.foldl (fun s f => s.modField f fun y => { y with spineCur := k }) s) := by
  change execSpineSetSwitch s = _
  simp only [execSpineSetSwitch, due, run, if_true]

/-- A bank that the set makes fallow is cleared and powers down. -/
theorem runs_fallowBankPowerDown {s : State} {t : TileNo} {bank k : BitVec 4} (run : s.running = true)
    (due : s.setDue = some k) (tile : tileIn s.grade t.toNat = true)
    (masked : ((s.field (tileField t.toNat)).fallowMask k t.toNat).getLsbD bank.toNat = true)
    (awake : (s.tile t.toNat).pad.fallow.getLsbD bank.toNat = false) :
    Runs (.fallowBankPowerDown t bank) s ((s.clearBank t.toNat bank.toNat).modTile t.toNat fun x => { x with
      pad := { x.pad with
        fallow := x.pad.fallow ||| ((1 : BitVec 16) <<< bank.toNat)
        waking := x.pad.waking &&& ~~~((1 : BitVec 16) <<< bank.toNat)
        wakeAt := Sparse.erase bank.toNat x.pad.wakeAt } }) := by
  change execFallowBankPowerDown t bank s = _
  simp only [execFallowBankPowerDown, due, run, tile, masked, awake, Bool.not_false, Bool.and_self, if_true]

/-- A waking bank whose fill is over is cleared and wakes no longer. -/
theorem runs_bankWakeComplete {s : State} {t : TileNo} {bank : BitVec 4} {w : Scc}
    (fills : Sparse.find? bank.toNat (s.tile t.toNat).pad.wakeAt = some w)
    (waking : (s.tile t.toNat).pad.waking.getLsbD bank.toNat = true) (filled : sccGe (s.fab.scc + 1) w = true) :
    Runs (.bankWakeComplete t bank) s ((s.clearBank t.toNat bank.toNat).modTile t.toNat fun x => { x with
      pad := { x.pad with
        waking := x.pad.waking &&& ~~~((1 : BitVec 16) <<< bank.toNat)
        wakeAt := Sparse.erase bank.toNat x.pad.wakeAt } }) := by
  change execBankWakeComplete t bank s = _
  simp only [execBankWakeComplete, fills, waking, filled, Bool.and_self, if_true]

end Sys2Proof.Machine

open Sys2Proof Sys2Proof.Machine

/-- Settles O17, one command after another. -/
theorem waitsAndDrainsComplete : Obligations.WaitsAndDrainsComplete := by
  refine fun s t c => ⟨fun slot => ⟨fun q kind form arg source pos fits => ?_, fun kind form arg => ?_,
      fun p pidx fields => ?_, fun bare arg => ?_⟩,
    fun w run due => ⟨runs_of_pos (runs_waitSample run due), fun unmet => ?_⟩,
    fun d run due => ⟨fun met => ?_, fun unmet => ?_⟩,
    fun k run due => runs_spineSetSwitch run due,
    fun bank k run due tile masked awake => runs_fallowBankPowerDown run due tile masked awake,
    fun bank w fills waking filled => runs_bankWakeComplete fills waking filled⟩
  · rw [← kind]
    exact issues_of_ok slot rfl (waitIssue_words kind form arg source pos fits)
  · rw [← kind]
    exact issues_of_ok slot rfl (waitIssue_till _ _ kind form arg)
  · exact issues_of_ok slot rfl (waitIssue_outstanding _ _ p pidx fields)
  · exact issues_of_ok slot rfl (drainIssue_ok _ _ bare arg)
  · exact runs_of_neg (runs_waitSample run due) (by simp [unmet])
  · have sampled := runs_drainSample run due
    rwa [State.sampleDrain, met] at sampled
  · have sampled := runs_drainSample run due
    rwa [State.sampleDrain, if_pos (Option.isSome_iff_ne_none.mpr unmet)] at sampled
end

section
/-!
O51: what a take or a tap leaves when the word's stamp is not the expected one, and the halt that it requests.
-/
namespace Sys2Proof.Machine

/-! ## What the fields of a tile are after a slot has been opened -/

/-- A change of a bundle that keeps its index keeps the tile's. -/
theorem Tile.iaddr_modBundle (x : Tile) {f : Bundle → Bundle} (keeps : ∀ b, (f b).iaddr = b.iaddr) :
    (x.modBundle f).iaddr = x.iaddr := by
  cases hb : x.bundle <;> simp [Tile.iaddr, Tile.modBundle, hb, keeps]

/-- A push that has been claimed leaves the bundle's index and the tile's halt request. -/
theorem Tile.claimPush_keeps {z x : Tile} {slot : Nat} {q : BitVec 6} (claim : z.claimPush slot q = .ok x) :
    x.iaddr = z.iaddr ∧ x.req = z.req := by
  unfold Tile.claimPush at claim
  split at claim
  · cases claim
    exact ⟨rfl, rfl⟩
  · split at claim
    · cases claim
    · cases claim
      exact ⟨z.iaddr_modBundle fun _ => rfl, rfl⟩

/-- A correction on the way leaves the tile's halt request. -/
theorem Tile.popMark_req (x : Tile) (m : BitVec 2) : (x.popMark m).req = x.req := by
  unfold Tile.popMark
  split <;> rfl

/-- The tile as a slot finds it has the halt request that it had. -/
theorem State.slotTile_req (s : State) (n slot : Nat) : (s.slotTile n slot).req = (s.tile n).req := by
  change ((s.tile n).openBundle s.fab.scc).req = _
  unfold Tile.openBundle
  split
  · rfl
  · exact Tile.popMark_req _ _

/-! ## The body of a take or a tap -/

/-- The tile after a take of a track, or a tap of it: the word leaves the track unless it is a tap short of the end of the
route. -/
def Tile.unload (x : Tile) (v : SSub) (taken : Bool) : Tile :=
  if taken || x.marked v.west v.track.toNat then x.setWord v.west v.track.toNat none
  else { x with taps := (trackKey v.west v.track, v.fin.setWidth 6) :: x.taps }

/-- What the end of a take or a tap does, by which of the two it is. -/
theorem Tile.unload_eq (x : Tile) (v : SSub) (tap : Bool) :
    x.unload v (!tap) =
      if tap && !x.marked v.west v.track.toNat then
        { x with taps := (trackKey v.west v.track, v.fin.setWidth 6) :: x.taps }
      else x.setWord v.west v.track.toNat none := by
  unfold Tile.unload
  cases tap <;> cases x.marked v.west v.track.toNat <;> rfl

/-- The end of a take or a tap leaves the tile's halt request. -/
theorem Tile.unload_req (x : Tile) (v : SSub) (taken : Bool) : (x.unload v taken).req = x.req := by
  unfold Tile.unload Tile.setWord
  (repeat' split) <;> rfl

/-- The end of a take or a tap leaves the failures that the tile has found. -/
theorem Tile.unload_pad (x : Tile) (v : SSub) (taken : Bool) : (x.unload v taken).pad = x.pad := by
  unfold Tile.unload Tile.setWord
  (repeat' split) <;> rfl

/-- A take or a tap of a word with another stamp pushes the word all the same, and notes the failure (log
entry 24). -/
theorem takeIssue_stamped {tap : Bool} {v : SSub} {env : IssueEnv} {z x : Tile} {w : Word}
    (rsv : v.rsv = 0) (track : v.track.toNat < 48) (lat : v.lat ≠ 0)
    (once : (z.bundle.any fun b => b.taken.contains (trackKey v.west v.track)) = false)
    (claim : (z.modBundle fun b => { b with taken := trackKey v.west v.track :: b.taken }).claimPush 3
      (v.fin.setWidth 6) = .ok x)
    (word : x.wordAt v.west v.track.toNat = some w)
    (stamp : w.stamp ≠ (env.now - v.lat.setWidth 48).setWidth 3) :
    takeIssue tap v env z =
      .ok (((x.put64 env.now 3 (v.fin.setWidth 6) w.data w.mark).softFail env.now
        (stampFail 0 ((env.now - v.lat.setWidth 48).setWidth 3) w.stamp v.track.toNat v.west)).unload v !tap) := by
  have form : (v.rsv = 0 && v.track.toNat < 48 && v.lat != 0) = true := by simpa [rsv, track] using lat
  simp only [takeIssue, form, once, Bool.not_false, check_true, except_ok_bind, claim, word, if_neg stamp,
    Tile.unload_eq]

/-! ## The halt that a failure of the cycle requests -/

/-- A failure of a tile that takes a word and has found none is the only one of its cycle. -/
theorem Tile.failsOf_softFail {x : Tile} (clean : x.pad.fails = []) (now : Scc) (r : Result) (f : Failure) (v : SSub)
    (taken : Bool) :
    (((x.arrive r).softFail now f).unload v taken).failsOf now =
      [{ cyc := now, iaddr := x.iaddr, slot := f.slot, reason := f.reason, subcode := f.subcode, detail := f.detail }] := by
  have noted : (x.arrive r).pad.fails = [] := clean
  rw [Tile.failsOf, Tile.unload_pad, Tile.softFail, noted, List.nil_append]
  exact List.filter_cons_of_pos (decide_eq_true rfl)

/-- A slot operation whose tile has one failure of the cycle ends in the halt for it. -/
theorem State.afterSlot_of_fail {s : State} {t : TileNo} {u : Tile} {f : LateFail}
    (fails : u.failsOf s.fab.scc = [f]) :
    s.afterSlot t u = ((s.openSlot t.toNat).setTile t.toNat (u.quietFails s.fab.scc)).tileHalt t.toNat f.cyc f.iaddr
      { slot := f.slot, reason := f.reason, subcode := f.subcode, detail := f.detail } := by
  rw [State.afterSlot, State.endSlot, (s.openSlot_fab t.toNat).1, fails]
  rfl

/-- A tile that has requested no halt and finds one failure in a slot requests one: the record takes it, the fabric stops for
it, and the program is aborted. -/
theorem State.afterSlot_halts {s : State} (t : TileNo) {u : Tile} {f : LateFail} (fails : u.failsOf s.fab.scc = [f])
    (now : f.cyc = s.fab.scc) (first : u.req = none) :
    (s.afterSlot t u).fab.haltRec = s.fab.haltRec.take t.toNat (tileSource t.toNat f.slot f.iaddr) s.fab.scc f.reason
        f.subcode f.detail
      ∧ (s.afterSlot t u).fab.hold.halt = true ∧ (s.afterSlot t u).stew.program.aborted = true := by
  obtain ⟨scc, haltRec⟩ := s.openSlot_fab t.toNat
  rw [State.afterSlot_of_fail fails, State.tileHalt_first (by rw [State.tile_setTile, if_pos rfl]; exact first)]
  obtain ⟨taken, halt, aborted, -⟩ := State.requestHalt_fields
    (((s.openSlot t.toNat).setTile t.toNat (u.quietFails s.fab.scc)).modTile t.toNat fun y =>
      { y with req := some (f.cyc, Failure.rank ⟨f.slot, f.reason, f.subcode, f.detail⟩) })
    t.toNat (tileSource t.toNat f.slot f.iaddr) f.cyc f.reason f.subcode f.detail
  refine ⟨taken.trans ?_, halt, aborted⟩
  rw [State.modTile_fab_scc, State.modTile_fab_haltRec, State.setTile_fab_scc, State.setTile_fab_haltRec, scc, haltRec,
    now, ite_self]

/-! ## The word at its SI end -/

/-- A result without flags raises none. -/
theorem Tile.raise_zero (x : Tile) : x.raise 0 = x := by
  have flags : x.vec.fpflags ||| 0 = x.vec.fpflags := BitVec.or_zero
  simp only [Tile.raise, flags]

/-- FIN of a take or a tap names an SI end. -/
theorem qeIsSI_setWidth (fin : BitVec 3) : qeIsSI (fin.setWidth 6) = true := by
  revert fin
  decide

/-- A word that arrives at an SI end with room enters it. -/
theorem Tile.enterDst_si {z : Tile} {now : Scc} {r : Result} {d : Line} (si : qeIsSI r.dst = true)
    (data : r.data = d.setWidth 4096) (flags : r.flags = 0) (room : (z.end64 r.dst).length < qeDepth r.dst) :
    z.enterDst now r.dst [r] =
      (z.setEnd64 r.dst (z.end64 r.dst ++ [{ data := d, cyc := now, mark := r.mark }]), none) := by
  obtain ⟨named, reg, vq⟩ : r.dst ≠ qeNone ∧ qeIsReg r.dst = false ∧ qeIsVQ r.dst = false := by
    revert si
    generalize r.dst = q
    revert q
    decide
  have quiet : z.raise r.flags = z := by rw [flags, Tile.raise_zero]
  have whole : (d.setWidth 4096).setWidth 512 = d := by
    rw [BitVec.setWidth_setWidth_of_le _ (by decide), BitVec.setWidth_eq]
  rw [Tile.enterDst_single, Tile.enter_end64 named reg vq, if_neg (Nat.not_le.mpr room), quiet, data, whole]
  rfl

end Sys2Proof.Machine

open Sys2Proof Sys2Proof.Machine

/-- Settles O51, for a word with the expected stamp, for one with another, and for the entry of either. -/
theorem stampsAreCompared : Obligations.StampsAreCompared := by
  intro s t v w x z now q expected slot rsv track lat once claim word r y f got
  refine ⟨fun stamp => ?_, fun stamp => ⟨?_, ?_, fun taken u hu first clean => ?_⟩, fun z room => ?_⟩
  · have issued (tap : Bool) := takeIssue_ok (tap := tap) (env := s.issueEnv t.toNat) rsv track lat once claim word stamp
    simp only [← Tile.unload_eq] at issued
    exact ⟨issues_of_ok slot rfl (issued false), issues_of_ok slot rfl (issued true)⟩
  · exact issues_of_ok slot rfl
      (takeIssue_stamped (tap := false) (env := s.issueEnv t.toNat) rsv track lat once claim word stamp)
  · exact issues_of_ok slot rfl
      (takeIssue_stamped (tap := true) (env := s.issueEnv t.toNat) rsv track lat once claim word stamp)
  · obtain ⟨iaddr, req⟩ := Tile.claimPush_keeps claim
    have index : x.iaddr = (s.slotTile t.toNat 3).iaddr := iaddr.trans (Tile.iaddr_modBundle _ fun _ => rfl)
    have unrequested : x.req = none := (req.trans (s.slotTile_req t.toNat 3)).trans first
    have left : u = ((x.arrive r).softFail now f).unload v taken := hu
    have fails := Tile.failsOf_softFail clean now r f v taken
    rw [← left, index] at fails
    have quiet : u.req = none := by rw [left, Tile.unload_req]; exact unrequested
    have halts := State.afterSlot_halts t fails rfl quiet
    exact halts
  · exact Tile.enterDst_si (r := r) (qeIsSI_setWidth v.fin) rfl rfl room
end

section
/-!
O9: an MMA that adds to a bank of another class does not read the bank, so that a correctable error there is not counted
(R205, R202).
-/
namespace Sys2Proof.Machine

/-- The pass that an MMA starts in cycle `now` with activation word `act`. -/
def Tile.passOf (x : Tile) (now : Scc) (m : MSlot) (act : Line) : Pass :=
  { bank := m.bank, fmt := m.fmt, acc := m.acc, act := act, plane := (x.plane m.plane).data,
    scales := (x.plane m.plane).scales, settle := now + BitVec.ofNat 48 (passA m.fmt + 3) }

/-- The tile with that pass started. -/
def Tile.startPass (x : Tile) (now : Scc) (m : MSlot) (act : Line) : Tile :=
  { x with mx := { x.mx with
      passes := x.mx.passes ++ [x.passOf now m act]
      arrayUntil := some (now + BitVec.ofNat 48 (passA m.fmt - 1), m.plane) } }.count 0x04 1

/-- An MMA into a bank of another class starts its pass without a read of the bank. -/
theorem mmaIssue_otherClass {m : MSlot} {env : IssueEnv} {z y : Tile} {e : Entry} {es : List Entry} (rsv : m.rsv = 0)
    (ag : m.ag = 0) (off : m.off = 0) (fmt : m.fmt.toNat < 8) (free : z.arrayBusy env.now = false)
    (loaded : z.loading env.now m.plane = false) (pop : z.CanPop env.now qeMA e es)
    (plane : (z.afterPop qeMA e es).readMark 6 m.plane.toNat 0 m.plane.toNat = .ok y)
    (other : y.nextClass m.bank ≠ passClass m.fmt) :
    mmaIssue m env z = .ok (y.startPass env.now m e.data) := by
  have form : (m.rsv = 0 && m.ag = 0 && m.off = 0 && m.fmt.toNat < 8) = true := by simp [rsv, ag, off, fmt]
  have unread : (m.acc && y.nextClass m.bank = passClass m.fmt) = false := by simp [other]
  simp only [mmaIssue, form, free, loaded, Bool.not_false, Bool.and_self, check_true, except_ok_bind, Tile.pop64_ok pop,
    plane, unread, Bool.false_eq_true, if_false]
  rfl

/-- Two tiles without failures that one slot operation leaves alike with a pass started count alike. -/
theorem startPass_tally0_eq {c : Instr} {s : State} {t : TileNo} {x y : Tile} {now : Scc} {m : MSlot} {act : Line}
    (hx : x.pad.fails = []) (hy : y.pad.fails = []) (issues : Issues c s t (x.startPass now m act))
    (issues' : Issues c s t (y.startPass now m act)) : x.tally0.note 0x04 0 1 = y.tally0.note 0x04 0 1 := by
  have tile {z : Tile} (clean : z.pad.fails = []) :
      ((s.afterSlot t (z.startPass now m act)).tile t.toNat).tally0 = z.tally0.note 0x04 0 1 := by
    have fails : (z.startPass now m act).failsOf s.fab.scc = [] :=
      congrArg (List.filter fun f : LateFail => f.cyc = s.fab.scc) clean
    rw [State.afterSlot_tile fails]
    rfl
  have same := Host.Outcome.next.inj (issues.symm.trans issues')
  rw [← tile hx, ← tile hy, same]

/-! ## The counterexample -/

/-- An activation word. -/
def flawedWord : Entry := { data := 7, cyc := 50 }

/-- A tile that runs, with an activation word, an accumulator bank 0 that no pass has written and whose codewords hold a
correctable error, and a tally of such errors. -/
def flawedBank : Tile :=
  { ({} : Tile).setEnd64 qeMA [flawedWord] with
    seq := { ({} : Seq) with run := true }
    marks := [(markKey 6 2, 1)]
    tally0 := { event := 0x08 } }

/-- A device in a replay, in cycle 100, whose tile 0 is that tile. -/
def flawedState : State :=
  { State.reset with
    fab := { State.reset.fab with tiles := [(0, flawedBank)], scc := 100 }
    stew := { State.reset.stew with program := { State.reset.stew.program with armed := true, replays := 1 } } }

/-- An MMA that adds a pass of FMT 0 to bank 0. -/
def addToFlawed : MSlot := { fmt := 0, bank := 0, acc := true, plane := false, ag := 0, off := 0, rsv := 0 }

/-- The tile's M slot can take the MMA. -/
theorem flawedState_slotOpen : SlotOpen flawedState 0 0 :=
  ⟨by decide, by decide, by decide, .inr (by decide), by decide, by decide⟩

/-- The tile after the MMA's pop of the word. -/
def flawedPopped : Tile := (flawedState.slotTile 0 0).afterPop qeMA flawedWord []

/-- The MMA can pop the word. -/
theorem flawedState_canPop : (flawedState.slotTile 0 0).CanPop 100 qeMA flawedWord [] :=
  ⟨rfl, rfl, eq_false (by decide), by decide⟩

end Sys2Proof.Machine

open Sys2Proof Sys2Proof.Machine

/-- Refutes O9: an ACC = 1 pass into a bank of class none reads no bank, so that a correctable error in the bank, which the
statement has counted, is not. -/
theorem not_matrixUnitCompletes : ¬ Obligations.MatrixUnitCompletes := by
  intro holds
  have plane : flawedPopped.readMark 6 0 0 0 = .ok flawedPopped := rfl
  have bank : flawedPopped.readMark 6 2 0 2 = .ok (flawedPopped.count 0x08 1) := rfl
  have claimed : Issues (.mma 0 addToFlawed) flawedState 0
      ((flawedPopped.count 0x08 1).startPass 100 addToFlawed flawedWord.data) :=
    (holds flawedState 0 addToFlawed).1 flawedWord [] flawedPopped (flawedPopped.count 0x08 1)
      flawedState_slotOpen rfl rfl rfl (by decide) (by decide) (by decide) flawedState_canPop plane bank
  have unread := mmaIssue_otherClass (m := addToFlawed) (env := flawedState.issueEnv 0) rfl rfl rfl (by decide) (by decide)
    (by decide) flawedState_canPop plane (by decide)
  have happens : Issues (.mma 0 addToFlawed) flawedState 0 (flawedPopped.startPass 100 addToFlawed flawedWord.data) :=
    issues_of_ok flawedState_slotOpen rfl unread
  have counts := startPass_tally0_eq rfl rfl claimed happens
  exact absurd counts (by decide)
end

section
/-!
O14: where a loop end leaves the levels and the PC, by induction on the number of levels that it has still to look at.
-/
namespace Sys2Proof.Machine

/-- The level has iterations left after the present one. -/
def Loop.left (l : Loop) : Prop := l.index.toNat + 1 < l.count.toNat

/-- The level after its last iteration, as an outer level that advances finds it. -/
def Loop.finished (l : Loop) : Loop := if l.active = true then { l with index := 0 } else l

/-- A level reads as it was set, and every other as before. -/
@[simp] theorem Tile.loop_setLoop (x : Tile) (k j : Nat) (l : Loop) :
    (x.setLoop k l).loop j = if j = k then l else x.loop j :=
  Sparse.get_set _ _ _ _ _

/-- The level one iteration on. -/
def Loop.advanced (l : Loop) : Loop := { l with index := l.index + 1 }

/-- A level that finishes: an active one starts its index anew. -/
def Tile.finishLoop (x : Tile) (j : Nat) : Tile :=
  if (x.loop j).active then x.setLoop j { x.loop j with index := 0 } else x

@[simp] theorem Tile.loop_finishLoop (x : Tile) (k j : Nat) :
    (x.finishLoop k).loop j = if j = k then (x.loop k).finished else x.loop j := by
  unfold Tile.finishLoop Loop.finished
  by_cases active : (x.loop k).active = true
  · rw [if_pos active, if_pos active, Tile.loop_setLoop]
  · rw [if_neg active, if_neg active]
    split
    · next same => rw [same]
    · rfl

@[simp] theorem Tile.finishLoop_pc (x : Tile) (j : Nat) : (x.finishLoop j).seq.pc = x.seq.pc := by
  unfold Tile.finishLoop
  split <;> rfl

/-! ## One level -/

/-- A level outside LEVEL is passed over. -/
theorem Tile.closeLoops_below {x : Tile} {k j : Nat} (below : j < k) (js : List Nat) :
    x.closeLoops k (j :: js) = x.closeLoops k js := by
  rw [Tile.closeLoops]
  simp [below]

/-- A level without iterations left finishes, and the next outer one is looked at. -/
theorem Tile.closeLoops_finishes {x : Tile} {k j : Nat} (inside : k ≤ j)
    (last : (x.loop j).active = true → ¬ (x.loop j).left) (js : List Nat) :
    x.closeLoops k (j :: js) = (x.finishLoop j).closeLoops k js := by
  rw [Tile.closeLoops, Tile.finishLoop]
  cases active : (x.loop j).active with
  | false => simp
  | true =>
    have done : ¬ (x.loop j).index.toNat + 1 < (x.loop j).count.toNat := last active
    simp [active, Nat.not_lt.mpr inside, done]

/-- An active level with iterations left counts on and goes back to its start. -/
theorem Tile.closeLoops_advances {x : Tile} {k a : Nat} (inside : k ≤ a) (active : (x.loop a).active = true)
    (left : (x.loop a).left) (js : List Nat) :
    let y := x.setLoop a (x.loop a).advanced
    x.closeLoops k (a :: js) = { y with seq := { y.seq with pc := (x.loop a).start } } := by
  have more : (x.loop a).index.toNat + 1 < (x.loop a).count.toNat := left
  rw [Tile.closeLoops]
  simp [active, Nat.not_lt.mpr inside, more, Loop.advanced]

/-! ## The levels from the innermost outwards -/

/-- The levels below `n`, innermost first. -/
theorem range_succ_reverse (n : Nat) : (List.range (n + 1)).reverse = n :: (List.range n).reverse := by
  rw [List.range_succ, List.reverse_append]
  rfl

/-- The loop end goes back to the innermost level with iterations left, the levels inside which have finished. -/
theorem Tile.closeLoops_back {k a : Nat} (inside : k ≤ a) (n : Nat) (x : Tile) (below : a < n)
    (active : (x.loop a).active = true) (left : (x.loop a).left)
    (last : ∀ j, a < j → j < n → (x.loop j).active = true → ¬ (x.loop j).left) :
    (x.closeLoops k (List.range n).reverse).seq.pc = (x.loop a).start
      ∧ ∀ j, (x.closeLoops k (List.range n).reverse).loop j =
        if j = a then (x.loop a).advanced
        else if a < j ∧ j < n then (x.loop j).finished else x.loop j := by
  induction n generalizing x with
  | zero => omega
  | succ n ih =>
    rw [range_succ_reverse]
    rcases Nat.lt_succ_iff_lt_or_eq.mp below with inner | rfl
    · have apart : a ≠ n := by omega
      have kept : (x.finishLoop n).loop a = x.loop a := by rw [Tile.loop_finishLoop, if_neg apart]
      rw [Tile.closeLoops_finishes (by omega) (last n inner (by omega))]
      obtain ⟨pc, loops⟩ := ih (x.finishLoop n) inner (by rwa [kept]) (by rwa [kept]) fun j above low => by
        rw [Tile.loop_finishLoop, if_neg (by omega)]
        exact last j above (by omega)
      rw [kept] at pc loops
      refine ⟨pc, fun j => ?_⟩
      rw [loops, Tile.loop_finishLoop]
      by_cases top : j = n
      · simp [top, inner, apart.symm]
      · have same : j < n ↔ j < n + 1 := by omega
        simp only [if_neg top, same]
    · rw [Tile.closeLoops_advances inside active left]
      refine ⟨rfl, fun j => ?_⟩
      have none_inside : ¬ (a < j ∧ j < a + 1) := by omega
      rw [if_neg none_inside]
      exact Tile.loop_setLoop x a j _

/-- A run over some levels closes those of them from LEVEL on, and no other. -/
theorem Tile.loop_foldl_close (k : Nat) (js : List Nat) (x : Tile) :
    let y := js.foldl (fun y j => if k ≤ j then y.setLoop j { y.loop j with active := false } else y) x
    y.seq.pc = x.seq.pc
      ∧ ∀ j, y.loop j = if k ≤ j ∧ j ∈ js then { x.loop j with active := false } else x.loop j := by
  induction js generalizing x with
  | nil => simp
  | cons i js ih =>
    rw [List.foldl_cons]
    obtain ⟨pc, loops⟩ := ih (if k ≤ i then x.setLoop i { x.loop i with active := false } else x)
    refine ⟨pc.trans ?_, fun j => (loops j).trans ?_⟩
    · split <;> rfl
    · by_cases from_k : k ≤ i
      · by_cases same : j = i
        · simp [from_k, same]
        · simp [from_k, same]
      · have other : k ≤ j → j ≠ i := by omega
        by_cases from_j : k ≤ j
        · simp [from_k, from_j, other from_j]
        · simp [from_k, from_j]

/-- A level outside LEVEL is never touched. -/
theorem Tile.closeLoops_outside {j k : Nat} (outside : j < k) (js : List Nat) (x : Tile) :
    (x.closeLoops k js).loop j = x.loop j := by
  induction js generalizing x with
  | nil =>
    have closed := (Tile.loop_foldl_close k (List.range 6) x).2 j
    rwa [if_neg (by omega)] at closed
  | cons i js ih =>
    by_cases below : i < k
    · rw [Tile.closeLoops_below below, ih]
    · have inside : k ≤ i := Nat.not_lt.mp below
      have other : j ≠ i := by omega
      by_cases goes : (x.loop i).active = true ∧ (x.loop i).left
      · rw [Tile.closeLoops_advances inside goes.1 goes.2]
        exact (Tile.loop_setLoop x i j _).trans (if_neg other)
      · rw [Tile.closeLoops_finishes inside (not_and.mp goes), ih, Tile.loop_finishLoop, if_neg other]

/-- Where no level has iterations left, the PC goes on and every level from LEVEL on closes. -/
theorem Tile.closeLoops_out {k : Nat} (n : Nat) (small : n ≤ 6) (x : Tile)
    (last : ∀ j, k ≤ j → j < n → (x.loop j).active = true → ¬ (x.loop j).left) :
    (x.closeLoops k (List.range n).reverse).seq.pc = x.seq.pc
      ∧ ∀ j, (x.closeLoops k (List.range n).reverse).loop j =
        if k ≤ j ∧ j < 6 then { (if j < n then (x.loop j).finished else x.loop j) with active := false }
        else x.loop j := by
  induction n generalizing x with
  | zero =>
    obtain ⟨pc, loops⟩ := Tile.loop_foldl_close k (List.range 6) x
    refine ⟨pc, fun j => (loops j).trans ?_⟩
    simp only [List.mem_range, Nat.not_lt_zero, if_false]
  | succ n ih =>
    rw [range_succ_reverse]
    by_cases below : n < k
    · rw [Tile.closeLoops_below below]
      obtain ⟨pc, loops⟩ := ih (by omega) x fun j inside low => last j inside (by omega)
      refine ⟨pc, fun j => (loops j).trans ?_⟩
      by_cases inside : k ≤ j ∧ j < 6
      · rw [if_pos inside, if_pos inside, if_neg (by omega), if_neg (by omega)]
      · rw [if_neg inside, if_neg inside]
    · rw [Tile.closeLoops_finishes (by omega) (last n (by omega) (by omega))]
      obtain ⟨pc, loops⟩ := ih (by omega) (x.finishLoop n) fun j inside low => by
        rw [Tile.loop_finishLoop, if_neg (by omega)]
        exact last j inside (by omega)
      refine ⟨pc.trans (x.finishLoop_pc n), fun j => (loops j).trans ?_⟩
      rw [Tile.loop_finishLoop]
      by_cases top : j = n
      · simp [top, Nat.not_lt.mp below, show n < 6 by omega]
      · have same : j < n ↔ j < n + 1 := by omega
        simp only [if_neg top, same]

/-! ## The loop end of a bundle -/

/-- A loop end of an active level, in a bundle that chooses no PC of its own, closes its loops. -/
theorem loopEndIssue_ok {level : BitVec 3} (env : IssueEnv) {z : Tile} {b : Bundle} (small : level.toNat < 6)
    (bundle : z.bundle = some b) (active : b.active.getLsbD level.toNat = true)
    (stays : ([2, 4, 0x21, 0x22, 0x23] : List Nat).contains b.cop = false) :
    loopEndIssue level 0 env z =
      .ok ((z.closeLoops level.toNat [5, 4, 3, 2, 1, 0]).modBundle fun b => { b with closed := true }) := by
  have form : (decide True && decide (level.toNat < 6)) = true := by simp [small]
  have nest : (z.bundle.any fun b => b.active.getLsbD level.toNat
      && !([2, 4, 0x21, 0x22, 0x23] : List Nat).contains b.cop) = true := by
    rw [bundle, Option.any_some, active, stays]
    rfl
  simp only [loopEndIssue, form, nest, check_true, except_ok_bind]

end Sys2Proof.Machine

open Sys2Proof Sys2Proof.Machine

/-- Settles O14: the six levels are looked at from the innermost outwards, up to one with iterations left, if there is
one. -/
theorem loopEndCompletes : Obligations.LoopEndCompletes := by
  intro s t level b slot z k y left finished small bundle active stays
  have back {a : Nat} (inside : k ≤ a) (top : a ≤ 5) (active : (z.loop a).active = true) (more : left a)
      (last : ∀ j, a < j → j ≤ 5 → (z.loop j).active = true → ¬ left j) :=
    Tile.closeLoops_back inside 6 z (by omega) active more fun j above low => last j above (by omega)
  have out (last : ∀ j, k ≤ j → j ≤ 5 → (z.loop j).active = true → ¬ left j) :=
    Tile.closeLoops_out 6 le_rfl z fun j inside low => last j inside (by omega)
  refine ⟨issues_of_ok slot rfl (loopEndIssue_ok _ small bundle active stays), fun j outside => ?_,
    fun a inside top active more last => ?_, fun last => ?_⟩
  · exact Tile.closeLoops_outside outside _ z
  · obtain ⟨pc, loops⟩ := back inside top active more last
    refine ⟨pc, (loops a).trans (if_pos rfl), fun j from_k low => (loops j).trans ?_, fun j above low => (loops j).trans ?_⟩
    · rw [if_neg (by omega), if_neg (by omega)]
    · rw [if_neg (by omega), if_pos (by omega)]
      rfl
  · obtain ⟨pc, loops⟩ := out last
    refine ⟨pc, fun j inside low => (loops j).trans ?_⟩
    rw [if_pos (by omega), if_pos (by omega)]
    rfl
end

section
/-!
O48: what a lane of a result is, and the integer and bit operations lane by lane.
-/
namespace Sys2Proof.Machine

/-! ## Lanes -/

/-- A digit of the number whose digits in base `b` are given. -/
theorem digit_foldr {b : Nat} (pos : 0 < b) (g : Nat → Nat) (xs : List Nat) {i : Nat} (h : i < xs.length) :
    xs.foldr (fun x acc => g x % b + b * acc) 0 / b ^ i % b = g xs[i] % b := by
  induction xs generalizing i with
  | nil => cases h
  | cons x xs ih =>
    have low : g x % b < b := Nat.mod_lt _ pos
    rw [List.foldr_cons]
    cases i with
    | zero => rw [pow_zero, Nat.div_one, Nat.add_mul_mod_self_left, Nat.mod_mod, List.getElem_cons_zero]
    | succ i =>
      rw [Nat.pow_succ', ← Nat.div_div_eq_div_mul, Nat.add_mul_div_left _ _ pos, Nat.div_eq_of_lt low, Nat.zero_add,
        ih (Nat.lt_of_succ_lt_succ h), List.getElem_cons_succ]

/-- A slice of a number that lies within a word is the slice of the word. -/
theorem extractLsb'_ofNat_toNat {n lo w : Nat} (h : lo + w ≤ n) (v : Nat) :
    ((BitVec.ofNat n v).extractLsb' lo w).toNat = v / 2 ^ lo % 2 ^ w := by
  obtain ⟨k, rfl⟩ : ∃ k, n = lo + (w + k) := ⟨n - lo - w, by omega⟩
  rw [BitVec.extractLsb'_toNat, BitVec.toNat_ofNat, Nat.shiftRight_eq_div_pow, Nat.pow_add, Nat.mod_mul_right_div_self,
    Nat.pow_add, Nat.mod_mul_right_mod]

/-- Lane `i` of a vector that is made of its lanes. -/
theorem lane32_vecOf32 (f : Nat → Nat) {i : Nat} (h : i < 128) : lane32 (vecOf32 f) i = f i % 2 ^ 32 := by
  rw [lane32, vecOf32, extractLsb'_ofNat_toNat (by omega), Nat.pow_mul,
    digit_foldr (by decide) f _ (by rwa [List.length_range]), List.getElem_range]

theorem lane32_lt (v : Vec) (i : Nat) : lane32 v i < 2 ^ 32 := (v.extractLsb' (32 * i) 32).isLt

/-- An operation that computes its lanes one by one gives in lane `i` the value of its function there, and no flag. -/
theorem LaneOp.run_perLaneI {o : LaneOp} {form : VForm} {lat : Nat} {f : VSlot → Nat → Nat → Nat → Nat}
    (op : o = { form := form, lat := lat, run := perLaneI f }) {v : VSlot} {a b c : Vec} {i r : Nat} (h : i < 128)
    (value : f v (lane32 a i) (lane32 b i) (lane32 c i) = r) (word : r < 2 ^ 32) :
    lane32 (o.run v a b c).1 i = r ∧ (o.run v a b c).2 = 0 := by
  rw [op]
  refine ⟨(lane32_vecOf32 _ h).trans ?_, rfl⟩
  rw [value, Nat.mod_eq_of_lt word]

theorem lane32_and (a b : Vec) (i : Nat) : lane32 (a &&& b) i = lane32 a i &&& lane32 b i := by
  rw [lane32, BitVec.extractLsb'_and, BitVec.toNat_and]
  rfl

theorem lane32_or (a b : Vec) (i : Nat) : lane32 (a ||| b) i = lane32 a i ||| lane32 b i := by
  rw [lane32, BitVec.extractLsb'_or, BitVec.toNat_or]
  rfl

theorem lane32_xor (a b : Vec) (i : Nat) : lane32 (a ^^^ b) i = lane32 a i ^^^ lane32 b i := by
  rw [lane32, BitVec.extractLsb'_xor, BitVec.toNat_xor]
  rfl

/-! ## The shift with the sign -/

/-- A word without the sign shifts to the right like a number. -/
theorem sshiftRight_low {x : Nat} (low : x < 2 ^ 31) (n : Nat) :
    ((BitVec.ofNat 32 x).sshiftRight n).toNat = x / 2 ^ n := by
  have value : (BitVec.ofNat 32 x).toNat = x := Nat.mod_eq_of_lt (by omega)
  have sign : (BitVec.ofNat 32 x).msb = false := BitVec.msb_eq_false_iff_two_mul_lt.mpr (by omega)
  rw [BitVec.toNat_sshiftRight_of_msb_false sign, value, Nat.shiftRight_eq_div_pow]

/-- A word with the sign shifts to the right with ones behind it. -/
theorem sshiftRight_high {x n : Nat} (high : 2 ^ 31 ≤ x) (word : x < 2 ^ 32) (small : n ≤ 32) :
    ((BitVec.ofNat 32 x).sshiftRight n).toNat = 2 ^ 32 - 2 ^ (32 - n) + x / 2 ^ n := by
  have value : (BitVec.ofNat 32 x).toNat = x := Nat.mod_eq_of_lt word
  have sign : (BitVec.ofNat 32 x).msb = true := BitVec.msb_eq_true_iff_two_mul_ge.mpr (by omega)
  have split : 2 ^ 32 = 2 ^ n * 2 ^ (32 - n) := by rw [← Nat.pow_add, Nat.add_sub_cancel' small]
  have complement : (2 ^ 32 - 1 - x) / 2 ^ n = 2 ^ (32 - n) - 1 - x / 2 ^ n := by
    rw [show 2 ^ 32 - 1 - x = 2 ^ 32 - (x + 1) by omega, split, Nat.mul_sub_div x _ _ (by rwa [← split])]
    omega
  have quotient : x / 2 ^ n < 2 ^ (32 - n) := Nat.div_lt_of_lt_mul (by rwa [← split])
  have bound : 2 ^ (32 - n) ≤ 2 ^ 32 := Nat.pow_le_pow_right (by decide) (by omega)
  have flip {p q : Nat} (less : q < p) (top : p ≤ 2 ^ 32) : 2 ^ 32 - 1 - (p - 1 - q) = 2 ^ 32 - p + q := by omega
  rw [BitVec.toNat_sshiftRight_of_msb_true sign, value, Nat.shiftRight_eq_div_pow, complement, flip quotient bound]

end Sys2Proof.Machine

open Sys2Proof Sys2Proof.Machine

/-- Settles O48: each operation's function of the lanes stays below 2^32, so that the lane of the result is its value. -/
theorem integerLanesCompute : Obligations.IntegerLanesCompute := by
  intro v a b c i h x y n gives
  have xlt : x < 2 ^ 32 := lane32_lt a i
  have ylt : y < 2 ^ 32 := lane32_lt b i
  have modlt (k : Nat) : k % 2 ^ 32 < 2 ^ 32 := Nat.mod_lt _ (by decide)
  have divlt : x / 2 ^ n < 2 ^ 32 := (Nat.div_le_self _ _).trans_lt xlt
  have nlt : n < 32 := Nat.mod_lt _ (by decide)
  refine ⟨⟨rfl, rfl⟩, LaneOp.run_perLaneI rfl h rfl (modlt _), LaneOp.run_perLaneI rfl h ?_ (modlt _),
    LaneOp.run_perLaneI rfl h rfl (modlt _), ⟨lane32_and a b i, rfl⟩, ⟨lane32_or a b i, rfl⟩, ⟨lane32_xor a b i, rfl⟩,
    LaneOp.run_perLaneI rfl h rfl (modlt _), LaneOp.run_perLaneI rfl h rfl divlt,
    fun low => LaneOp.run_perLaneI rfl h (sshiftRight_low low n) divlt,
    fun high => LaneOp.run_perLaneI rfl h (sshiftRight_high high xlt nlt.le) ?_,
    ⟨(lane32_vecOf32 _ h).trans (Nat.mod_eq_of_lt (lane32_lt _ _)), rfl⟩,
    LaneOp.run_perLaneI rfl h rfl ((Nat.mod_lt x (by decide)).trans (by decide)),
    LaneOp.run_perLaneI rfl h rfl (modlt _), LaneOp.run_perLaneI rfl h rfl ?_⟩
  · rw [Nat.add_sub_assoc ylt.le]
  · rw [← sshiftRight_high high xlt nlt.le]
    exact ((BitVec.ofNat 32 x).sshiftRight n).isLt
  · split
    · exact ylt
    · exact xlt
end

section
/-!
O3: the fields of a bundle as a word, and the commands that it spells.
-/
namespace Sys2Proof.Machine

/-! ## Fields of a word -/

/-- A field that lies above the low part of a word is one of the high part. -/
theorem extractLsb'_append_high {n m lo len : Nat} (x : BitVec n) (y : BitVec m) (h : m ≤ lo) :
    (x ++ y).extractLsb' lo len = x.extractLsb' (lo - m) len := by
  ext i hi
  rw [BitVec.getElem_extractLsb', BitVec.getElem_extractLsb', BitVec.getLsbD_append, if_neg (by omega),
    Nat.sub_add_comm h]

/-- A field that lies within the low part of a word is one of the low part. -/
theorem extractLsb'_append_low {n m lo len : Nat} (x : BitVec n) (y : BitVec m) (h : lo + len ≤ m) :
    (x ++ y).extractLsb' lo len = y.extractLsb' lo len := by
  ext i hi
  rw [BitVec.getElem_extractLsb', BitVec.getElem_extractLsb', BitVec.getLsbD_append, if_pos (by omega)]

/-- The low part of a word is the field from its bit 0 on. -/
theorem extractLsb'_append_zero {n m : Nat} (x : BitVec n) (y : BitVec m) : (x ++ y).extractLsb' 0 m = y :=
  (extractLsb'_append_low x y (Nat.zero_add m).le).trans BitVec.extractLsb'_eq_self

/-- Seven fields of a word, each from the place on where the ones before it end. -/
theorem extractLsb'_fields {d m v l a b c : Nat} (hdr : BitVec d) (mw : BitVec m) (vw : BitVec v) (lw : BitVec l)
    (aw : BitVec a) (bw : BitVec b) (cw : BitVec c) :
    let w := cw ++ bw ++ aw ++ lw ++ vw ++ mw ++ hdr
    w.extractLsb' 0 d = hdr ∧ w.extractLsb' d m = mw ∧ w.extractLsb' (d + m) v = vw
      ∧ w.extractLsb' (d + m + v) l = lw ∧ w.extractLsb' (d + m + v + l) a = aw
      ∧ w.extractLsb' (d + m + v + l + a) b = bw ∧ w.extractLsb' (d + m + v + l + a + b) c = cw := by
  refine ⟨?_, ?_, ?_, ?_, ?_, ?_, ?_⟩ <;>
    simp (disch := omega) only [extractLsb'_append_zero, extractLsb'_append_high, Nat.add_assoc, Nat.sub_self,
      Nat.add_sub_cancel_left, BitVec.extractLsb'_eq_self]

/-- The fields of a bundle, each at its place (R101). -/
theorem bundle_fields (hdr : BitVec 8) (m : BitVec 40) (v : BitVec 64) (l : BitVec 48) (a b : BitVec 24) (c : BitVec 48) :
    let w : BitVec 256 := c ++ b ++ a ++ l ++ v ++ m ++ hdr
    w.setWidth 8 = hdr ∧ w.extractLsb' 8 40 = m ∧ w.extractLsb' 48 64 = v ∧ w.extractLsb' 112 48 = l
      ∧ w.extractLsb' 160 24 = a ∧ w.extractLsb' 184 24 = b ∧ w.extractLsb' 208 48 = c := by
  intro w
  rw [BitVec.setWidth_eq_extractLsb' (by decide)]
  exact extractLsb'_fields hdr m v l a b c

/-! ## The commands of a bundle -/

/-- In a running cycle the tile that issues next gives the commands of the bundle at its PC. -/
theorem State.bundleNext_of_issuesNext {s : State} {t : Nat} (run : s.running = true) (next : s.issuesNext = some t) :
    s.bundleNext = some (decodeBundle (BitVec.ofNat 10 t)
      (Sparse.get 0 (s.tile t).seq.imem (s.tile t).seq.pc.toNat)) := by
  rw [State.bundleNext, run, next]
  rfl

/-- A bundle of NOPs is one command. -/
theorem decodeBundle_nops {t : TileNo} {w : BitVec 256} (nops : w.extractLsb' 8 248 = 0) :
    decodeBundle t w = [.nop t (w.setWidth 8)] := by
  rw [decodeBundle, if_pos nops]

/-- A bundle with a slot in use, whose header keeps R102, gives the commands of its slots and then its loop end. -/
theorem decodeBundle_slots {t : TileNo} {w : BitVec 256} (used : w.extractLsb' 8 248 ≠ 0)
    (header : (w.setWidth 8).getLsbD 0 = true ∨ w.setWidth 8 = (0 : BitVec 8)) :
    decodeBundle t w = slotCommand t .m decodeM (w.extractLsb' 8 40) ++ slotCommand t .v decodeV (w.extractLsb' 48 64)
      ++ slotCommand t .l decodeL (w.extractLsb' 112 48) ++ slotCommand t .s decodeS (w.extractLsb' 160 24)
      ++ slotCommand t .s decodeS (w.extractLsb' 184 24) ++ slotCommand t .c decodeC (w.extractLsb' 208 48)
      ++ (if (w.setWidth 8).getLsbD 0 then
          [.loopEnd t ((w.setWidth 8 : BitVec 8).extractLsb' 1 3) ((w.setWidth 8 : BitVec 8).extractLsb' 4 4)] else []) := by
  have good : (!(w.setWidth 8 : BitVec 8).getLsbD 0 && (w.setWidth 8 : BitVec 8) != 0) = false := by
    rcases header with set | zero
    · rw [set]
      rfl
    · rw [zero]
      rfl
  simp only [decodeBundle, if_neg used, good, Bool.false_eq_true, if_false]

end Sys2Proof.Machine

open Sys2Proof Sys2Proof.Machine

/-- Settles O3, by the fields of the word. -/
theorem bundlesSpellCommands : Obligations.BundlesSpellCommands := by
  refine ⟨fun s t => State.bundleNext_of_issuesNext, fun t hdr m v l a b c => ?_⟩
  intro w
  obtain ⟨hhdr, hm, hv, hl, ha, hb, hc⟩ := bundle_fields hdr m v l a b c
  refine ⟨fun nops => ?_, fun used header => ?_⟩
  · rw [decodeBundle_nops nops, hhdr]
  · rw [decodeBundle_slots used (by rwa [hhdr]), hhdr, hm, hv, hl, ha, hb, hc]
end

section
/-!
O7: the lane-wise operations and those of the FP64 pipe, by what all of either table have in common.
-/
namespace Sys2Proof.Machine

/-! ## The tables -/

/-- Each entry of the table of lane-wise operations issues its operation in the V slot, and its operation has the latency of the
entry. -/
theorem laneTable_issue : ∀ p ∈ laneTable, p.2.1.lat = p.2.2 ∧
    ∀ (t : TileNo) (v : VSlot) (s : State), exec (p.1 t v) s = .next (s.issue t 1 (laneIssue p.2.1 v) (vUses v)) := by
  simp only [laneTable, List.forall_mem_cons, List.not_mem_nil, false_imp_iff, implies_true, and_true]
  and_intros <;> intros <;> rfl

/-- Each entry of the FP64 table issues its operation in the V slot, where at most PART is restricted to 0 and 1, and its operation
has the latency of the entry. -/
theorem fp64Table_issue : ∀ p ∈ fp64Table, p.2.1.lat = p.2.2 ∧
    ∀ (t : TileNo) (v : VSlot) (s : State), ∃ extra : Bool, (v.part.toNat < 2 → extra = true)
      ∧ exec (p.1 t v) s = .next (s.issue t 1 (fp64Issue p.2.1 extra v) (vUses v)) := by
  simp only [fp64Table, List.forall_mem_cons, List.not_mem_nil, false_imp_iff, implies_true, and_true]
  exact ⟨⟨rfl, fun t v s => ⟨true, fun _ => rfl, rfl⟩⟩, ⟨rfl, fun t v s => ⟨true, fun _ => rfl, rfl⟩⟩,
    ⟨rfl, fun t v s => ⟨true, fun _ => rfl, rfl⟩⟩, ⟨rfl, fun t v s => ⟨true, fun _ => rfl, rfl⟩⟩,
    ⟨rfl, fun t v s => ⟨_, decide_eq_true, rfl⟩⟩, ⟨rfl, fun t v s => ⟨_, decide_eq_true, rfl⟩⟩⟩

/-! ## The bodies -/

/-- A lane-wise operation with legal fields and readable sources puts its lanes in the pipe. -/
theorem laneIssue_ok {o : LaneOp} {v : VSlot} {env : IssueEnv} {z y : Tile} {a b c : Vec} (form : o.form.ok v = true)
    (sources : z.sources env.now o.form v = .ok (a, b, c, y)) :
    laneIssue o v env z = .ok ((y.result env.now o.lat v.dst (o.run v a b c).1 (o.run v a b c).2).count 0x05 1) := by
  simp only [laneIssue, form, check_true, except_ok_bind, sources]

/-- On grade F an FP64 operation with legal fields, a free pipe and readable sources puts its lanes in the pipe and occupies it. -/
theorem fp64Issue_ok {o : LaneOp} {extra : Bool} {v : VSlot} {env : IssueEnv} {z y : Tile} {a b c : Vec}
    (grade : env.grade = 0) (form : o.form.ok v = true) (fields : extra = true) (free : z.fp64Busy env.now = false)
    (sources : z.sources env.now o.form v = .ok (a, b, c, y)) :
    let x := y.result env.now o.lat v.dst (o.run v a b c).1 (o.run v a b c).2
    fp64Issue o extra v env z = .ok ({ x with vec := { x.vec with fp64Until := some (env.now + 1) } }.count 0x05 1) := by
  simp only [fp64Issue, form, fields, grade, free, Bool.and_self, decide_true, Bool.not_false, check_true, except_ok_bind,
    sources]

end Sys2Proof.Machine

open Sys2Proof Sys2Proof.Machine

/-- Settles O7, table by table. -/
theorem vectorOperationsComplete : Obligations.VectorOperationsComplete := by
  refine ⟨fun p listed s t v a b c y slot form sources => ?_,
    fun p listed s t v a b c y slot grade form part free sources => ?_⟩
  · obtain ⟨lat, runs⟩ := laneTable_issue p listed
    rw [← lat]
    exact issues_of_ok slot (runs t v s) (laneIssue_ok form sources)
  · obtain ⟨lat, runs⟩ := fp64Table_issue p listed
    obtain ⟨extra, fields, run⟩ := runs t v s
    rw [← lat]
    exact issues_of_ok slot run (fp64Issue_ok grade form (fields part) free sources)
end

section
/-!
O10: scheduled reads and stores of the scratchpad. A store differs from another by the lines that it goes to, home or escrow, and by
where its data come from.
-/
namespace Sys2Proof.Machine

/-! ## The checks of an access -/

/-- An address that passes the checks of the banks lies in the slice. -/
theorem lt_padTop_of_bankCheck {env : IssueEnv} {x : Tile} {write wide : Bool} {a : Nat}
    (h : bankCheck env x write wide a = .ok ()) : a < padTop := by
  by_contra out
  rw [bankCheck, decide_eq_false out, check_false, except_error_bind] at h
  cases h

/-- An address of the slice is not that of an absent tile. -/
theorem padAbsent_of_lt {env : IssueEnv} {a : Nat} (h : a < padTop) : padAbsent env a = .ok () := by
  rw [padAbsent, if_pos h]

/-- The checks of the banks read the state of the slice only. -/
theorem bankCheck_congr {x y : Tile} (h : x.pad = y.pad) (env : IssueEnv) (write wide : Bool) (a : Nat) :
    bankCheck env x write wide a = bankCheck env y write wide a := by
  simp only [bankCheck, Tile.bankDead, h]

/-- The address of a generator reads the sequencer only. -/
theorem Tile.agAddr_congr {x y : Tile} (h : x.seq = y.seq) (g : BitVec 4) (off : BitVec 12) :
    x.agAddr g off = y.agAddr g off := by
  unfold Tile.agAddr Tile.loopIndex Tile.loop Tile.agWord
  rw [h]

/-- A push that has been claimed leaves the sequencer. -/
theorem Tile.claimPush_seq {z x : Tile} {slot : Nat} {q : BitVec 6} (claim : z.claimPush slot q = .ok x) :
    x.seq = z.seq := by
  unfold Tile.claimPush at claim
  split at claim
  · cases claim
    rfl
  · split at claim
    · cases claim
    · cases claim
      rfl

/-! ## Reads -/

/-- The tile with a read of cycle `now` in flight. -/
def Tile.startRead (x : Tile) (now : Scc) (l : LSlot) (wide : Bool) (oc : Option (BitVec 7)) : Tile :=
  let a := padAlign wide (x.agAddr l.ag l.off)
  let y := (x.noteAccess now false wide a).count 0x06 1
  { y with pad := { y.pad with reads := y.pad.reads ++
    [{ addr := BitVec.ofNat 21 a, wide := wide, oc := oc, dst := l.qe, chk := l.chk, issued := now, iaddr := y.iaddr }] } }

/-- A read whose fields are legal, whose push is claimed and which passes the checks of its address is in flight. -/
theorem readIssue_ok {wide oc : Bool} {role : BitVec 6 → Bool} {l : LSlot} {env : IssueEnv} {z x : Tile} (rsv : l.rsv = 0)
    (legal : role l.qe = true) (second : (oc || (l.ag2 = 0 && l.off2 = 0)) = true) (chk : chkOk l z true = true)
    (claim : z.claimPush 2 l.qe = .ok x) (escrow : escrowCheck env x (padAlign wide (x.agAddr l.ag l.off)) = .ok ())
    (bank : bankCheck env x false wide (padAlign wide (x.agAddr l.ag l.off)) = .ok ()) :
    readIssue wide oc role l env z = .ok (x.startRead env.now l wide
      (if oc then some (BitVec.ofNat 7 ((x.agAddr l.ag2 l.off2).toNat % 65536 / 512)) else none)) := by
  have form : (l.rsv = 0 && role l.qe && (oc || (l.ag2 = 0 && l.off2 = 0)) && chkOk l z true) = true := by
    simp only [rsv, legal, second, chk, decide_true, Bool.and_self]
  have address : z.agAddr l.ag l.off = x.agAddr l.ag l.off := Tile.agAddr_congr (Tile.claimPush_seq claim).symm _ _
  have present := padAbsent_of_lt (env := env) (lt_padTop_of_bankCheck bank)
  simp only [readIssue, form, address, present, claim, escrow, bank, check_true, except_ok_bind]
  rfl

/-! ## The data of a store -/

/-- The tile `y` has the data `d` for a store from `q` and is `x` without them: ST pops a word, and STV pops a value or reads a
register (R117). -/
inductive Tile.Stores (y : Tile) (now : Scc) (q : BitVec 6) : Bool → Vec → Tile → Prop where
  | word {w : Line} {x : Tile} (source : qeSrc64 q = true) (pop : y.pop64 now 2 q = .ok (w, x)) :
    Stores y now q false (w.setWidth 4096) x
  | value {v : Vec} {x : Tile} (source : qeIsVQ q = true) (pop : y.popV now 2 q = .ok (v, x)) : Stores y now q true v x
  | register {x : Tile} (source : qeIsReg q = true)
    (read : y.readMark 3 (q.toNat - 0x20) 2 (q.toNat - 0x20) = .ok x) : Stores y now q true (x.vreg q) x

/-- An end that has not been popped, and whose first word is of an earlier cycle, is ready. -/
theorem Tile.endsReady_of_head {y : Tile} {now : Scc} {q : BitVec 6} (fresh : y.popped q = false)
    (older : (if qeIsVQ q then ((y.vq q).head?.all fun e => e.cyc = now) else ((y.end64 q).head?.all fun e => e.cyc = now))
      = false) (slot : Nat) : y.endsReady now slot ([q].filter qePops) = .ok () := by
  cases pops : qePops q with
  | false => simp [Tile.endsReady, pops]
  | true => simp only [Tile.endsReady, pops, List.filter_cons_of_pos, List.filter_nil, List.any_cons, List.any_nil, fresh,
      Bool.or_self, Bool.false_eq_true, if_false, List.find?_cons, older, List.find?_nil]

/-- A correction on the way leaves the slice. -/
theorem Tile.popMark_pad (x : Tile) (m : BitVec 2) : (x.popMark m).pad = x.pad := by
  unfold Tile.popMark
  split <;> rfl

/-- A pop of a 64 B end has found a word of an earlier cycle there, and leaves the slice. -/
theorem Tile.pop64_inv {y x : Tile} {now : Scc} {slot : Nat} {q : BitVec 6} {w : Line}
    (pop : y.pop64 now slot q = .ok (w, x)) :
    y.popped q = false ∧ ((y.end64 q).head?.all fun e => e.cyc = now) = false ∧ x.pad = y.pad := by
  unfold Tile.pop64 at pop
  (repeat' split at pop) <;> cases pop
  next fresh _ e es head older _ =>
    refine ⟨Bool.eq_false_iff.mpr fresh, ?_, Tile.popMark_pad _ _⟩
    rw [head]
    exact decide_eq_false older

/-- A pop of a VQ end has found a value of an earlier cycle there, and leaves the slice. -/
theorem Tile.popV_inv {y x : Tile} {now : Scc} {slot : Nat} {q : BitVec 6} {v : Vec}
    (pop : y.popV now slot q = .ok (v, x)) :
    y.popped q = false ∧ ((y.vq q).head?.all fun e => e.cyc = now) = false ∧ x.pad = y.pad := by
  unfold Tile.popV at pop
  (repeat' split at pop) <;> cases pop
  next fresh _ e es head older _ =>
    refine ⟨Bool.eq_false_iff.mpr fresh, ?_, Tile.popMark_pad _ _⟩
    rw [head]
    exact decide_eq_false older

/-- A 64 B source is no VQ end. -/
theorem not_vq_of_src64 {q : BitVec 6} (h : qeSrc64 q = true) : qeIsVQ q = false := by
  revert q
  decide

/-- A vector register is no queue end that a read pops. -/
theorem not_pops_of_reg {q : BitVec 6} (h : qeIsReg q = true) : qePops q = false ∧ qeIsVQ q = false := by
  revert q
  decide

section
variable {y x : Tile} {now : Scc} {q : BitVec 6} {wide : Bool} {d : Vec} (stores : y.Stores now q wide d x)
include stores

/-- The end of a store has not been popped yet. -/
theorem Tile.Stores.fresh : (qePops q && y.popped q) = false := by
  cases stores with
  | word _ pop => rw [(Tile.pop64_inv pop).1, Bool.and_false]
  | value _ pop => rw [(Tile.popV_inv pop).1, Bool.and_false]
  | register source _ => rw [(not_pops_of_reg source).1, Bool.false_and]

/-- The end of a store is ready. -/
theorem Tile.Stores.ready (slot : Nat) : y.endsReady now slot ([q].filter qePops) = .ok () := by
  cases stores with
  | word source pop =>
    obtain ⟨fresh, older, -⟩ := Tile.pop64_inv pop
    exact Tile.endsReady_of_head fresh (by rwa [not_vq_of_src64 source]) slot
  | value source pop =>
    obtain ⟨fresh, older, -⟩ := Tile.popV_inv pop
    exact Tile.endsReady_of_head fresh (by rwa [source]) slot
  | register source _ => simp [Tile.endsReady, (not_pops_of_reg source).1]

/-- What a store goes on with are its data and the tile without them. -/
theorem Tile.Stores.goes_on (k : Vec → Tile → Tile) :
    (if wide = true then
      (if qeIsVQ q = true then y.popV now 2 q
        else y.readMark 3 (q.toNat - 0x20) 2 (q.toNat - 0x20) >>= fun x => .ok (x.vreg q, x)) >>= fun p => .ok (k p.1 p.2)
    else y.pop64 now 2 q >>= fun p => .ok (k (p.1.setWidth 4096) p.2) : Except Failure Tile) = .ok (k d x) := by
  cases stores with
  | word _ pop => simp only [pop, except_ok_bind, Bool.false_eq_true, if_false]
  | value source pop => simp only [source, pop, except_ok_bind, if_true]
  | register source read =>
    simp only [(not_pops_of_reg source).2, read, except_ok_bind, Bool.false_eq_true, if_false, if_true]

end

/-! ## Stores -/

/-- The tile with a write of cycle `now` in flight. -/
def Tile.startWrite (x : Tile) (now : Scc) (wide : Bool) (a : Nat) (d : Vec) (spec : Bool) : Tile :=
  let y := (x.noteAccess now true wide a).count 0x06 1
  { y with pad := { y.pad with writes := y.pad.writes ++
    [{ addr := BitVec.ofNat 21 a, wide := wide, data := d, due := now + 2, gen := y.seq.gen, spec := spec }] } }

/-- An escrow line for a home line leaves the bundle. -/
theorem Tile.redirect_bundle {z x : Tile} {n : Nat} (h : z.redirect n = some x) : x.bundle = z.bundle := by
  unfold Tile.redirect at h
  dsimp only at h
  (repeat' split at h) <;> cases h <;> rfl

/-- Escrow lines for a write leave the bundle. -/
theorem Tile.redirectAll_bundle {g : BitVec 4} {ns : List Nat} {z y : Tile} (h : z.redirectAll g ns = .ok y) :
    y.bundle = z.bundle := by
  induction ns generalizing z with
  | nil =>
    cases h
    rfl
  | cons n ns ih =>
    rw [Tile.redirectAll] at h
    split at h
    · next line => exact (ih h).trans (Tile.redirect_bundle line)
    · cases h

section
variable {wide : Bool} {role : BitVec 6 → Bool} {l : LSlot} {env : IssueEnv} {z y x : Tile} {a : Nat} {d : Vec}
  (rsv : l.rsv = 0) (legal : role l.qe = true) (ag2 : l.ag2 = 0) (off2 : l.off2 = 0) (chk : l.chk = false)
  (address : a = padAlign wide (z.agAddr l.ag l.off)) (escrow : escrowCheck env z a = .ok ())
  (stores : y.Stores env.now l.qe wide d x) (bank : bankCheck env y true wide a = .ok ())
include rsv legal ag2 off2 chk address escrow stores bank

/-- A store whose fields are legal, which passes the checks of its address and has its data is in flight to the lines that `y` holds
for it. -/
theorem writeIssue_ok
    (lines : (if z.speculative env.now && a < padTop then z.redirectAll z.esc.group (padLines wide a) else .ok z) = .ok y)
    (bundle : y.bundle = z.bundle) :
    writeIssue wide role l env z = .ok (x.startWrite env.now wide a d (z.speculative env.now)) := by
  have form : (l.rsv = 0 && role l.qe && l.ag2 = 0 && l.off2 = 0 && !l.chk) = true := by
    simp only [rsv, legal, ag2, off2, chk, decide_true, Bool.not_false, Bool.and_self]
  have present := padAbsent_of_lt (env := env) (lt_padTop_of_bankCheck bank)
  have fresh : (qePops l.qe && z.popped l.qe) = false := by
    rw [Tile.popped, ← bundle]
    exact stores.fresh
  have ready := stores.ready 2
  have goes_on := stores.goes_on fun d x => x.startWrite env.now wide a d (z.speculative env.now)
  by_cases escrowed : (z.speculative env.now && a < padTop) = true
  · rw [if_pos escrowed] at lines
    simp only [writeIssue, form, ← address, present, fresh, escrow, if_pos escrowed, lines, ready, bank, Bool.not_false,
      check_true, except_ok_bind]
    exact goes_on
  · rw [if_neg escrowed] at lines
    cases lines
    simp only [writeIssue, form, ← address, present, fresh, escrow, if_neg escrowed, ready, bank, Bool.not_false,
      check_true, except_ok_bind]
    exact goes_on

/-- Outside an open group a store goes to its home lines. -/
theorem writeIssue_home (same : y = z) (outside : z.speculative env.now = false) :
    writeIssue wide role l env z = .ok (x.startWrite env.now wide a d false) := by
  have issued := writeIssue_ok rsv legal ag2 off2 chk address escrow stores bank
    (by rw [outside, Bool.false_and, same]; rfl) (congrArg _ same)
  rwa [outside] at issued

/-- In an open group a store goes to escrow lines (R233). -/
theorem writeIssue_escrow (inside : z.speculative env.now = true) (top : a < padTop)
    (lines : z.redirectAll z.esc.group (padLines wide a) = .ok y) :
    writeIssue wide role l env z = .ok (x.startWrite env.now wide a d true) := by
  have issued := writeIssue_ok rsv legal ag2 off2 chk address escrow stores bank
    (by rw [inside, decide_eq_true top]; exact lines) (Tile.redirectAll_bundle lines)
  rwa [inside] at issued

end

end Sys2Proof.Machine

open Sys2Proof Sys2Proof.Machine

/-- The first clause of O10: reads, and stores outside an open group. -/
theorem scheduledAccessesComplete : Clause.ScheduledAccessesComplete := by
  intro s t l z e now read write readOk storeOk
  refine ⟨fun slot => ⟨fun x dst ag2 off2 ok => ?_, fun x dst ag2 off2 ok => ?_, fun x dst ok => ?_,
    fun a w x src ok pop bank => ?_, fun a v x src ok pop bank => ?_, fun a x src mark ok bank => ?_⟩,
    fun w run due => execScratchpadWriteLand_due run due⟩
  · obtain ⟨rsv, chk, claim, escrow, bank⟩ := ok
    exact issues_of_ok slot rfl (readIssue_ok (oc := false) rsv dst (by simp [ag2, off2]) chk claim escrow bank)
  · obtain ⟨rsv, chk, claim, escrow, bank⟩ := ok
    exact issues_of_ok slot rfl (readIssue_ok (oc := false) rsv dst (by simp [ag2, off2]) chk claim escrow bank)
  · obtain ⟨rsv, chk, claim, escrow, bank⟩ := ok
    exact issues_of_ok slot rfl (readIssue_ok (oc := true) rsv (decide_eq_true dst) rfl chk claim escrow bank)
  · obtain ⟨rsv, ag2, off2, chk, address, outside, escrow⟩ := ok
    obtain ⟨-, -, pad⟩ := Tile.pop64_inv pop
    rw [bankCheck_congr pad] at bank
    exact issues_of_ok slot rfl (writeIssue_home rsv src ag2 off2 chk address escrow (Tile.Stores.word src pop) bank rfl
      outside)
  · obtain ⟨rsv, ag2, off2, chk, address, outside, escrow⟩ := ok
    obtain ⟨-, -, pad⟩ := Tile.popV_inv pop
    rw [bankCheck_congr pad] at bank
    exact issues_of_ok slot rfl (writeIssue_home rsv (Bool.or_eq_true_iff.mpr (.inl src)) ag2 off2 chk address escrow
      (Tile.Stores.value src pop) bank rfl outside)
  · obtain ⟨rsv, ag2, off2, chk, address, outside, escrow⟩ := ok
    exact issues_of_ok slot rfl (writeIssue_home rsv (Bool.or_eq_true_iff.mpr (.inr src)) ag2 off2 chk address escrow
      (Tile.Stores.register src mark) bank rfl outside)

/-- The second clause of O10: stores in an open group. -/
theorem speculativeStoresRedirect : Clause.SpeculativeStoresRedirect := by
  intro s t l wide y z e a slot rsv ag2 off2 chk escrow inside top lines write
  refine ⟨fun w x narrow src pop bank => ?_, fun v x whole src pop bank => ?_, fun x whole src mark bank => ?_⟩
  · subst narrow
    obtain ⟨-, -, pad⟩ := Tile.pop64_inv pop
    rw [bankCheck_congr pad] at bank
    exact issues_of_ok slot rfl (writeIssue_escrow rsv src ag2 off2 chk rfl escrow (Tile.Stores.word src pop) bank inside
      top lines)
  · subst whole
    obtain ⟨-, -, pad⟩ := Tile.popV_inv pop
    rw [bankCheck_congr pad] at bank
    exact issues_of_ok slot rfl (writeIssue_escrow rsv (Bool.or_eq_true_iff.mpr (.inl src)) ag2 off2 chk rfl escrow
      (Tile.Stores.value src pop) bank inside top lines)
  · subst whole
    exact issues_of_ok slot rfl (writeIssue_escrow rsv (Bool.or_eq_true_iff.mpr (.inr src)) ag2 off2 chk rfl escrow
      (Tile.Stores.register src mark) bank inside top lines)

/-- Settles O10, clause by clause. -/
theorem scratchpadAccessesComplete : Obligations.ScratchpadAccessesComplete :=
  ⟨scheduledAccessesComplete, speculativeStoresRedirect⟩
end

section
/-!
O13: the operations that steer the sequencer of a tile.
-/
namespace Sys2Proof.Machine

/-- A LOOP of a level that no active level stands at or inside activates it. -/
theorem loopIssue_ok {c : CSlot} (env : IssueEnv) {z : Tile} {n : BitVec 25} (lvl : c.lvl.toNat < 6)
    (arg : c.arg.toNat < 16) (form : c.valueForm = true) (counted : (c.p || c.imm != 0) = true)
    (start : z.iaddr.toNat + 1 + c.arg.toNat ≤ 1535)
    (free : ((List.range 6).all fun j => j < c.lvl.toNat || !(z.loop j).active) = true) (count : c.count z = .ok n) :
    loopIssue c env z = .ok ((z.setLoop c.lvl.toNat
      { active := true, index := 0, start := BitVec.ofNat 11 (z.iaddr.toNat + 1 + c.arg.toNat), count := n }).setCop 1) := by
  have fields : (c.lvl.toNat < 6 && c.arg.toNat < 16 && c.valueForm && (c.p || c.imm != 0)
      && z.iaddr.toNat + 1 + c.arg.toNat ≤ 1535) = true := by
    simp only [lvl, arg, form, counted, start, decide_true, Bool.and_self]
  simp only [loopIssue, fields, free, check_true, except_ok_bind, count]

/-- A JUMP outside every loop sets the next PC. -/
theorem jumpIssue_ok {c : CSlot} (env : IssueEnv) {z : Tile} (bare : c.bare = true) (arg : c.arg.toNat ≤ 1535)
    (outside : z.anyLoop = false) :
    jumpIssue c env z = .ok ({ z with seq := { z.seq with pc := c.arg.setWidth 11 } }.setCop 2) := by
  simp only [jumpIssue, bare, arg, outside, decide_true, Bool.and_self, Bool.not_false, check_true, except_ok_bind]

/-- An IDLE keeps its tile from issuing until its count has passed. -/
theorem idleIssue_ok {c : CSlot} {env : IssueEnv} {z : Tile} {n : BitVec 25} (lvl : c.lvl = 0) (arg : c.arg = 0)
    (form : c.valueForm = true) (counted : (c.p || c.imm != 0) = true) (count : c.count z = .ok n) :
    idleIssue c env z = .ok
      ({ z with seq := { z.seq with idling := true, resumeAt := some (env.now + n.setWidth 48 + 1) } }.setCop 3) := by
  simp only [idleIssue, lvl, arg, form, counted, decide_true, Bool.and_self, check_true, except_ok_bind, count]

/-- An END stops its tile. -/
theorem endIssue_ok {c : CSlot} (env : IssueEnv) (z : Tile) (bare : c.bare = true) (arg : c.arg = 0) :
    endIssue c env z = .ok ({ z with seq := { z.seq with ended := true, run := false } }.setCop 4) := by
  simp only [endIssue, bare, arg, decide_true, Bool.and_self, check_true, except_ok_bind]

/-- A bundle of NOPs without a loop end is closed, and that is all. -/
theorem nopIssue_ok {hdr : BitVec 8} (env : IssueEnv) (z : Tile) (rsv : hdr.extractLsb' 4 4 = 0)
    (le : hdr.getLsbD 0 = false) (level : hdr.extractLsb' 1 3 = 0) :
    nopIssue hdr env z = .ok (z.modBundle fun b => { b with closed := true }) := by
  simp only [nopIssue, rsv, le, level, decide_true, Bool.false_or, Bool.and_self, check_true, except_ok_bind,
    Bool.false_eq_true, if_false]

/-- The header of a bundle of NOPs is issued where the bundle is the tile's first command of the cycle. -/
theorem exec_nop {s : State} {t : TileNo} {hdr : BitVec 8} (first : (s.tile t.toNat).bundleIn s.fab.scc = none) :
    exec (.nop t hdr) s = .next (s.issue t 6 (nopIssue hdr)) := by
  change execNop t hdr s = _
  rw [execNop, first]
  rfl

/-- When its idling is over the tile is ready to issue. -/
theorem runs_idleExpiry {s : State} {t : TileNo} (run : s.running = true)
    (idling : (s.tile t.toNat).seq.idling = true) (due : (s.tile t.toNat).seq.resumeAt = some (s.fab.scc + 1)) :
    Runs (.idleExpiry t) s (s.modTile t.toNat fun y => { y with seq := { y.seq with idling := false } }) := by
  change execIdleExpiry t s = _
  simp only [execIdleExpiry, run, idling, due, decide_true, Bool.and_self, if_true]

/-- A reserved opcode halts its tile with an illegal operation. -/
theorem runs_reservedOpcodeIssue {s : State} {t : TileNo} {k : Slot} (slot : SlotOpen s t (slotNumber k)) :
    Runs (.reservedOpcodeIssue t k) s
      ((s.openSlot t.toNat).failIssue t.toNat (s.slotTile t.toNat (slotNumber k)) (illegal (slotNumber k))) := by
  change execReservedOpcodeIssue t k s = _
  rw [execReservedOpcodeIssue, State.issue_error slot rfl]
  exact congrArg (fun y => Host.Outcome.next ((s.openSlot t.toNat).failIssue t.toNat y _)) (Tile.modBundle_same _)

end Sys2Proof.Machine

open Sys2Proof Sys2Proof.Machine

/-- Settles O13, one operation after another. -/
theorem sequencerCompletes : Obligations.SequencerCompletes := by
  refine fun s t c => ⟨fun slot => ⟨fun n lvl arg form counted start free count => ?_, fun bare arg outside => ?_,
      fun n lvl arg form counted count => ?_, fun bare arg => ?_⟩,
    fun hdr slot first rsv le level => ?_, runs_idleExpiry, fun k slot => runs_reservedOpcodeIssue slot⟩
  · exact issues_of_ok slot rfl (loopIssue_ok _ lvl arg form counted start free count)
  · exact issues_of_ok slot rfl (jumpIssue_ok _ bare arg outside)
  · exact issues_of_ok slot rfl (idleIssue_ok lvl arg form counted count)
  · exact issues_of_ok slot rfl (endIssue_ok _ _ bare arg)
  · exact issues_of_ok slot (exec_nop first) (nopIssue_ok _ _ rsv le level)
end

section
/-!
O15: the posted operations of the C slot, each by the body that ends in its post.
-/
namespace Sys2Proof.Machine

/-- A body that posts an operation issues with the tile that the operation leaves when it sets out, or, in an open group with
room, with it in the operation escrow queue. -/
theorem issues_of_post {i : Instr} {s : State} {t : TileNo} {slot : Nat} {body : IssueEnv → Tile → Except Failure Tile}
    {uses : Bundle → Bundle} {p : Posted} {go : Tile → Tile} {y : Tile} (h : SlotOpen s t slot)
    (run : exec i s = .next (s.issue t slot body uses))
    (posts : body (s.issueEnv t.toNat) (s.slotTile t.toNat slot) = (s.slotTile t.toNat slot).post s.fab.scc slot p go)
    (out : go (s.slotTile t.toNat slot) = y) :
    let z := s.slotTile t.toNat slot
    (z.speculative s.fab.scc = false → Issues i s t y)
      ∧ (z.speculative s.fab.scc = true → z.heldCount < 64 →
        Issues i s t { z with esc := { z.esc with held := z.esc.held ++ [(s.fab.scc, p)] } }) :=
  ⟨fun outside => issues_of_ok h run ((posts.trans (Tile.post_goes outside)).trans (congrArg _ out)),
    fun inside room => issues_of_ok h run (posts.trans (Tile.post_waits inside room))⟩

/-- A TADD or TSUB of a till posts its operation. -/
theorem tillIssue_posts {sub : Bool} {c : CSlot} (env : IssueEnv) (z : Tile) (lvl : c.lvl = 0)
    (form : c.valueForm = true) (arg : c.arg.getLsbD 15 = false) :
    let p : Posted := .till (c.arg.setWidth 15) (c.value z) sub
    tillIssue sub c env z = z.post env.now 4 p fun y => y.outTill env.now p := by
  simp only [tillIssue, lvl, form, arg, decide_true, Bool.not_false, Bool.and_self, check_true, except_ok_bind]

/-- A TSIG of a signal channel over links that are present posts its signal. -/
theorem tsigIssue_posts {absent : Option Nat} {c : CSlot} {env : IssueEnv} (z : Tile) (lvl : c.lvl = 0) (form : c.valueForm = true)
    (arg : c.arg.getLsbD 14 = false) (kind : env.field.ckKind (c.arg.toNat % 16384) = 2) (links : absent = none) :
    let p : Posted := .signal (c.arg.setWidth 14) (c.value z) (c.arg.getLsbD 15) env.now
    tsigIssue absent c env z = z.post env.now 4 p fun y => y.outSignal env.now p := by
  simp only [tsigIssue, lvl, form, arg, kind, decide_true, Bool.not_false, Bool.and_self, check_true, except_ok_bind,
    links, linkPresent]

section
variable {c : CSlot} {env : IssueEnv} {z : Tile} {d : Line} {absent : Nat → Option Nat} (bare : c.bare = true)
  (arg : c.arg.toNat < 256) (mapped : z.seq.farmMap.getLsbD c.arg.toNat = true)
  (desc : d = Sparse.get 0 env.field.desc c.arg.toNat) (chan : descChanOk env.field d = true)
  (links : descKind d = 0 ∨ absent (descChan d) = none)
include bare arg mapped desc chan links

/-- A FARM of a descriptor that its tile may name, over links that are present, sets out at once in an open group if a discard
can undo its fetch, and otherwise posts its operation. -/
theorem farmIssue_eq :
    farmIssue absent c env z =
      if z.speculative env.now && farmLeaves env z d then .ok (z.outFarm env.now (.farm (c.arg.setWidth 8) true))
      else
        let p : Posted := .farm (c.arg.setWidth 8) false
        z.post env.now 4 p fun y => y.outFarm env.now p := by
  have present : linkPresent (if descKind d = 0 then none else absent (descChan d)) = .ok () := by
    rcases links with kind | free
    · rw [if_pos kind]
      rfl
    · rw [free, ite_self]
      rfl
  subst desc
  simp only [farmIssue, bare, arg, mapped, chan, present, decide_true, Bool.and_self, check_true, except_ok_bind,
    Bool.not_true, Bool.false_eq_true, if_false]

/-- A FARM posts its operation outside an open group, and where no discard can undo its fetch. -/
theorem farmIssue_posts (posts : (z.speculative env.now && farmLeaves env z d) = false) :
    let p : Posted := .farm (c.arg.setWidth 8) false
    farmIssue absent c env z = z.post env.now 4 p fun y => y.outFarm env.now p := by
  rw [farmIssue_eq bare arg mapped desc chan links, posts]
  rfl

/-- A FARM whose fetch a discard can undo leaves an open group at once. -/
theorem farmIssue_leaves (inside : z.speculative env.now = true) (leaves : farmLeaves env z d = true) :
    farmIssue absent c env z = .ok (z.outFarm env.now (.farm (c.arg.setWidth 8) true)) := by
  rw [farmIssue_eq bare arg mapped desc chan links, inside, leaves]
  rfl

end

end Sys2Proof.Machine

open Sys2Proof Sys2Proof.Machine

/-- Settles O15: each body ends in its post, but for a FARM that leaves an open group at once. -/
theorem postedOperationsComplete : Obligations.PostedOperationsComplete := by
  intro s t c slot z e now posted till signal
  refine ⟨fun lvl form arg => ⟨?_, ?_⟩, fun lvl form arg kind links => ?_,
    fun d bare arg mapped desc chan links => ⟨fun stays => ?_, fun leaves outside => ?_, fun leaves inside => ?_⟩⟩
  · exact issues_of_post slot rfl (tillIssue_posts e z lvl form arg) rfl
  · exact issues_of_post slot rfl (tillIssue_posts e z lvl form arg) rfl
  · exact issues_of_post slot rfl (tsigIssue_posts z lvl form arg kind links) rfl
  · exact issues_of_post slot rfl (farmIssue_posts bare arg mapped desc chan links (Bool.and_eq_false_iff.mpr (.inr stays))) rfl
  · have posts := farmIssue_posts bare arg mapped desc chan links (Bool.and_eq_false_iff.mpr (.inl outside))
    exact (issues_of_post slot rfl posts rfl).1 outside
  · exact issues_of_ok slot rfl (farmIssue_leaves bare arg mapped desc chan links inside leaves)
end

section
/-!
O16: address generators, the generation, verdicts and the entry of a group.
-/
namespace Sys2Proof.Machine

/-! ## Address generators and the generation -/

/-- The key of the word of an address generator that AGSET and AGADD name. -/
def agKey (c : CSlot) : Nat := 8 * (c.arg.toNat % 16) + c.arg.toNat / 16

/-- An AGSET or AGADD writes its word at the end of the cycle. -/
theorem agIssue_ok {c : CSlot} (add : Bool) (env : IssueEnv) (z : Tile) (lvl : c.lvl = 0) (form : c.valueForm = true)
    (arg : c.arg.toNat < 112) :
    agIssue add c env z = .ok (z.modBundle fun b => { b with
      agw := some (agKey c, if add then Sparse.get 0 z.seq.ag (agKey c) + c.value z else c.value z) }) := by
  simp only [agIssue, agKey, lvl, form, arg, decide_true, Bool.and_self, check_true, except_ok_bind]

/-- The word that waits in the bundle is the generator's at the end of the cycle. -/
theorem Tile.settleAg_of_agw {x : Tile} {b : Bundle} {k : Nat} {v : BitVec 32} (bundle : x.bundle = some b)
    (word : b.agw = some (k, v)) :
    x.settleAg = { x with
      seq := { x.seq with ag := Sparse.set 0 x.seq.ag k v }, bundle := some { b with agw := none } } := by
  rw [Tile.settleAg, bundle]
  simp only [word]

/-- A GEN in a bundle whose other slots are empty counts the generation up. -/
theorem genIssue_ok {c : CSlot} (env : IssueEnv) {z : Tile} {b : Bundle} (bare : c.bare = true) (arg : c.arg = 0)
    (enabled : z.seq.genEn = true) (bundle : z.bundle = some b) (mv : b.mvop = 0) (l : b.lop = false) (s : b.sop = 0) :
    genIssue c env z = .ok ({ z with seq := { z.seq with gen := z.seq.gen + 1 } }.setCop 0x23) := by
  have alone : (z.bundle.any fun b => b.mvop = 0 && !b.lop && b.sop = 0) = true := by
    rw [bundle, Option.any_some, mv, l, s]
    rfl
  simp only [genIssue, bare, arg, enabled, alone, decide_true, Bool.and_self, check_true, except_ok_bind]

/-! ## Verdicts -/

/-- The tile once the verdict word has been popped: it goes on for a 1, and branches for a 0. -/
def Tile.afterVerdict (z : Tile) (c : CSlot) (w : Entry) (ws : List Entry) : Tile :=
  let y := z.afterPop (c.arg.extractLsb' 4 6) w ws
  if w.data.getLsbD 0 then y else { y with seq := { y.seq with pc := c.imm.setWidth 11 } }

section
variable {c : CSlot} {env : IssueEnv} {z : Tile} {w : Entry} {ws : List Entry}
  (pop : z.CanPop env.now (c.arg.extractLsb' 4 6) w ws)
include pop

/-- A verdict word that can be popped gives its bit 0. -/
theorem verdict_ok : verdict c env z = .ok (z.afterVerdict c w ws, w.data.getLsbD 0) := by
  simp only [verdict, Tile.pop64_ok pop, except_ok_bind, Tile.afterVerdict]

/-- A verdict that does not go on from the last bundle does not run off the program. -/
theorem verdictRunsOff_eq_false (goesOn : w.data.getLsbD 0 = true → z.iaddr ≠ 1535) :
    verdictRunsOff c env z = false := by
  rw [verdictRunsOff, pop.head]
  dsimp only
  cases bit : w.data.getLsbD 0 with
  | false => rw [Bool.and_false, Bool.and_false]
  | true => rw [decide_eq_false (goesOn bit), Bool.false_and]

/-- A VBR outside every loop pops its verdict, and goes on or branches. -/
theorem vbrIssue_ok (form : forkForm c = true) (arg : c.arg.toNat % 16 = 0) (outside : z.anyLoop = false)
    (goesOn : w.data.getLsbD 0 = true → z.iaddr ≠ 1535) :
    vbrIssue c env z = .ok ((z.afterVerdict c w ws).setCop 0x22) := by
  simp only [vbrIssue, form, arg, outside, verdictRunsOff_eq_false pop goesOn, decide_true, Bool.not_false, Bool.and_self,
    check_true, except_ok_bind, verdict_ok pop]

/-- An ERES of the open group, in a bundle without an L or S operation and outside every loop, resolves the group by its
verdict. -/
theorem eresIssue_ok {b : Bundle} (form : forkForm c = true) (grade : env.grade ≠ 2) (outside : z.anyLoop = false)
    (bundle : z.bundle = some b) (l : b.lop = false) (s : b.sop = 0) (inside : z.speculative env.now = true)
    (group : z.esc.group = c.arg.setWidth 4) (goesOn : w.data.getLsbD 0 = true → z.iaddr ≠ 1535) :
    let y := z.afterVerdict c w ws
    eresIssue c env z = .ok
      ({ y with esc := { y.esc with resolvedAt := some env.now, committed := w.data.getLsbD 0 } }.setCop 0x21) := by
  have present : (env.grade != 2) = true := bne_iff_ne.mpr grade
  have alone : (z.bundle.any fun b => !b.lop && b.sop = 0) = true := by
    rw [bundle, Option.any_some, l, s]
    rfl
  simp only [eresIssue, form, verdictRunsOff_eq_false pop goesOn, present, outside, alone, pop.first, inside, group,
    decide_true, Bool.not_false, Bool.and_self, check_true, except_ok_bind, verdict_ok pop]

end

/-! ## The entry of a group -/

/-- An EOPEN of a member in no group, and not right after an ERES, opens its group. -/
theorem eopenIssue_ok {c : CSlot} {env : IssueEnv} {z : Tile} (bare : c.bare = true) (arg : c.arg.toNat < 16)
    (grade : env.grade ≠ 2) (escrow : env.escrow = true)
    (member : (env.field.members env.tile (c.arg.setWidth 4)).getLsbD (tileCol env.tile) = true)
    (closed : z.esc.openedAt = none) (settled : z.afterEres env.now = false) :
    eopenIssue c env z = .ok
      ({ z with esc := { z.esc with openedAt := some env.now, group := c.arg.setWidth 4 } }.setCop 0x20) := by
  have present : (env.grade != 2) = true := bne_iff_ne.mpr grade
  simp only [eopenIssue, bare, arg, present, escrow, member, closed, settled, Option.isNone_none, decide_true,
    Bool.not_false, Bool.and_self, check_true, except_ok_bind]

end Sys2Proof.Machine

open Sys2Proof Sys2Proof.Machine

/-- Settles O16, one operation after another. -/
theorem generatorsAndForksComplete : Obligations.GeneratorsAndForksComplete := by
  refine fun s t c slot => ⟨fun lvl form arg => ⟨?_, ?_, fun x b v bundle word => ?_⟩,
    fun b bare arg enabled bundle mv l sop => ?_, fun w ws form arg outside pop goesOn => ?_,
    fun w ws b form grade outside bundle l sop inside group pop goesOn => ?_,
    fun bare arg grade escrow member closed settled => ?_⟩
  · exact issues_of_ok slot rfl (agIssue_ok false _ _ lvl form arg)
  · exact issues_of_ok slot rfl (agIssue_ok true _ _ lvl form arg)
  · rw [Tile.settleAg_of_agw bundle word]
    exact ⟨rfl, rfl⟩
  · exact issues_of_ok slot rfl (genIssue_ok _ bare arg enabled bundle mv l sop)
  · exact issues_of_ok slot rfl (vbrIssue_ok pop form arg outside goesOn)
  · exact issues_of_ok slot rfl (eresIssue_ok pop form grade outside bundle l sop inside group goesOn)
  · exact issues_of_ok slot rfl (eopenIssue_ok bare arg grade escrow member closed settled)
end

section
/-!
O21: what a till block makes of an operation, and where operations and arrivals come from.
-/
namespace Sys2Proof.Machine

/-! ## One operation -/

/-- What a till that is no return till would hold after an operation, in signed arithmetic. -/
def State.tillAfter (s : State) (n : BitVec 15) (v : BitVec 32) (sub : Bool) : Int :=
  if sub then (s.till n.toNat).toInt - v.toInt else (s.till n.toNat).toInt + v.toInt

section
variable {s : State} {n : BitVec 15} (own : s.returnTill n = none) (v : BitVec 32) (sub : Bool)
include own

/-- An operation on a till that is no return till sets it, or overflows and halts (R299). -/
theorem State.applyTill_eq :
    s.applyTill n v sub =
      if s.tillAfter n v sub < -(2 ^ 31) || 2 ^ 31 ≤ s.tillAfter n v sub then
        (s.unitHalt 4 (n.toNat / 8192) 9 0 (BitVec.ofNat 32 (n.toNat + sub.toNat * 32768)), true)
      else (s.setTill n.toNat (BitVec.ofInt 32 (s.tillAfter n v sub)), false) := by
  rw [State.applyTill, own]
  rfl

/-- A result of 32 signed bits is what the till holds. -/
theorem State.applyTill_sets (low : -(2 ^ 31) ≤ s.tillAfter n v sub) (high : s.tillAfter n v sub < 2 ^ 31) :
    s.applyTill n v sub = (s.setTill n.toNat (BitVec.ofInt 32 (s.tillAfter n v sub)), false) := by
  rw [State.applyTill_eq own, decide_eq_false (Int.not_lt.mpr low), decide_eq_false (Int.not_le.mpr high)]
  rfl

/-- Any other result leaves the till and halts with TILL_OVF. -/
theorem State.applyTill_overflows (out : s.tillAfter n v sub < -(2 ^ 31) ∨ 2 ^ 31 ≤ s.tillAfter n v sub) :
    s.applyTill n v sub =
      (s.unitHalt 4 (n.toNat / 8192) 9 0 (BitVec.ofNat 32 (n.toNat + sub.toNat * 32768)), true) := by
  rw [State.applyTill_eq own, if_pos (by simpa using out)]

end

/-- A till reads the 32 signed bits that it was set to. -/
theorem State.till_setTill_ofInt (s : State) (n : Nat) {i : Int} (low : -(2 ^ 31) ≤ i) (high : i < 2 ^ 31) :
    ((s.setTill n (BitVec.ofInt 32 i)).till n).toInt = i := by
  rw [State.till_setTill, if_pos rfl]
  exact BitVec.toInt_ofInt_eq_self (by decide) low high

/-! ## Where operations come from -/

/-- The oldest of the tile's posted operations is applied once it has left its bundle. -/
theorem runs_tillOperationApply_tile {s : State} {t : TileNo} {die : BitVec 2} {c : Scc} {n : BitVec 15} {v : BitVec 32}
    {sub : Bool} {rest : List (Scc × Posted)} (out : (s.tile t.toNat).petty.tillOut = (c, .till n v sub) :: rest)
    (block : blockOf n = die) (left : s.posted c = true) :
    Runs (.tillOperationApply (.tile t) die) s
      ((s.modTile t.toNat fun x => { x with petty := { x.petty with
        tillOut := dropFirst (fun o => o.2.tillAt die) x.petty.tillOut } }).applyTill n v sub).1 := by
  have mine : (Posted.till n v sub).tillAt die = true := decide_eq_true block
  have first : (s.tile t.toNat).petty.tillOut.find? (fun o => o.2.tillAt die) = some (c, .till n v sub) := by
    rw [out]
    exact List.find?_cons_of_pos mine
  change execTillOperationApply (.tile t) die s = _
  simp only [execTillOperationApply, State.applyPosted, first, left, if_true]

/-- The oldest operation of another source is applied, and leaves the queue. -/
theorem runs_tillOperationApply_queued {s : State} {src : TillSource} {die : BitVec 2} {o : TillOp}
    {rest : List (TillSource × TillOp)} (other : ∀ t, src ≠ .tile t) (queue : s.fab.tillQueue = (src, o) :: rest)
    (block : blockOf o.till = die) :
    Runs (.tillOperationApply src die) s
      ({ s with fab := { s.fab with tillQueue := rest } }.applyTill o.till o.value false).1 := by
  have queued : execTillOperationApply src die s = .next (s.applyQueued src die) := by
    cases src with
    | tile t => exact absurd rfl (other t)
    | _ => rfl
  have mine : (decide (src = src) && decide (blockOf o.till = die)) = true := by simp [block]
  have first : s.fab.tillQueue.find? (fun q => decide (q.1 = src) && decide (blockOf q.2.till = die)) = some (src, o) := by
    rw [queue]
    exact List.find?_cons_of_pos mine
  have others : dropFirst (fun q => decide (q.1 = src) && decide (blockOf q.2.till = die)) s.fab.tillQueue = rest := by
    rw [queue]
    exact if_pos mine
  change execTillOperationApply src die s = _
  simp only [queued, State.applyQueued, first, others]

/-- A JTAG write sets a till that is no return till by hand. -/
theorem runs_tillWriteJtag {s : State} {n : BitVec 15} (v : BitVec 32) (reaches : s.reaches .jtag = true)
    (own : s.returnTill n = none) : Runs (.tillWriteJtag n v) s (s.setByHand n v 0 0x4000) := by
  change execTillWriteJtag n v s = _
  simp only [execTillWriteJtag, reaches, own, Option.isNone_none, Bool.and_self, if_true]

/-! ## Arrivals at a ring end -/

/-- The position after `n` coins from position `p` of a ring end. -/
def RingEnd.after (r : RingEnd) (p n : BitVec 24) : BitVec 24 := BitVec.ofNat 24 ((p.toNat + n.toNat) % rendCoins r.entry)

/-- What has landed at a position of a ring end. -/
def RingEnd.landedAt (r : RingEnd) (p : BitVec 24) : Option (BitVec 24 × BitVec 24 × Bool) :=
  r.landed.find? fun l => l.1 = p

/-- The ring end once the message of `c` coins at `p` has been taken, and the markers `gone` with it. -/
def RingEnd.taken (r : RingEnd) (p c : BitVec 24) (gone : List (BitVec 24)) : RingEnd :=
  { r with nextPos := r.after p c, landed := r.landed.filter fun l => l.1 != p && !gone.contains l.1 }

/-- The ring end's state once that message has been taken. -/
def State.tookArrival (s : State) (die : BitVec 2) (index : BitVec 10) (p c : BitVec 24) (gone : List (BitVec 24)) : State :=
  s.setRingEnd die.toNat index.toNat ((s.ringEnd die.toNat index.toNat).taken p c gone)

/-- The message of `c` coins at `p` goes to the counting house where the ring end is that of an outbox, and raises the arrival till
of any other (R316, R407). -/
def State.takeArrival (s : State) (die : BitVec 2) (index : BitVec 10) (p c : BitVec 24) (gone : List (BitVec 24)) : State :=
  if s.outboxEnd die.toNat index.toNat then
    let s := s.tookArrival die index p c gone
    { s with house := { s.house with
      arrivals := s.house.arrivals ++ [{ die := die, index := index, pos := p, coins := c }] } }
  else
    match (s.tookArrival die index p c gone).applyTill (rendAtill (s.ringEnd die.toNat index.toNat).entry) 1 false with
    | (s, true) => s
    | (s, false) =>
      let r := s.ringEnd die.toNat index.toNat
      s.setRingEnd die.toNat index.toNat { r with arrived := r.arrived + 1 }

/-- What has landed at `p`, unless it is refused or a skip marker, is taken with the markers `gone`. -/
def State.arriveFrom (s : State) (die : BitVec 2) (index : BitVec 10) (p : BitVec 24) (gone : List (BitVec 24)) : State :=
  let r := s.ringEnd die.toNat index.toNat
  match r.landedAt p with
  | some (q, c, false) => if r.refused.contains q then s else s.takeArrival die index q c gone
  | _ => s

/-- The next message of a ring with room for coins is what has landed at the next position, or behind the skip marker that stands
there. -/
theorem execAtillApply_eq {s : State} {die : BitVec 2} {index : BitVec 10}
    (coins : rendCoins (s.ringEnd die.toNat index.toNat).entry ≠ 0) :
    let r := s.ringEnd die.toNat index.toNat
    execAtillApply die index s = .next (match r.landedAt r.nextPos with
      | some (q, c, true) => if r.refused.contains q then s else s.arriveFrom die index (r.after q c) [q]
      | some _ => s.arriveFrom die index r.nextPos []
      | none => s) :=
  congrArg Host.Outcome.next (if_neg coins)

/-- At the end of a ring that is not an outbox's the message raises the arrival till, and counts unless it overflows. -/
theorem State.takeArrival_ring {s : State} {die : BitVec 2} {index : BitVec 10}
    (ring : s.outboxEnd die.toNat index.toNat = false) (p c : BitVec 24) (gone : List (BitVec 24)) :
    let z := (s.tookArrival die index p c gone).applyTill (rendAtill (s.ringEnd die.toNat index.toNat).entry) 1 false
    s.takeArrival die index p c gone =
      if z.2 then z.1 else
        let e := z.1.ringEnd die.toNat index.toNat
        z.1.setRingEnd die.toNat index.toNat { e with arrived := e.arrived + 1 } := by
  intro z
  rw [State.takeArrival, ring]
  change (match z with
    | (s, true) => s
    | (s, false) =>
      let r := s.ringEnd die.toNat index.toNat
      s.setRingEnd die.toNat index.toNat { r with arrived := r.arrived + 1 }) = _
  obtain ⟨u, ovf⟩ := z
  cases ovf <;> rfl

/-- At the ring end of an outbox the message goes to the counting house. -/
theorem State.takeArrival_outbox {s : State} {die : BitVec 2} {index : BitVec 10}
    (outbox : s.outboxEnd die.toNat index.toNat = true) (p c : BitVec 24) (gone : List (BitVec 24)) :
    let s' := s.tookArrival die index p c gone
    s.takeArrival die index p c gone = { s' with house := { s'.house with
      arrivals := s'.house.arrivals ++ [{ die := die, index := index, pos := p, coins := c }] } } :=
  if_pos outbox

section
variable {s : State} {die : BitVec 2} {index : BitVec 10} (coins : rendCoins (s.ringEnd die.toNat index.toNat).entry ≠ 0)
include coins

/-- A message that stands at the next position is taken. -/
theorem runs_atillApply_message {c : BitVec 24} :
    let r := s.ringEnd die.toNat index.toNat
    r.nextPos ∉ r.refused → r.landedAt r.nextPos = some (r.nextPos, c, false) →
      Runs (.atillApply die index) s (s.takeArrival die index r.nextPos c []) := by
  intro r good here
  change execAtillApply die index s = _
  have taken : s.arriveFrom die index r.nextPos [] = s.takeArrival die index r.nextPos c [] := by
    rw [State.arriveFrom, here]
    exact if_neg (by simpa using good)
  rw [execAtillApply_eq coins, here, ← taken]

/-- Behind a skip marker at the next position the message that has landed there is taken, with the marker. -/
theorem runs_atillApply_skipped {skip c : BitVec 24} :
    let r := s.ringEnd die.toNat index.toNat
    let p := r.after r.nextPos skip
    r.nextPos ∉ r.refused → r.landedAt r.nextPos = some (r.nextPos, skip, true) → r.landedAt p = some (p, c, false) →
      p ∉ r.refused → Runs (.atillApply die index) s (s.takeArrival die index p c [r.nextPos]) := by
  intro r p good marker here good'
  change execAtillApply die index s = _
  have taken : s.arriveFrom die index p [r.nextPos] = s.takeArrival die index p c [r.nextPos] := by
    rw [State.arriveFrom, here]
    exact if_neg (by simpa using good')
  rw [execAtillApply_eq coins, marker, ← taken]
  exact congrArg Host.Outcome.next (if_neg (by simpa using good))

/-- Where nothing has landed at the next position nothing happens. -/
theorem runs_atillApply_nothing :
    let r := s.ringEnd die.toNat index.toNat
    (r.landedAt r.nextPos).isNone = true → Runs (.atillApply die index) s s := by
  intro r nothing
  change execAtillApply die index s = _
  rw [execAtillApply_eq coins, Option.isNone_iff_eq_none.mp nothing]

end

/-! ## Signals -/

/-- The signal of a local PPUT is applied once its write is done. -/
theorem runs_signalApply_petty {s : State} {t : TileNo} {n : BitVec 32} {p : Petty} {till : BitVec 15} {v : BitVec 32}
    (here : s.pettyOf t.toNat n = some p) (sig : p.sig = some (till, v)) (put : p.put = true) (phase : p.phase = 1)
    (chan : p.chan.toNat = localChan) (all : p.left = 0) (err : p.err = none) :
    Runs (.signalApply (.petty t n)) s ((s.modPetty t.toNat n fun q => { q with sig := none }).applyTill till v false).1 := by
  change execSignalApply (.petty t n) s = _
  simp only [execSignalApply, here, sig, put, phase, chan, all, err, Option.isNone_none, decide_true, Bool.and_self, if_true]

/-- The signal of a transfer that is written, and is the oldest of its channel, is applied, and the transfer is acknowledged, or
refused for an overflow. -/
theorem State.applySignal_eq {s : State} {w : Flow} {p : Partial} {till : BitVec 15} {v : BitVec 32} {n : Nat}
    (here : s.partOf w = some p) (sig : p.sig = some (till, v)) (total : p.total = some n) (written : n ≤ p.got)
    (waits : p.waits = 0) (good : p.refused = none) (oldest : w.tid = (s.recv w.key).oldest) :
    s.applySignal w = if (s.applyTill till v false).2 then (s.applyTill till v false).1.refuseFlow w 3 0
      else (s.applyTill till v false).1.acknowledge w := by
  have due : (n ≤ p.got && p.waits = 0 && p.refused.isNone && w.tid = (s.recv w.key).oldest) = true := by
    simp [written, waits, good, ← oldest]
  simp only [State.applySignal, here, sig, total, due, if_true]

end Sys2Proof.Machine

open Sys2Proof Sys2Proof.Machine

/-- The first clause of O21: what an operation does to its till, and where operations come from. -/
theorem tillsCount : Clause.TillsCount := by
  refine fun s => ⟨fun n v sub own => ⟨fun low high => ⟨State.applyTill_sets own v sub low high, ?_⟩,
      State.applyTill_overflows own v sub⟩,
    fun t die c n v sub rest => runs_tillOperationApply_tile, fun src die o rest => runs_tillOperationApply_queued,
    fun n v => runs_tillWriteJtag v⟩
  exact s.till_setTill_ofInt n.toNat low high

/-- The second clause of O21: the message of a ring that is next in order, and the signals. -/
theorem arrivalsApply : Clause.ArrivalsApply := by
  refine fun s => ⟨fun die index c coins good => ⟨fun here => ⟨fun ring => ?_, fun outbox => ?_⟩,
      fun skip marker here good' => ⟨fun ring => ?_, fun outbox => ?_⟩, runs_atillApply_nothing coins⟩,
    fun t n p till v here sig put phase chan all err => runs_signalApply_petty here sig put phase chan all err,
    fun src chan tid p till v n here sig total written waits unrefused oldest => ?_⟩
  · exact (runs_atillApply_message coins good here).trans (congrArg _ (State.takeArrival_ring ring _ _ _))
  · exact (runs_atillApply_message coins good here).trans (congrArg _ (State.takeArrival_outbox outbox _ _ _))
  · exact (runs_atillApply_skipped coins good marker here good').trans (congrArg _ (State.takeArrival_ring ring _ _ _))
  · exact (runs_atillApply_skipped coins good marker here good').trans (congrArg _ (State.takeArrival_outbox outbox _ _ _))
  · exact congrArg Host.Outcome.next (State.applySignal_eq here sig total written waits unrefused oldest)

/-- Settles O21, clause by clause. -/
theorem tillsAndArrivalsComplete : Obligations.TillsAndArrivalsComplete :=
  ⟨tillsCount, arrivalsApply⟩
end

section
/-!
O6: the operations on the exact accumulators. They share their checks and the occupancy of the unit, and differ in what they make of
the tile.
-/
namespace Sys2Proof.Machine

/-- The tile whose EXA unit is occupied up to cycle `now + n`, its operation counted. -/
def Tile.occupyExa (x : Tile) (now n : Scc) : Tile :=
  { x with vec := { x.vec with exaUntil := some (now + n) } }.count 0x05 1

/-- An operation on the exact accumulators with legal fields, a free unit and readable sources has its effect and occupies the unit
for its cycles (R148). -/
theorem exaIssue_ok {f : VForm} {extra : Bool} {v : VSlot} {env : IssueEnv} {z y : Tile} {a b c : Vec}
    (form : f.ok v = true) (fields : extra = true) (free : z.exaBusy env.now = false)
    (sources : z.sources env.now f v = .ok (a, b, c, y)) (n : Nat) (run : IssueEnv → Vec → Tile → Tile) :
    exaIssue f extra n v run env z = .ok ((run env a y).occupyExa env.now (BitVec.ofNat 48 (n - 1))) := by
  simp only [exaIssue, form, fields, free, Bool.and_self, Bool.not_false, check_true, except_ok_bind, sources,
    Tile.occupyExa]

end Sys2Proof.Machine

open Sys2Proof Sys2Proof.Machine

/-- Settles O6, one operation after another. -/
theorem exactAccumulatorsComplete : Obligations.ExactAccumulatorsComplete := by
  intro s t v f a b c y slot now form free sources busy
  have issued {extra : Bool} (fields : extra = true) (n : Nat) (run : IssueEnv → Vec → Tile → Tile) :=
    exaIssue_ok (env := s.issueEnv t.toNat) form fields free sources n run
  refine ⟨?xclr, ?xadd, ?xsum, ?xrd, ?xout, ?xin⟩
  case xadd =>
    rintro rfl fmt
    exact issues_of_ok slot rfl (issued (by simpa using fmt) 4 _)
  case xsum =>
    rintro rfl
    exact issues_of_ok slot rfl (issued rfl 4 _)
  all_goals
    rintro rfl
    exact issues_of_ok slot rfl (issued rfl 1 _)
end

section
/-!
O11: the requests of the petty path. What takes a request from the slot to its line is the same for all three kinds; they differ in
their data and in the count that numbers them, and the line of a post is handled apart from that of a transfer.
-/
namespace Sys2Proof.Machine

/-! ## Issue -/

/-- The tile with a request of cycle `now` in flight, which takes the next number of its kind. -/
def Tile.startReq (x : Tile) (now : Scc) (kind : ReqKind) (qe : BitVec 6) (a : Nat) (d : Vec) (spec : Bool) : Tile :=
  let y := (x.noteAccess now false false a).count 0x06 1
  { y with petty := { y.petty with
    reqs := y.petty.reqs ++ [{ kind := kind, addr := BitVec.ofNat 21 a, qe := qe, issued := now, iaddr := y.iaddr
                               number := if kind = .gpost then y.petty.nextPost else y.petty.nextPetty
                               line := none, data := d, spec := spec }]
    nextPetty := if kind = .gpost then y.petty.nextPetty else y.petty.nextPetty + 1
    nextPost := if kind = .gpost then y.petty.nextPost + 1 else y.petty.nextPost } }

section
variable {role : BitVec 6 → Bool} {l : LSlot} {env : IssueEnv} {z : Tile} {a : Nat} (legal : role l.qe = true)
  (rsv : l.rsv = 0) (ag2 : l.ag2 = 0) (off2 : l.off2 = 0) (chk : l.chk = false)
  (address : a = padAlign false (z.agAddr l.ag l.off)) (escrow : escrowCheck env z a = .ok ())
  (bank : bankCheck env z false false a = .ok ())
include legal rsv ag2 off2 chk address escrow bank

/-- A request whose fields are legal and which passes the checks of its kind goes on with its data: a PPUT's from its end, and
zeros for the others. -/
theorem reqIssue_goes_on {kind : ReqKind} {ends : List (BitVec 6)}
    (pops : (if kind = .pput then [l.qe].filter qePops else []) = ends)
    (present : (kind = .gpost && env.grade = 2) = false) (fresh : ends.any z.popped = false)
    (queue : (z.speculative env.now && kind = .pput && 64 ≤ z.heldCount) = false)
    (ready : z.endsReady env.now 2 ends = .ok ()) (transfers : (kind = .gpost || z.pettyOut < 64) = true)
    (posts : (kind != .gpost || z.postOut < 16) = true) :
    reqIssue kind role l env z =
      ((if kind != .pput then .ok (0, z)
        else if qeIsVQ l.qe then z.popV env.now 2 l.qe
        else z.readMark 3 (l.qe.toNat - 0x20) 2 (l.qe.toNat - 0x20) >>= fun x => .ok (x.vreg l.qe, x))
        >>= fun p => .ok (p.2.startReq env.now kind l.qe a p.1 (z.speculative env.now))) := by
  have form : (l.rsv = 0 && role l.qe && l.ag2 = 0 && l.off2 = 0 && !l.chk) = true := by
    simp only [legal, rsv, ag2, off2, chk, decide_true, Bool.not_false, Bool.and_self]
  have inSlice := padAbsent_of_lt (env := env) (lt_padTop_of_bankCheck bank)
  simp only [reqIssue, pops, form, present, ← address, inSlice, fresh, escrow, queue, ready, transfers, posts, bank,
    Bool.not_false, check_true, except_ok_bind]
  split
  · rfl
  · split
    · rfl
    · cases z.readMark 3 (l.qe.toNat - 0x20) 2 (l.qe.toNat - 0x20) <;> rfl

/-- A PGET with room for its transfer is in flight. -/
theorem reqIssue_pget (room : z.pettyOut < 64) :
    reqIssue .pget role l env z = .ok (z.startReq env.now .pget l.qe a 0 (z.speculative env.now)) :=
  reqIssue_goes_on legal rsv ag2 off2 chk address escrow bank (kind := .pget) rfl rfl rfl (by simp) rfl (by simp [room]) rfl

/-- A GPOST with room for its post is in flight, unless the grade has no gleaners. -/
theorem reqIssue_gpost (grade : env.grade ≠ 2) (room : z.postOut < 16) :
    reqIssue .gpost role l env z = .ok (z.startReq env.now .gpost l.qe a 0 (z.speculative env.now)) :=
  reqIssue_goes_on legal rsv ag2 off2 chk address escrow bank (kind := .gpost) rfl (decide_eq_false grade) rfl (by simp) rfl
    rfl (decide_eq_true room)

/-- A PPUT that has its data, with room for its transfer, is in flight. -/
theorem reqIssue_pput {x : Tile} {d : Vec} (stores : z.Stores env.now l.qe true d x) (room : z.pettyOut < 64)
    (held : z.speculative env.now = true → z.heldCount < 64) :
    reqIssue .pput role l env z = .ok (x.startReq env.now .pput l.qe a d (z.speculative env.now)) :=
  (reqIssue_goes_on legal rsv ag2 off2 chk address escrow bank (kind := .pput) rfl rfl (by simpa using stores.fresh)
      (by simpa using held) (stores.ready 2) (by simp [room]) rfl).trans
    (stores.goes_on fun d x => x.startReq env.now .pput l.qe a d (z.speculative env.now))

end

/-! ## The request line -/

/-- The tile no longer has the request on its way. -/
def State.dropReq (s : State) (t : Nat) (r : ReqLine) : State :=
  s.modTile t fun x => { x with petty := { x.petty with reqs := x.petty.reqs.filter fun q => q != r } }

/-- The post that a request line asks for. -/
def State.postOfLine (s : State) (t : Nat) (r : ReqLine) (d : Line) : LatePost :=
  { number := r.number, stack := BitVec.ofNat 4 (postStack d), line := d, qe := r.qe
    spec := r.spec && (s.tile t).esc.openedAt.isSome }

/-- The line of the request that is due is read as that of a post or of a transfer. -/
theorem runs_requestLineRead {s : State} {t : TileNo} {r : ReqLine} {d : Line} (run : s.running = true)
    (due : ((s.tile t.toNat).petty.reqs.find? fun q => q.issued + 3 = s.fab.scc) = some r) (line : r.line = some d) :
    Runs (.requestLineRead t) s (if r.kind = .gpost then (s.dropReq t.toNat r).postRead t.toNat r d
      else (s.dropReq t.toNat r).pettyRead t.toNat r d) := by
  change execRequestLineRead t s = _
  simp only [execRequestLineRead, run, due, line, Bool.not_true, Bool.false_eq_true, if_false]
  rfl

section
variable {s : State} {t : Nat} {r : ReqLine} {d : Line} (legal : postLineOk r.qe d = true)
  (present : stackIn s.grade (postStack d) = true) (kept : (s.tile t).discarded r = false)
include legal present kept

/-- A post that no open group holds back goes to its stack, or waits for an earlier one. -/
theorem State.postRead_queues (goes : (r.spec && postWr d) = false) :
    s.postRead t r d = s.queuePost t (s.postOfLine t r d) := by
  simp only [State.postRead, legal, present, kept, goes, Bool.not_true, Bool.false_eq_true, if_false]
  rfl

/-- A post of an open group that writes memory waits in the operation escrow queue. -/
theorem State.postRead_holds (waits : (r.spec && postWr d) = true) (room : (s.tile t).heldCount < 64) :
    s.postRead t r d = s.modTile t fun x => { x with esc := { x.esc with
      held := holdAt r.issued (.gpost r.number (BitVec.ofNat 4 (postStack d)) d r.qe) x.esc.held } } := by
  simp only [State.postRead, legal, present, kept, waits, Nat.not_le.mpr room, Bool.not_true, Bool.false_eq_true,
    if_false, if_true]

end

/-- A post for which no earlier one is held, or that leaves an open group at once, enters the intake. -/
theorem State.queuePost_starts {s : State} {t : Nat} {q : LatePost}
    (first : (s.tile t).earlierHeld q.stack q.number = false ∨ q.spec = true) : s.queuePost t q = s.startPost t q := by
  rw [State.queuePost, if_neg]
  rcases first with first | spec <;> simp [*]

/-- Another post waits in the tile while an earlier one to the same stack is held. -/
theorem State.queuePost_waits {s : State} {t : Nat} {q : LatePost}
    (later : (s.tile t).earlierHeld q.stack q.number = true) (spec : q.spec = false) :
    s.queuePost t q = s.modTile t fun x => { x with petty := { x.petty with latePosts := x.petty.latePosts ++ [q] } } := by
  rw [State.queuePost, if_pos (by rw [later, spec]; rfl)]

end Sys2Proof.Machine

open Sys2Proof Sys2Proof.Machine

/-- Settles O11: the three kinds at issue, and then the line of a post and of a transfer. -/
theorem pettyRequestsComplete : Obligations.PettyRequestsComplete := by
  intro s t l z e now a sent legal
  refine ⟨fun slot ok => ?_, ?_⟩
  · obtain ⟨rsv, ag2, off2, chk, escrow⟩ := ok
    refine ⟨fun dst room bank => ?_, fun x src held read room bank => ?_, fun d x src held pop room bank => ?_,
      fun dst grade room bank => ?_⟩
    · exact issues_of_ok slot rfl (reqIssue_pget (decide_eq_true dst) rsv ag2 off2 chk rfl escrow bank room)
    · exact issues_of_ok slot rfl (reqIssue_pput (Bool.or_eq_true_iff.mpr (.inr src)) rsv ag2 off2 chk rfl escrow bank
        (.register src read) room held)
    · exact issues_of_ok slot rfl (reqIssue_pput (Bool.or_eq_true_iff.mpr (.inl src)) rsv ag2 off2 chk rfl escrow bank
        (.value src pop) room held)
    · exact issues_of_ok slot rfl (reqIssue_gpost dst rsv ag2 off2 chk rfl escrow bank grade room)
  intro r d run due line s' post
  have read : Runs _ s (if r.kind = .gpost then s'.postRead t.toNat r d else s'.pettyRead t.toNat r d) :=
    runs_requestLineRead run due line
  refine ⟨fun kind ok present kept => ⟨fun goes => ?_, fun waits room => ?_⟩, runs_of_neg read⟩
  · have queued := (runs_of_pos read kind).trans (congrArg _ (State.postRead_queues ok present kept goes))
    exact ⟨fun first => queued.trans (congrArg _ (State.queuePost_starts first)),
      fun later spec => queued.trans (congrArg _ (State.queuePost_waits later spec))⟩
  · exact (runs_of_pos read kind).trans (congrArg _ (State.postRead_holds ok present kept waits room))
end

section
/-!
O25: the life of a post on its stack, and the thread with which an item starts.
-/
namespace Sys2Proof.Machine

/-! ## The thread of an item -/

/-- A table that is filled with the values of `f` below `n` reads `f` there and as before elsewhere. -/
theorem Sparse.get_foldl_set_range {α : Type} [DecidableEq α] (d : α) (f : Nat → α) (m : SMap α) (n k : Nat) :
    Sparse.get d ((List.range n).foldl (fun m r => Sparse.set d m r (f r)) m) k
      = if k < n then f k else Sparse.get d m k := by
  induction n with
  | zero => rfl
  | succ n ih =>
    rw [List.range_succ, List.foldl_append, List.foldl_cons, List.foldl_nil, Sparse.get_set]
    by_cases last : k = n
    · rw [if_pos last, if_pos (by omega), last]
    · rw [if_neg last, ih]
      simp only [show k < n + 1 ↔ k < n by omega]

/-- An item starts with its number in X0, the parameters of its post in X1 to X6, and zeros above (R276). -/
theorem Thread.start_xreg (line : Line) (i : Nat) (r : BitVec 4) :
    (Thread.start line i).xreg r
      = if r.toNat < 7 then (if r.toNat = 0 then BitVec.ofNat 64 i else postParam line (r.toNat - 1)) else 0 :=
  Sparse.get_foldl_set_range 0 (fun j => if j = 0 then BitVec.ofNat 64 i else postParam line (j - 1)) [] 7 r.toNat

/-! ## The post -/

/-- The head of the intake becomes active while fewer than 32 posts are. -/
theorem runs_postActivate {s : State} {k : BitVec 4} {p : Post} {rest : List Post}
    (head : (s.stack k.toNat).intake = p :: rest) (room : (s.stack k.toNat).active.length < 32) :
    Runs (.postActivate k) s (s.setStack k.toNat { s.stack k.toNat with
      intake := rest, active := (s.stack k.toNat).active ++ [{ p with active := true }] }) := by
  change execPostActivate k s = _
  simp only [execPostActivate, head, room, if_true]

section
variable {s : State} {k : BitVec 4} {n : BitVec 32} {p : Post} (here : s.postOf k.toNat n = some p)
  (going : p.cancelled = false) (sound : p.faulted = false)
include here going sound

/-- The next item of a post starts within its window. -/
theorem runs_itemStart (more : p.nextItem < postItems p.line) (window : p.nextItem < p.released + p.window) :
    Runs (.itemStart k n) s (s.modPost k.toNat n fun q => { q with
      nextItem := q.nextItem + 1, threads := Sparse.put q.nextItem (Thread.start p.line q.nextItem) q.threads }) := by
  change execItemStart k n s = _
  simp [execItemStart, here, going, sound, Nat.not_le.mpr more, Nat.not_le.mpr window]

/-- The words of a post that is first at its end enter it as far as it has room, but for the post's last. -/
theorem runs_postResultDelivery (first : s.postFirst k.toNat p = true) :
    let room := 64 - ((s.tile p.tile.toNat).end64 p.qe).length
    let c := min (min room p.words.length) (p.total - 1 - p.delivered)
    Runs (.postResultDelivery k n) s ((s.pushFq k.toNat p (p.words.take c)).modPost k.toNat n fun q => { q with
      words := q.words.drop c, delivered := q.delivered + c }) := by
  change execPostResultDelivery k n s = _
  simp [execPostResultDelivery, here, going, sound, first]

section
variable (released : postItems p.line ≤ p.released) (all : p.delivered + p.words.length = p.total)
include released all

/-- A post without a word left ends once its items are released. -/
theorem runs_postComplete_empty (empty : p.words = []) :
    Runs (.postComplete k n) s ((s.postDone k.toNat p).count (.stack k) 0x57 0 1) := by
  rw [empty] at all
  change execPostComplete k n s = _
  simp [execPostComplete, here, going, sound, Nat.not_lt.mpr released, empty, ← all]

/-- A post that is first at its end, which has room, ends with its last word. -/
theorem runs_postComplete_last {w : Line} (last : p.words = [w]) (first : s.postFirst k.toNat p = true)
    (room : ((s.tile p.tile.toNat).end64 p.qe).length < 64) :
    Runs (.postComplete k n) s (((s.pushFq k.toNat p [w]).postDone k.toNat p).count (.stack k) 0x57 0 1) := by
  rw [last] at all
  change execPostComplete k n s = _
  simp [execPostComplete, here, going, sound, Nat.not_lt.mpr released, last, ← all, first, room]

end
end

end Sys2Proof.Machine

open Sys2Proof Sys2Proof.Machine

/-- Settles O25, from the intake of a post to its last word, and then the thread of an item. -/
theorem postsRun : Obligations.PostsRun := by
  refine fun s k => ⟨fun p rest => runs_postActivate, fun n p here going sound => ⟨runs_itemStart here going sound,
      runs_postResultDelivery here going sound, fun released all => ⟨runs_postComplete_empty here going sound released all,
        fun w => runs_postComplete_last here going sound released all⟩⟩,
    fun line i => ⟨rfl, Thread.start_xreg line i 0, fun r low high => ?_, fun r high => ?_⟩⟩
  · rw [Thread.start_xreg, if_pos (by omega), if_neg (by omega)]
  · rw [Thread.start_xreg, if_neg (by omega)]
end

section
/-!
O37: a sealed datagram is taken by its session, or dropped; a message in one that is taken acts, or is denied.
-/
namespace Sys2Proof.Machine

/-! ## The datagram -/

/-- A datagram is admitted with the tag of its key, nonce and header and a number that is new and inside the window. -/
theorem Session.admits_iff (x : Session) (d : Datagram) :
    x.admits d = true ↔ d.tag = x.tagIn d.pn ∧ x.rxNext ≤ d.pn.toNat + 1024 ∧ x.seen.contains d.pn.toNat = false := by
  simp [Session.admits, and_assoc]

section
variable {s : State} {x : Session} {d : Datagram}

/-- A datagram that is no SEALED one of version 1, or whose sub-port does not hear, is passed over. -/
theorem State.hear_passed (other : d.ver ≠ 1 ∨ d.type ≠ 4 ∨ s.hears d.port d.sub = false) : s.hear x d = (s, none) := by
  rw [State.hear, if_pos]
  rcases other with ver | type | deaf
  · simp only [bne_iff_ne.mpr ver, Bool.or_true, Bool.true_or]
  · simp only [bne_iff_ne.mpr type, Bool.or_true, Bool.true_or]
  · simp only [deaf, Bool.not_false, Bool.true_or]

section
variable (ver : d.ver = 1) (type : d.type = 4) (hears : s.hears d.port d.sub = true) (frag : d.frag = 0)
include ver type hears frag

/-- A SEALED datagram that its session does not admit is dropped and counted. -/
theorem State.hear_dropped (bad : ¬ x.admits d = true) : s.hear x d = (s.count .house 0x8B 0 1, none) := by
  simp [State.hear, ver, type, hears, frag, bad]

/-- A SEALED datagram that its session admits is taken. -/
theorem State.hear_taken (good : x.admits d = true) :
    s.hear x d = (s.modSession x.number fun _ => x.take d s.clk.clk, some (x.take d s.clk.clk)) := by
  simp [State.hear, ver, type, hears, frag, good]

end
end

/-- A SEALED datagram of an open data session is heard on it. -/
theorem State.openSealed_eq {s : State} {h : Sealed} {x : Session}
    (here : (s.house.sessions.find? fun x => x.number = h.d.session && x.opened && !x.control) = some x) :
    s.openSealed h = s.hear x h.d := by
  simp only [State.openSealed, here]

/-! ## The message -/

section
variable {s z : State} {h : Sealed} (reqid : BitVec 64) (g : State → Session → State)

/-- The message of a datagram that is dropped does nothing. -/
theorem State.onMessage_dropped (dropped : s.openSealed h = (z, none)) (listed : h.stray = none) :
    s.onMessage h reqid g = z := by
  simp [State.onMessage, listed, dropped]

section
variable {y : Session} (taken : s.openSealed h = (z, some y))
include taken

/-- A message whose MTYPE is unlisted, or whose reserved header bytes are not zero, is denied. -/
theorem State.onMessage_denied
    (bad : (∃ m, h.stray = some m ∧ (m = 0 ∨ 8 < m.toNat)) ∨ h.stray = none ∧ h.rsv ≠ 0) :
    s.onMessage h reqid g = z.sendStatus y.number y.dscp reqid 4 := by
  rcases bad with ⟨m, stray, out⟩ | ⟨listed, rsv⟩
  · have unlisted : (1 ≤ m.toNat && m.toNat ≤ 8) = false := by
      rcases out with rfl | out
      · rfl
      · simp [out]
    simp only [State.onMessage, stray, Option.any_some, unlisted, Bool.false_eq_true, if_false, taken, Option.isSome_some,
      Bool.true_or, if_true]
  · simp only [State.onMessage, listed, Option.any_none, Bool.false_eq_true, if_false, taken, Option.isSome_none,
      bne_iff_ne.mpr rsv, Bool.or_true, if_true]

/-- Any other message acts on the session that took it. -/
theorem State.onMessage_acts (listed : h.stray = none) (rsv : h.rsv = 0) : s.onMessage h reqid g = g z y := by
  simp [State.onMessage, listed, taken, rsv]

end
end

/-! ## What a message does -/

/-- A KEEPALIVE does nothing more than be taken (R401). -/
theorem runs_keepalive (h : Sealed) (s : State) : Runs (.keepalive h) s (s.onMessage h 0 fun s _ => s) := rfl

/-- A CLOSE ends its session (R401). -/
theorem runs_close (h : Sealed) (s : State) :
    Runs (.close h) s (s.onMessage h 0 fun s y => s.closeSessions fun z => z.number = y.number) := rfl

/-- A REQUEST is handled by R405. -/
theorem runs_request (h : Sealed) (x : RequestMsg) (s : State) :
    Runs (.request h x) s (s.onMessage h x.reqid fun s y => s.handleRequest y x) := rfl

/-- The client of a session has a right: bit 1 is to subscribe to the ledger, bit 2 to patch. -/
def State.entitled (s : State) (y : Session) (right : Nat) : Bool :=
  (s.client y.index.toNat).any fun c => c.rights.getLsbD right

/-- What a LEDGER message does on session `y`. -/
def State.subscribe (s : State) (y : Session) (start : Option (BitVec 64)) : State :=
  if !s.entitled y 1 then s.sendStatus y.number y.dscp 0 4
  else
    match start with
    | some f => s.startExport y.number f
    | none => { s with house := { s.house with subscribers := s.house.subscribers.filter fun x => x.session != y.number } }

/-- A LEDGER message starts or ends the sending of records (R472). -/
theorem runs_ledger (h : Sealed) (start : Option (BitVec 64)) (s : State) :
    Runs (.ledger h start) s (s.onMessage h 0 fun s y => s.subscribe y start) := rfl

/-- The status that answers a part of a patch list. -/
def PatchAnswer.status : PatchAnswer → BitVec 8
  | .ok => 0
  | .otherSource => 1
  | _ => 4

/-- What a PATCH message does on session `y`. -/
def State.patchFrom (s : State) (y : Session) (x : PatchPart) : State :=
  if !s.entitled y 2 then s.sendStatus y.number y.dscp 0 4
  else if s.stew.longOp.isSome then s.sendStatus y.number y.dscp 0 8
  else
    let p := s.patchPart (16 + y.number.toNat) x
    p.1.sendStatus y.number y.dscp 0 p.2.status

/-- A PATCH message gives one part of a patch list (R164). -/
theorem runs_patchMessage (h : Sealed) (x : PatchPart) (s : State) :
    Runs (.patchMessage h x) s (s.onMessage h 0 fun s y => s.patchFrom y x) := by
  change execPatchMessage h x s = _
  unfold execPatchMessage State.patchFrom
  congr 2
  funext s y
  congr 2
  rcases s.patchPart (16 + y.number.toNat) x with ⟨w, a⟩
  cases a <;> rfl

section
variable {s : State} {y : Session}

/-- A client without the right to subscribe is denied. -/
theorem State.subscribe_denied (denied : s.entitled y 1 = false) (start : Option (BitVec 64)) :
    s.subscribe y start = s.sendStatus y.number y.dscp 0 4 := by
  simp only [State.subscribe, denied, Bool.not_false, if_true]

/-- A client with the right is sent records from then on. -/
theorem State.subscribe_starts (allowed : s.entitled y 1 = true) (f : BitVec 64) :
    s.subscribe y (some f) = s.startExport y.number f := by
  simp only [State.subscribe, allowed, Bool.not_true, Bool.false_eq_true, if_false]

/-- A client with the right can end it. -/
theorem State.subscribe_ends (allowed : s.entitled y 1 = true) :
    s.subscribe y none = { s with house := { s.house with
      subscribers := s.house.subscribers.filter fun x => x.session != y.number } } := by
  simp only [State.subscribe, allowed, Bool.not_true, Bool.false_eq_true, if_false]

variable (x : PatchPart)

/-- A client without the right to patch is denied. -/
theorem State.patchFrom_denied (denied : s.entitled y 2 = false) : s.patchFrom y x = s.sendStatus y.number y.dscp 0 4 := by
  simp only [State.patchFrom, denied, Bool.not_false, if_true]

/-- While a long operation runs no part is taken. -/
theorem State.patchFrom_busy (allowed : s.entitled y 2 = true) (busy : s.stew.longOp.isSome = true) :
    s.patchFrom y x = s.sendStatus y.number y.dscp 0 8 := by
  simp only [State.patchFrom, allowed, busy, Bool.not_true, Bool.false_eq_true, if_false, if_true]

/-- At any other time the part is given, and answered with what came of it. -/
theorem State.patchFrom_idle {w : State} {a : PatchAnswer} (allowed : s.entitled y 2 = true) (idle : s.stew.longOp = none)
    (part : s.patchPart (16 + y.number.toNat) x = (w, a)) : s.patchFrom y x = w.sendStatus y.number y.dscp 0 a.status := by
  simp only [State.patchFrom, allowed, idle, part, Option.isSome_none, Bool.not_true, Bool.false_eq_true, if_false]

end

end Sys2Proof.Machine

open Sys2Proof Sys2Proof.Machine

/-- The first clause of O37: which datagrams are taken, and what a KEEPALIVE and a CLOSE do. -/
theorem sealedDatagramsAreChecked : Clause.SealedDatagramsAreChecked := by
  intro s h x here tag good
  have opens := State.openSealed_eq here
  have admits : x.admits h.d = true ↔ good := x.admits_iff h.d
  refine ⟨fun other => opens.trans (State.hear_passed other), fun ver type hears frag listed => ⟨fun bad => ?_, ?_⟩⟩
  · have dropped := opens.trans (State.hear_dropped ver type hears frag (mt admits.mp bad))
    exact ⟨dropped, (runs_keepalive h s).trans (congrArg _ (State.onMessage_dropped 0 _ dropped listed)),
      (runs_close h s).trans (congrArg _ (State.onMessage_dropped 0 _ dropped listed))⟩
  · intro ok top y z
    have taken : s.openSealed h = (z, some y) := opens.trans (State.hear_taken ver type hears frag (admits.mpr ok))
    have acts (rsv : h.rsv = 0) (g : State → Session → State) : s.onMessage h 0 g = g z y :=
      State.onMessage_acts 0 g taken listed rsv
    have denied (rsv : h.rsv ≠ 0) (g : State → Session → State) : s.onMessage h 0 g = z.sendStatus x.number h.d.dscp 0 4 :=
      State.onMessage_denied (y := y) 0 g taken (.inr ⟨listed, rsv⟩)
    exact ⟨taken,
      fun rsv => ⟨(runs_keepalive h s).trans (congrArg _ (acts rsv _)), (runs_close h s).trans (congrArg _ (acts rsv _))⟩,
      fun rsv => ⟨(runs_keepalive h s).trans (congrArg _ (denied rsv _)), (runs_close h s).trans (congrArg _ (denied rsv _))⟩⟩

/-- The second clause of O37: what each message does. -/
theorem messagesAreHandled : Clause.MessagesAreHandled := by
  intro s z h y taken
  refine ⟨fun bad => ⟨fun x => ?_, fun start => ?_, fun x => ?_⟩, fun listed rsv => ?_⟩
  · exact (runs_request h x s).trans (congrArg _ (State.onMessage_denied x.reqid _ taken bad))
  · exact (runs_ledger h start s).trans (congrArg _ (State.onMessage_denied 0 _ taken bad))
  · exact (runs_patchMessage h x s).trans (congrArg _ (State.onMessage_denied 0 _ taken bad))
  have acts (reqid : BitVec 64) (g : State → Session → State) := State.onMessage_acts reqid g taken listed rsv
  refine ⟨fun x => ?_, ⟨fun start denied => ?_, fun f allowed => ?_, fun allowed => ?_⟩,
    fun x => ⟨fun denied => ?_, fun allowed busy => ?_, fun allowed idle w a part => ?_⟩⟩
  · exact (runs_request h x s).trans (congrArg _ (acts x.reqid _))
  · exact (runs_ledger h start s).trans (congrArg _ ((acts 0 _).trans
      (State.subscribe_denied (Bool.eq_false_iff.mpr denied) start)))
  · exact (runs_ledger h _ s).trans (congrArg _ ((acts 0 _).trans (State.subscribe_starts allowed f)))
  · exact (runs_ledger h _ s).trans (congrArg _ ((acts 0 _).trans (State.subscribe_ends allowed)))
  · exact (runs_patchMessage h x s).trans (congrArg _ ((acts 0 _).trans
      (State.patchFrom_denied x (Bool.eq_false_iff.mpr denied))))
  · exact (runs_patchMessage h x s).trans (congrArg _ ((acts 0 _).trans (State.patchFrom_busy x allowed busy)))
  · refine (runs_patchMessage h x s).trans (congrArg _ ((acts 0 _).trans ((State.patchFrom_idle x allowed idle part).trans ?_)))
    cases a <;> rfl

/-- Settles O37, clause by clause. -/
theorem sealedMessagesAreHandled : Obligations.SealedMessagesAreHandled :=
  ⟨sealedDatagramsAreChecked, messagesAreHandled⟩
end

section
/-!
O38: a request is denied or refused, or it is admissible; an admissible one has its receipt already, or is a new one. An outbox
message is read and then handled.
-/
namespace Sys2Proof.Machine

/-! ## Requests -/

/-- The intake that a request names. -/
def State.intakeOf (s : State) (x : RequestMsg) : BitVec 128 := Sparse.get 0 s.house.intakes x.intake.toNat

/-- The client of session `y` may make request `x` (R405). -/
def State.grants (s : State) (y : Session) (x : RequestMsg) : Bool :=
  ((s.client y.index.toNat).any fun c =>
      c.rights.getLsbD 0 && x.intake.toNat < 64 && c.mask.getLsbD x.intake.toNat)
    && intakeOn (s.intakeOf x) && x.seg == 0 && x.status == 0

/-- In the words of R405. -/
theorem State.grants_iff (s : State) (y : Session) (x : RequestMsg) :
    s.grants y x = true ↔ (∃ c, s.client y.index.toNat = some c ∧ c.rights.getLsbD 0 = true ∧ x.intake.toNat < 64
      ∧ c.mask.getLsbD x.intake.toNat = true) ∧ intakeOn (s.intakeOf x) = true ∧ x.seg = 0 ∧ x.status = 0 := by
  simp only [State.grants, Bool.and_eq_true, beq_iff_eq, Option.any_eq_true, decide_eq_true_eq, and_assoc]

/-- What happens to an admissible request that has receipt `r` already. -/
def State.handleRepeated (s : State) (y : Session) (x : RequestMsg) (r : Receipt) : State :=
  let mine := { r with session := y.number, dscp := y.dscp }
  if r.digest != requestDigest (y.index.setWidth 13) x then s.sendStatus y.number y.dscp x.reqid 6
  else if r.pending then (s.setReceipt (r.ticket.toNat % receiptSlots) (some mine)).count .house 0x87 0 1
  else
    ((s.storedReply r).1.sendReply 3 mine (s.storedReply r).2).count .house 0x88 0
      (if (s.storedReply r).1.sessionSends y.number then 1 else 0)

/-- What happens to an admissible new request, with the floor of its client, for the intake with entry `e`. -/
def State.handleNew (s : State) (y : Session) (x : RequestMsg) (e : BitVec 128) (floor : BitVec 64) : State :=
  if x.reqid.toNat ≤ floor.toNat then s.sendStatus y.number y.dscp x.reqid 5
  else if (s.receiptAt (s.house.nextTicket.toNat % receiptSlots)).any fun r => r.pending then
    s.sendStatus y.number y.dscp x.reqid 1
  else if !(s.chan (intakeChan e)).placeable (coinsOf (32 + x.data.length)) then s.sendStatus y.number y.dscp x.reqid 1
  else s.acceptRequest (intakeChan e) (y.index.setWidth 13) y x

/-- What a request meets, in the order of R405. -/
theorem State.handleRequest_eq (s : State) (y : Session) (x : RequestMsg) :
    s.handleRequest y x =
      if !s.grants y x then s.sendStatus y.number y.dscp x.reqid 4
      else if !s.serving then s.sendStatus y.number y.dscp x.reqid 2
      else if intakeMax (s.intakeOf x) < x.data.length then s.sendStatus y.number y.dscp x.reqid 3
      else (s.findReceipt (y.index.setWidth 13) x.reqid).elim
        ((s.floor y.index.toNat).1.handleNew y x (s.intakeOf x) (s.floor y.index.toNat).2) (s.handleRepeated y x) := by
  unfold State.handleRequest State.grants
  simp only [Bool.not_and, ← bne.eq_1]
  cases s.client y.index.toNat <;> cases s.findReceipt (y.index.setWidth 13) x.reqid <;> rfl

section
variable {s : State} {y : Session} {x : RequestMsg}

/-- A request that the client may not make is denied. -/
theorem State.handleRequest_denied (denied : s.grants y x = false) :
    s.handleRequest y x = s.sendStatus y.number y.dscp x.reqid 4 := by
  simp only [State.handleRequest_eq, denied, Bool.not_false, if_true]

variable (granted : s.grants y x = true)
include granted

/-- A request is refused while the counting house does not serve. -/
theorem State.handleRequest_stopped (stopped : s.serving = false) :
    s.handleRequest y x = s.sendStatus y.number y.dscp x.reqid 2 := by
  simp only [State.handleRequest_eq, granted, stopped, Bool.not_true, Bool.not_false, Bool.false_eq_true, if_false, if_true]

variable (serving : s.serving = true)
include serving

/-- A request that is too long for its intake is refused. -/
theorem State.handleRequest_long (long : intakeMax (s.intakeOf x) < x.data.length) :
    s.handleRequest y x = s.sendStatus y.number y.dscp x.reqid 3 := by
  simp only [State.handleRequest_eq, granted, serving, long, Bool.not_true, Bool.false_eq_true, if_false, if_true]

variable (fits : x.data.length ≤ intakeMax (s.intakeOf x))
include fits

/-- An admissible request that has a receipt is one that came before. -/
theorem State.handleRequest_repeated {r : Receipt} (found : s.findReceipt (y.index.setWidth 13) x.reqid = some r) :
    s.handleRequest y x = s.handleRepeated y x r := by
  simp only [State.handleRequest_eq, granted, serving, Nat.not_lt.mpr fits, found, Bool.not_true, Bool.false_eq_true, if_false,
    Option.elim_some]

/-- An admissible request without a receipt is a new one. -/
theorem State.handleRequest_new (new : s.findReceipt (y.index.setWidth 13) x.reqid = none) {z : State} {floor : BitVec 64}
    (read : s.floor y.index.toNat = (z, floor)) : s.handleRequest y x = z.handleNew y x (s.intakeOf x) floor := by
  simp only [State.handleRequest_eq, granted, serving, Nat.not_lt.mpr fits, new, read, Bool.not_true, Bool.false_eq_true,
    if_false, Option.elim_none]

end

section
variable {s : State} {y : Session} {x : RequestMsg}

section
variable {r : Receipt}

/-- Another request with the number of one that came before is refused. -/
theorem State.handleRepeated_other (other : r.digest ≠ requestDigest (y.index.setWidth 13) x) :
    s.handleRepeated y x r = s.sendStatus y.number y.dscp x.reqid 6 :=
  if_pos (bne_iff_ne.mpr other)

variable (same : r.digest = requestDigest (y.index.setWidth 13) x)
include same

/-- A request whose ticket is pending waits for its reply on the session that sent it last. -/
theorem State.handleRepeated_pending (pending : r.pending = true) :
    s.handleRepeated y x r = (s.setReceipt (r.ticket.toNat % receiptSlots)
      (some { r with session := y.number, dscp := y.dscp })).count .house 0x87 0 1 := by
  simp only [State.handleRepeated, same, pending, bne_self_eq_false, Bool.false_eq_true, if_false, if_true]

/-- The stored reply of a request that has been answered is sent again. -/
theorem State.handleRepeated_answered (answered : r.pending = false) {z : State} {data : List Byte}
    (stored : s.storedReply r = (z, data)) :
    s.handleRepeated y x r = (z.sendReply 3 { r with session := y.number, dscp := y.dscp } data).count .house 0x88 0
      (if z.sessionSends y.number then 1 else 0) := by
  simp only [State.handleRepeated, same, answered, stored, bne_self_eq_false, Bool.false_eq_true, if_false]

end

variable {e : BitVec 128} {floor : BitVec 64}

/-- A request at or below the floor of its client is refused. -/
theorem State.handleNew_low (low : x.reqid.toNat ≤ floor.toNat) :
    s.handleNew y x e floor = s.sendStatus y.number y.dscp x.reqid 5 :=
  if_pos low

variable (above : floor.toNat < x.reqid.toNat)
include above

/-- A new request takes the next ticket where that is free and its coins are held. -/
theorem State.handleNew_accepted
    (free : ((s.receiptAt (s.house.nextTicket.toNat % receiptSlots)).any fun r => r.pending) = false)
    (coins : (s.chan (intakeChan e)).placeable (coinsOf (32 + x.data.length)) = true) :
    s.handleNew y x e floor = s.acceptRequest (intakeChan e) (y.index.setWidth 13) y x := by
  simp only [State.handleNew, Nat.not_le.mpr above, free, coins, Bool.not_true, Bool.false_eq_true, if_false]

/-- A new request for which no ticket is free, or whose coins are not held, is told to come back. -/
theorem State.handleNew_full
    (full : ((s.receiptAt (s.house.nextTicket.toNat % receiptSlots)).any fun r => r.pending) = true
      ∨ (s.chan (intakeChan e)).placeable (coinsOf (32 + x.data.length)) = false) :
    s.handleNew y x e floor = s.sendStatus y.number y.dscp x.reqid 1 := by
  rcases full with taken | coins
  · simp only [State.handleNew, Nat.not_le.mpr above, taken, if_false, if_true]
  · simp only [State.handleNew, Nat.not_le.mpr above, coins, Bool.not_false, if_false, if_true, ite_self]

end

/-! ## Outboxes -/

/-- The oldest message at an outbox has its turn while appends may proceed. -/
theorem runs_outboxMessage {s : State} {n : BitVec 6} {a : Arrived}
    (used : (Sparse.get 0 s.house.outboxes n.toNat).getLsbD 12 = true) (appends : s.appendsWait = false)
    (clock : (s.island 92).lost = false)
    (oldest : (s.house.arrivals.find? fun a => a.index = (Sparse.get 0 s.house.outboxes n.toNat).extractLsb' 0 10
      && a.die = (Sparse.get 0 s.house.outboxes n.toNat).extractLsb' 10 2) = some a) :
    Runs (.outboxMessage n) s (s.outboxTurn a) := by
  change execOutboxMessage n s = _
  simp only [execOutboxMessage, used, appends, clock, oldest, Bool.not_true, Bool.or_self, Bool.false_eq_true, if_false]

/-- A message whose frame word and bytes have been read is handled. -/
theorem State.outboxTurn_of_read {s z : State} {a : Arrived} {w : BitVec 32} {m : Option (List Byte)} (frame : a.frame = some w)
    (read : s.houseRead a (rendBase (s.ringEnd a.die.toNat a.index.toNat).entry + 64 * a.pos.toNat)
      (max 1 (w.toNat % 2 ^ 31)) = (z, .gave m)) : s.outboxTurn a = z.handleArrived a m := by
  simp only [State.outboxTurn, frame, State.outboxData, read]

/-- The message leaves the arrivals, and its coins go back. -/
def State.dropArrival (s : State) (a : Arrived) : State :=
  { s with house := { s.house with arrivals := s.house.arrivals.filter fun b =>
    !(b.die = a.die && b.index = a.index && b.pos = a.pos) } }.returnCoins a.die.toNat a.index.toNat a.coins.toNat false

/-- A well-formed message that names a pending ticket answers it. -/
theorem State.handleArrived_answers {s : State} {a : Arrived} {bs : List Byte} {r : Receipt}
    (ticket : (((s.dropArrival a).receiptAt ((outboxTicket bs).toNat % receiptSlots)).filter fun r =>
      r.ticket = outboxTicket bs && r.pending) = some r)
    (len : outboxLen bs ≤ (s.dropArrival a).replyMax) (stat : outboxStat bs = 0 ∨ 0x80 ≤ (outboxStat bs).toNat)
    (reserved : outboxRsvOk bs = true) :
    s.handleArrived a (some bs) =
      (s.dropArrival a).answerTicket r (outboxStat bs) ((bs.drop 32).take (outboxLen bs)) := by
  have listed : (outboxStat bs != 0 && (outboxStat bs).toNat < 0x80) = false := by
    rcases stat with zero | high
    · rw [zero]
      rfl
    · rw [decide_eq_false (Nat.not_lt.mpr high), Bool.and_false]
  unfold State.dropArrival at *
  simp only [State.handleArrived, ticket, Nat.not_lt.mpr len, listed, reserved, Bool.not_true, Bool.false_eq_true, if_false]

/-- At the end of the program the tickets end, while the counting house and the vault have their clocks. -/
theorem runs_programEndTickets {s : State}
    (ended : s.stew.program.aborted = true ∨ s.fab.hold.halt = true ∨ s.house.stopped = true)
    (house : (s.island 92).lost = false) (vault : (s.island 95).lost = false) : Runs .programEndTickets s s.endTickets := by
  have due : (s.stew.program.aborted || s.fab.hold.halt || s.house.stopped) = true := by
    simpa only [Bool.or_eq_true, or_assoc] using ended
  change execProgramEndTickets s = _
  simp only [execProgramEndTickets, house, vault, due, Bool.or_self, Bool.false_eq_true, if_false, if_true]

/-- An assembly that has had no part for 1 s is dropped. -/
theorem runs_patchAssemblyTimeout {s : State} {a : Assembly} (begun : s.stew.assembly = some a)
    (late : a.since + 1000000 * usUnits ≤ s.clk.clk) : Runs .patchAssemblyTimeout s (s.setAssembly none) := by
  change execPatchAssemblyTimeout s = _
  simp only [execPatchAssemblyTimeout, begun, State.passed, late, decide_true, if_true]

end Sys2Proof.Machine

open Sys2Proof Sys2Proof.Machine

/-- The first clause of O38: what a request meets, in the order of R405. -/
theorem requestsTakeTickets : Clause.RequestsTakeTickets := by
  intro s y x e granted
  have grants : s.grants y x = true ↔ granted := s.grants_iff y x
  refine ⟨fun denied => State.handleRequest_denied (Bool.eq_false_iff.mpr (mt grants.mp denied)),
    fun may => State.handleRequest_stopped (grants.mpr may), fun may => State.handleRequest_long (grants.mpr may),
    fun may serving fits first z floor read => ?_, fun r may serving fits found => ?_⟩
  · have new := State.handleRequest_new (grants.mpr may) serving fits first read
    exact ⟨fun low => new.trans (State.handleNew_low low),
      fun above free coins => new.trans (State.handleNew_accepted above free coins),
      fun above full => new.trans (State.handleNew_full above full)⟩
  · have repeated := State.handleRequest_repeated (grants.mpr may) serving fits found
    exact ⟨fun other => repeated.trans (State.handleRepeated_other other),
      fun same pending => repeated.trans (State.handleRepeated_pending same pending),
      fun same answered z data stored => repeated.trans (State.handleRepeated_answered same answered stored)⟩

/-- The second clause of O38: how outboxes answer, and what ends tickets and assemblies. -/
theorem outboxesAnswer : Clause.OutboxesAnswer :=
  fun _ => ⟨fun _ _ => runs_outboxMessage, fun _ _ _ _ => State.outboxTurn_of_read,
    fun _ _ _ => State.handleArrived_answers, runs_programEndTickets, fun _ => runs_patchAssemblyTimeout⟩

/-- Settles O38, clause by clause. -/
theorem requestsAreAnswered : Obligations.RequestsAreAnswered :=
  ⟨requestsTakeTickets, outboxesAnswer⟩
end

section
/-!
O49: the exact accumulators. A lane adds an addend as it merges with the lane that holds this addend alone, and merging is
commutative and associative in the finite part and in the flags (R193).
-/
namespace Sys2Proof.Machine

theorem exaMod_pos : 0 < exaMod := by
  rw [exaMod]
  positivity

/-- The finite part of a merged lane. -/
theorem exaSum_mod (a b : Nat) : exaSum a b % exaMod = (a + b) % exaMod := by
  rw [exaSum, Nat.add_mul_mod_self_right, Nat.mod_mod, ← Nat.add_mod]

/-- The flags of a merged lane. -/
theorem exaSum_div (a b : Nat) : exaSum a b / exaMod = (a / exaMod) ||| (b / exaMod) := by
  rw [exaSum, Nat.add_mul_div_right _ _ exaMod_pos, Nat.div_eq_of_lt (Nat.mod_lt _ exaMod_pos), Nat.zero_add]

/-- Lanes with the same finite part and the same flags are the same. -/
theorem exa_ext {a b : Nat} (finite : a % exaMod = b % exaMod) (flags : a / exaMod = b / exaMod) : a = b := by
  rw [← Nat.mod_add_div a exaMod, ← Nat.mod_add_div b exaMod, finite, flags]

theorem exaSum_comm (a b : Nat) : exaSum a b = exaSum b a := by
  rw [exaSum, exaSum, Nat.add_comm (a % exaMod), Nat.or_comm]

theorem exaSum_assoc (a b c : Nat) : exaSum (exaSum a b) c = exaSum a (exaSum b c) := by
  apply exa_ext
  · rw [exaSum_mod, ← Nat.mod_add_mod (exaSum a b), exaSum_mod, Nat.mod_add_mod, exaSum_mod,
      ← Nat.add_mod_mod a (exaSum b c), exaSum_mod, Nat.add_mod_mod, Nat.add_assoc]
  · rw [exaSum_div, exaSum_div, exaSum_div, exaSum_div, Nat.or_assoc]

theorem exaSum_right_comm (a b c : Nat) : exaSum (exaSum a b) c = exaSum (exaSum a c) b := by
  rw [exaSum_assoc, exaSum_comm b, ← exaSum_assoc]

/-- Setting a flag of a lane is merging it with the lane that holds this flag alone. -/
theorem or_flag_eq_exaSum (lane : Nat) {k : Nat} (above : 310 ≤ k) : lane ||| 2 ^ k = exaSum lane (0 ||| 2 ^ k) := by
  have flag : 2 ^ k = exaMod * 2 ^ (k - 310) := by rw [exaMod, ← Nat.pow_add, Nat.add_sub_of_le above]
  rw [Nat.zero_or, flag]
  apply exa_ext
  · rw [exaSum_mod, Nat.add_mul_mod_self_left, exaMod, Nat.or_mod_two_pow, Nat.mul_mod_right, Nat.or_zero]
  · rw [exaSum_div, exaMod, Nat.or_div_two_pow]

/-- Adding to the finite part of a lane is merging it with the lane whose finite part is the addend. -/
theorem add_finite_eq_exaSum (lane d : Nat) :
    (lane % exaMod + d) % exaMod + lane / exaMod * exaMod
      = exaSum lane ((0 % exaMod + d) % exaMod + 0 / exaMod * exaMod) := by
  rw [exaSum, Nat.zero_mod, Nat.zero_div, Nat.zero_add, Nat.zero_mul, Nat.add_zero, Nat.mod_mod, Nat.add_mod_mod,
    Nat.div_eq_of_lt (Nat.mod_lt d exaMod_pos), Nat.or_zero]

/-- An addend adds to a lane what it makes of an empty one. -/
theorem exaAdd_eq_exaSum (lane : Nat) (x : Num) : exaAdd lane x = exaSum lane (exaAdd 0 x) := by
  cases x with
  | nan _ => exact or_flag_eq_exaSum lane (by decide)
  | inf neg =>
    cases neg with
    | false => exact or_flag_eq_exaSum lane (by decide)
    | true => exact or_flag_eq_exaSum lane (by decide)
  | fin neg m e =>
    have within : m * 2 ^ (e + 149).toNat % exaMod ≤ exaMod := (Nat.mod_lt _ exaMod_pos).le
    cases neg with
    | false => exact add_finite_eq_exaSum lane _
    | true =>
      simp only [exaAdd, if_true, Nat.add_sub_assoc within]
      exact add_finite_eq_exaSum lane _

end Sys2Proof.Machine

open Sys2Proof Sys2Proof.Machine

/-- Settles O49: addends and lanes alike are merged, and merging has no order. -/
theorem exactSumsHaveNoOrder : Obligations.ExactSumsHaveNoOrder := by
  intro lane
  refine ⟨fun x y => ?_, exaSum_comm lane, fun other x => ?_⟩
  · rw [exaAdd_eq_exaSum, exaAdd_eq_exaSum lane x, exaSum_right_comm, ← exaAdd_eq_exaSum, ← exaAdd_eq_exaSum]
  · rw [exaAdd_eq_exaSum, exaSum_right_comm, ← exaAdd_eq_exaSum]
end

section
/-!
O5: the bodies of the conversions and of the random-number generator.
-/
namespace Sys2Proof.Machine

/-- A CVTN with legal fields and readable sources puts the converted part in the pipe (R182). -/
theorem cvtnIssue_ok {v : VSlot} {env : IssueEnv} {z y : Tile} {a b c : Vec}
    (form : ({ srcA := 1, dst := 2, rnd := true, fmt := true, part := true } : VForm).ok v = true)
    (fmt : cvtFmtOk v.fmt = true) (part : v.part.toNat < partsOf v.fmt) (rnd : (fmtIsInt v.fmt || v.rnd = 0) = true)
    (sources : z.sources env.now { srcA := 1, dst := 2, rnd := true, fmt := true, part := true } v = .ok (a, b, c, y)) :
    cvtnIssue v env z = .ok ((y.result env.now 3 v.dst (cvtnWord v.fmt v.rnd v.part.toNat a) 0).count 0x05 1) := by
  simp only [cvtnIssue, form, fmt, part, rnd, decide_true, Bool.and_self, check_true, except_ok_bind, sources]

/-- A CVTW with legal fields, readable sources and a word to pop puts the widened part in the pipe (R183). -/
theorem cvtwIssue_ok {v : VSlot} {env : IssueEnv} {z y x : Tile} {a b c : Vec} {w : Line}
    (form : ({ srcA := 2, b := true, fmt := true, part := true } : VForm).ok v = true)
    (fmt : cvtFmtOk v.fmt = true) (part : v.part.toNat < partsOf v.fmt)
    (sources : z.sources env.now { srcA := 2, b := true, fmt := true, part := true } v = .ok (a, b, c, y))
    (pop : y.pop64 env.now 1 v.srcA = .ok (w, x)) :
    cvtwIssue v env z = .ok ((x.result env.now 3 v.dst (cvtwVec v.fmt v.part.toNat w b) 0).count 0x05 1) := by
  simp only [cvtwIssue, form, fmt, part, decide_true, Bool.and_self, check_true, except_ok_bind, sources, pop]

/-- An RNG with legal fields and room in its end puts 32 blocks in the pipe and moves the counter past them (R217). -/
theorem rngIssue_ok {v : VSlot} {env : IssueEnv} {z y : Tile} (form : ({ b := v.bp } : VForm).ok v = true)
    (claim : z.claimPush 1 v.dst = .ok y) :
    let y' := y.result env.now 4 v.dst (rngBlocks y.vec.seed y.vec.ctr (if v.bp then y.param v.srcB else 0)) 0
    rngIssue v env z = .ok ({ y' with vec := { y'.vec with ctr := y'.vec.ctr + 32 } }.count 0x05 1) := by
  simp only [rngIssue, form, check_true, except_ok_bind, claim]

end Sys2Proof.Machine

open Sys2Proof Sys2Proof.Machine

/-- Settles O5, one operation after another. -/
theorem conversionsAndRngComplete : Obligations.ConversionsAndRngComplete := by
  intro s t v slot z now
  refine ⟨fun a b c y form fmt part rnd sources => ?cvtn, fun a b c w y x form fmt part sources pop => ?cvtw,
    fun y form claim => ?rng⟩
  case cvtn => exact issues_of_ok slot rfl (cvtnIssue_ok form fmt part rnd sources)
  case cvtw => exact issues_of_ok slot rfl (cvtwIssue_ok form fmt part sources pop)
  case rng => exact issues_of_ok slot rfl (rngIssue_ok form claim)
end

section
/-!
O22: what a FARM, a block and a tag do at their fetch engine.
-/
namespace Sys2Proof.Machine

/-- The oldest FARM of a tile reaches its engine once it has left its bundle (R157, R247). -/
theorem runs_farmArrival {s : State} {t : TileNo} {c : Scc} {d : BitVec 8} {spec : Bool} {rest : List (Scc × Posted)}
    (first : (s.tile t.toNat).petty.farmOut = (c, .farm d spec) :: rest) (left : s.posted c = true) :
    Runs (.farmArrival t) s ((s.modTile t.toNat fun y => { y with petty := { y.petty with
      farmOut := y.petty.farmOut.drop 1 } }).farmReaches (tileField t.toNat) d.toNat t.toNat c spec) := by
  change execFarmArrival t s = _
  simp only [execFarmArrival, first, left, if_true]

section
variable {s : State} {f : BitVec 4} {n : BitVec 8} (present : fieldIn s.grade f.toNat = true)
  (permitted : s.permitted (s.desc f.toNat n.toNat) = true)
include present permitted

/-- A permitted block waits while all tags are out, from when it first did (R243). -/
theorem runs_blockIssue_waits (full : 768 ≤ (s.field f.toNat).tagsOut) :
    let x := s.desc f.toNat n.toNat
    Runs (.blockIssue f n) s
      (s.setDesc f.toNat n.toNat { x with waitingSince := some (x.waitingSince.getD s.clk.clk) }) := by
  change execBlockIssue f n s = _
  simp only [execBlockIssue, present, permitted, full, Bool.not_true, Bool.or_self, Bool.false_eq_true, if_false, if_true]

/-- A permitted block of a fetch that is not speculative sets out under a free tag for which no other descriptor has waited
longer, to this device or to the one behind its channel (R243). -/
theorem runs_blockIssue_issues (free : (s.field f.toNat).tagsOut < 768) (turn : s.olderWaiter f.toNat n.toNat = false)
    (plain : (s.desc f.toNat n.toNat).spec = none) :
    let x := s.desc f.toNat n.toNat
    let s' := (s.setDesc f.toNat n.toNat { x with
      next := x.next + 1, waitingSince := none
      out := x.out ++ [{ index := x.next, left := 0, words := [], spec := false, done := false }] }).count
        (.fetch f) 0x40 0 1
    Runs (.blockIssue f n) s
      (if descChan x.copy = localChan then
        s'.issueLocal f.toNat n.toNat x.next (x.daddr x.next.toNat) (64 * descBlk x.copy)
      else s'.issueRemote f.toNat n.toNat (descChan x.copy) x.next (x.daddr x.next.toNat) (64 * descBlk x.copy)) := by
  change execBlockIssue f n s = _
  simp only [execBlockIssue, present, permitted, Nat.not_le.mpr free, turn, plain, Bool.not_true, Bool.or_self,
    Bool.false_eq_true, if_false]

end

/-- The shadow's arm takes the place of one that is complete (R247). -/
theorem State.settleDesc_shadow {s : State} {f n : Nat} (shadowed : (s.desc f n).st = 2)
    (complete : s.armComplete (s.desc f n) = true) :
    let x := s.desc f n
    s.settleDesc f n = (s.setDesc f n { x.activate x.shadow (x.arms + 1) (x.r0 + BitVec.ofNat 32 (descCount x.copy)) with
      farmer := x.shadowFarmer, shadowFarmer := none }).count (.fetch (BitVec.ofNat 4 f)) 0x45 0 1 := by
  have not_alone : (2 : BitVec 2) ≠ 1 := by decide
  simp only [State.settleDesc, complete, shadowed, not_alone, Bool.not_true, Bool.false_eq_true, if_false, if_true]

/-- A descriptor whose shadow is full is settled by its shadow activation. -/
theorem runs_shadowActivation {s : State} {f : BitVec 4} {n : BitVec 8} (shadowed : (s.desc f.toNat n.toNat).st = 2) :
    Runs (.shadowActivation f n) s (s.settleDesc f.toNat n.toNat) := by
  change execShadowActivation f n s = _
  rw [execShadowActivation, if_pos shadowed]

/-- The tag of a burned block comes home when the data that it asked for have come (R249). -/
theorem runs_tagHome_burned {s : State} {f : BitVec 4} {n : BitVec 8} {i : BitVec 25}
    (burned : (s.desc f.toNat n.toNat).burned.contains i = true) (come : s.burning f.toNat n.toNat i = false) :
    let x := s.desc f.toNat n.toNat
    Runs (.tagHome f n i) s
      ((s.setDesc f.toNat n.toNat { x with burned := x.burned.erase i }).count (.fetch f) 0x44 0 1) := by
  change execTagHome f n i s = _
  simp only [execTagHome, burned, come, Bool.false_eq_true, if_false, if_true]

section
variable {s : State} {f : BitVec 4} {n : BitVec 8} {i : BitVec 25} {b : Block}
  (alive : (s.desc f.toNat n.toNat).burned.contains i = false)
  (flying : ((s.desc f.toNat n.toNat).out.find? fun b => b.index = i && !b.done) = some b) (all : b.left = 0)
include alive flying all

/-- A block whose lines are all in the slice is home (R244). -/
theorem runs_tagHome_slice (kind : descKind (s.desc f.toNat n.toNat).copy = 1) :
    Runs (.tagHome f n i) s (s.blockHome f.toNat n.toNat i) := by
  change execTagHome f n i s = _
  simp only [execTagHome, alive, flying, all, kind,
    bne_self_eq_false, Nat.reduceEqDiff, Bool.false_eq_true, if_false]

/-- The next block of an FQ end enters it (R244). -/
theorem runs_tagHome_fq (kind : descKind (s.desc f.toNat n.toNat).copy = 2) (next : i = (s.desc f.toNat n.toNat).home) :
    Runs (.tagHome f n i) s (s.fillFq f.toNat n.toNat b) := by
  subst next
  change execTagHome f n _ s = _
  simp only [execTagHome, alive, flying, all, kind,
    bne_self_eq_false, Nat.reduceEqDiff, Bool.false_eq_true, if_false, if_true]

/-- A block that has been read from the slice is written to DRAM, and is home (R244). -/
theorem runs_tagHome_dram {k d : Nat} (kind : descKind (s.desc f.toNat n.toNat).copy = 3)
    (there : place s.grade true ((s.desc f.toNat n.toNat).daddr i.toNat).toNat = .dram k d) :
    Runs (.tagHome f n i) s
      ((s.dramWrite k d ((List.range (descBlk (s.desc f.toNat n.toNat).copy)).flatMap fun j =>
        bytesOf (Sparse.get 0 b.words j).toNat 64)).blockHome f.toNat n.toNat i) := by
  change execTagHome f n i s = _
  simp only [execTagHome, alive, flying, all, kind, there,
    bne_self_eq_false, Nat.reduceEqDiff, Bool.false_eq_true, if_false, if_true]

end

end Sys2Proof.Machine

open Sys2Proof Sys2Proof.Machine

/-- Settles O22: the FARM, the block that waits or sets out, the shadow, and each way of a tag home. -/
theorem fetchBlocksGoHome : Obligations.FetchBlocksGoHome := by
  intro s
  refine ⟨fun t c d spec rest => runs_farmArrival, fun f n => ⟨fun present permitted => ⟨?waits, ?issues⟩, ?shadow,
    fun i => runs_tagHome_burned, fun i b alive flying all => ⟨?slice, ?fq, ?dram⟩⟩⟩
  case waits => exact runs_blockIssue_waits present permitted
  case issues =>
    intro free turn plain
    have issued := runs_blockIssue_issues present permitted free turn plain
    exact ⟨runs_of_pos issued, runs_of_neg issued⟩
  case shadow =>
    intro shadowed complete
    exact (runs_shadowActivation shadowed).trans (congrArg _ (State.settleDesc_shadow shadowed complete))
  case slice => exact runs_tagHome_slice alive flying all
  case fq => exact runs_tagHome_fq alive flying all
  case dram => exact fun _ _ => runs_tagHome_dram alive flying all
end

section
/-!
O24: a correctable codeword that the scrubber meets while the fabric is held is not counted (R529).
-/
namespace Sys2Proof.Machine

/-- While the fabric is held, the tallies of a tile gain nothing (R529). -/
theorem State.tileEvent_held {s : State} (held : s.fab.hold.held = true) (t : Nat) (event : BitVec 8) (n : Nat) :
    s.tileEvent t event n = s := by
  rw [State.tileEvent, held, Bool.or_true, if_pos rfl]

/-- While the fabric is held, the scrub of a line with an uncorrectable codeword changes nothing (R225, R529). -/
theorem State.scrubbed_held {s : State} {t line : Nat} (held : s.fab.hold.held = true)
    (bad : s.eccOf (padAddr t (64 * line)) 64 = 2) : s.scrubbed t line = s := by
  simp only [State.scrubbed, State.tileEvent_held held, bad, if_true, ite_self]

/-- A held device whose tile 0 counts corrected codewords, and whose line 0 of that tile has a correctable codeword and an
uncorrectable one. -/
def heldScrub : State :=
  { State.reset with
    fab := { State.reset.fab with
      tiles := [(0, { tally0 := { event := 0x08 } })], hold := { State.reset.fab.hold with held := true } }
    ecc := [(padAddr 0 0 / 16, 1), (padAddr 0 0 / 16 + 1, 2)] }

/-- The scrubber's request for line 0 of a tile. -/
def scrubRequest : URequest :=
  { agent := 5, age := 0, line := 0, data := none, gen := none, spec := false, owner := .scrub }

end Sys2Proof.Machine

open Sys2Proof Sys2Proof.Machine

/-- Refutes O24: of a line with both a correctable and an uncorrectable codeword the statement says that the scrub counts the
correction, which in a held fabric no tally of the tile does (R529). -/
theorem not_memoryStacksComplete : ¬ Obligations.MemoryStacksComplete := by
  rintro ⟨banks, -⟩
  obtain ⟨-, -, scrubs, -⟩ := banks heldScrub
  obtain ⟨-, -, -, counted, -⟩ := scrubs 0 scrubRequest
  have bad : heldScrub.eccOf (padAddr 0 0) 64 = 2 := by decide
  have claimed : heldScrub.scrubbed 0 0 = heldScrub.modTile 0 fun y => y.count 0x08 1 := counted (by decide) bad
  have happens : heldScrub.scrubbed 0 0 = heldScrub := State.scrubbed_held rfl bad
  have uncounted : (heldScrub.tile 0).count 0x08 1 = heldScrub.tile 0 := by
    simpa only [State.tile_modTile, if_true] using congrArg (·.tile 0) (claimed.symm.trans happens)
  exact absurd (congrArg (·.tally0.count) uncounted) (by decide)
end

section
/-!
O50: EKH64 undone step by step.
-/
namespace Sys2Proof.Machine

/-- A vector that a right shift leaves as it is, is zero. -/
theorem eq_zero_of_ushiftRight_eq {w n : Nat} (hn : 0 < n) {x : BitVec w} (fixed : x >>> n = x) : x = 0 := by
  have halved : x.toNat / 2 ^ n = x.toNat := by
    rw [← Nat.shiftRight_eq_div_pow, ← BitVec.toNat_ushiftRight, fixed]
  by_contra nonzero
  have positive : 0 < x.toNat := Nat.pos_of_ne_zero fun h => nonzero (BitVec.eq_of_toNat_eq h)
  exact (Nat.div_lt_self positive (Nat.one_lt_two_pow hn.ne')).ne halved

/-- The xor of a vector with a right shift of itself can be inverted: the difference of two vectors that it sends to one is
its own right shift. -/
theorem xor_ushiftRight_injective {w n : Nat} (hn : 0 < n) : Function.Injective fun x : BitVec w => x ^^^ (x >>> n) := by
  intro x y same
  have fixed : (x ^^^ y) >>> n = x ^^^ y := by
    have cancelled : x ^^^ y ^^^ ((x >>> n) ^^^ (y >>> n)) = 0 := by
      calc x ^^^ y ^^^ ((x >>> n) ^^^ (y >>> n)) = (x ^^^ (x >>> n)) ^^^ (y ^^^ (y >>> n)) := by ac_rfl
        _ = 0 := BitVec.xor_eq_zero_iff.mpr same
    rw [BitVec.ushiftRight_xor_distrib, BitVec.xor_eq_zero_iff.mp cancelled]
  exact BitVec.xor_eq_zero_iff.mp (eq_zero_of_ushiftRight_eq hn fixed)

/-- EKH64 under one salt takes different keys to different hashes: each of its steps can be inverted (R281). -/
theorem ekh64_injective (salt : BitVec 64) : Function.Injective fun key => ekh64 key salt := by
  have salted (x : BitVec 64) : Function.Injective (· ^^^ x) := (xor_left_involutive x).injective
  have shifted (n : Nat) (hn : 0 < n) : Function.Injective fun x : BitVec 64 => x ^^^ (x >>> n) :=
    xor_ushiftRight_injective hn
  have first : Function.Injective fun x : BitVec 64 => x * 0xC2B54D193A8F6E07 :=
    (IsUnit.of_mul_eq_one 0x0E09ECD5384E9FB7 (by decide)).mul_left_injective
  have second : Function.Injective fun x : BitVec 64 => x * 0x8E61F3A5D4729B1B :=
    (IsUnit.of_mul_eq_one 0x867E1A13550E4713 (by decide)).mul_left_injective
  have lower := first.comp ((shifted 31 (by decide)).comp (salted 0x5C3EA0F127D9B46B))
  exact (shifted 32 (by decide)).comp (second.comp ((shifted 29 (by decide)).comp ((salted salt).comp lower)))

end Sys2Proof.Machine

open Sys2Proof Sys2Proof.Machine

/-- Settles O50: the steps of EKH64 are those of R281, and on the finitely many keys what is injective is a bijection. -/
theorem ekhIsABijection : Obligations.EkhIsABijection :=
  ⟨fun _ _ => rfl, fun s => Finite.injective_iff_bijective.mp (ekh64_injective s)⟩
end

section
/-!
O26, O27: a script instruction whose body gives a thread leaves that thread in its item.
-/
namespace Sys2Proof.Machine

/-- The thread that the body of an instruction gets: the PC has moved on, and the instruction is counted (R278, R280). -/
def Thread.issued (t : Thread) : Thread := { t with pc := t.pc + 1, count := t.count + 1 }

@[simp] theorem Thread.issued_xreg (t : Thread) (r : BitVec 4) : t.issued.xreg r = t.xreg r := rfl
@[simp] theorem Thread.issued_slot (t : Thread) (w : Bool) : t.issued.slot w = t.slot w := rfl
@[simp] theorem Thread.issued_ba (t : Thread) : t.issued.ba = t.ba := rfl
@[simp] theorem Thread.issued_rowlen (t : Thread) : t.issued.rowlen = t.rowlen := rfl
@[simp] theorem Thread.issued_rowElems (t : Thread) (p : Post) : t.issued.rowElems p = t.rowElems p := rfl

section
variable {s : State} {k : BitVec 4} {n : BitVec 32} {i : BitVec 20} {o : ScriptOp} {p : Post} {t t' : Thread} {c : Instr}
  {need : Needs}

/-- An instruction whose body gives a thread leaves that thread in its item. -/
theorem runs_script {body : Post → Thread → Except ScriptFault Thread}
    (is : exec c s = .next (s.script k n i o need body)) (gives : body p t.issued = .ok t')
    (ready : ScriptOpen s k n i o need p t) : Runs c s (s.afterScript k n i t') :=
  is.trans (congrArg Host.Outcome.next (State.script_ok ready gives))

/-- An instruction on registers writes X_D. -/
theorem runs_scriptReg {f : Thread → BitVec 64} {x : BitVec 64}
    (is : exec c s = .next (s.script k n i o need (scriptReg o f))) (gives : f t.issued = x)
    (ready : ScriptOpen s k n i o need p t) : Runs c s (s.afterScript k n i (t.issued.setX o.d x)) := by
  subst gives
  exact runs_script is rfl ready

/-- A branch goes to IMM[9:0] where its condition holds, and else on. -/
theorem runs_scriptBranch {b : Thread → Bool} {taken : Bool}
    (is : exec c s = .next (s.script k n i o need (scriptBranch o b))) (decides : b t.issued = taken)
    (ready : ScriptOpen s k n i o need p t) :
    Runs c s (s.afterScript k n i (if taken then { t.issued with pc := o.imm.toNat % 1024 } else t.issued)) := by
  subst decides
  exact runs_script is rfl ready

/-- MODU by another number than zero writes the remainder. -/
theorem runs_scriptModu (divisor : t.xreg o.b ≠ 0) (ready : ScriptOpen s k n i o { xs := [o.d, o.a, o.b] } p t) :
    Runs (.scriptModu k n i o) s (s.afterScript k n i (t.issued.setX o.d (t.xreg o.a % t.xreg o.b))) :=
  runs_script rfl (if_neg divisor) ready

/-- NSAMP of 1 to 64 positions writes them, in increasing order and with all ones behind them (R283). -/
theorem runs_scriptNsamp (low : 1 ≤ o.imm.toNat) (high : o.imm.toNat ≤ 64)
    (ready : ScriptOpen s k n i o { xs := [o.a, o.b], ws := [o.w] } p t) :
    Runs (.scriptNsamp k n i o) s (s.afterScript k n i (t.issued.setSlot o.w (vecOf64 fun j =>
      (samplePositions (t.xreg o.a).toNat o.imm.toNat (t.xreg o.b)).getD j (2 ^ 64 - 1)))) := by
  have listed : (o.imm.toNat = 0 || 64 < o.imm.toNat) = false := by
    simp only [Bool.or_eq_false_iff, decide_eq_false_iff_not]
    omega
  exact runs_script rfl (if_neg (Bool.eq_false_iff.mp listed)) ready

end
end Sys2Proof.Machine

open Sys2Proof Sys2Proof.Machine

/-- Settles O26: each instruction is its body on the issued thread, and only MODU and NSAMP can fault. -/
theorem scriptRegisterOperationsComplete : Obligations.ScriptRegisterOperationsComplete :=
  fun _ _ _ _ _ _ _ => ⟨runs_script rfl rfl,
    runs_scriptReg rfl rfl, runs_scriptReg rfl rfl, runs_scriptReg rfl rfl, runs_scriptReg rfl rfl, runs_scriptReg rfl rfl,
    runs_scriptReg rfl rfl, runs_scriptReg rfl rfl, runs_scriptReg rfl rfl, runs_scriptModu, runs_scriptReg rfl rfl,
    runs_scriptBranch rfl rfl, runs_scriptBranch rfl decide_not.symm, runs_scriptBranch rfl rfl, runs_scriptBranch rfl rfl,
    runs_script rfl rfl, runs_scriptReg rfl rfl, runs_scriptNsamp⟩
end

section
/-!
O27: the script instructions on rows and on the bag give their thread where they do not fault.
-/
namespace Sys2Proof.Machine

section
variable {s : State} {k : BitVec 4} {n : BitVec 32} {i : BitVec 20} {o : ScriptOp} {p : Post} {t : Thread}

/-- SETROW of a length and a format in their ranges sets them. -/
theorem runs_scriptSetrow {len : BitVec 16} {fmt : BitVec 4} (fields : o.imm = (0 : BitVec 12) ++ fmt ++ len)
    (whole : len.toNat % 64 = 0) (low : 64 ≤ len.toNat) (high : len.toNat ≤ 512)
    (format : fmt = 2 ∨ fmt = 3 ∨ fmt = 5 ∨ fmt = 6 ∨ fmt = 15) (ready : ScriptOpen s k n i o {} p t) :
    Runs (.scriptSetrow k n i o) s (s.afterScript k n i { t.issued with rowlen := len, rowfmt := fmt }) := by
  have length : o.imm.toNat % 65536 = len.toNat := by
    rw [fields, ← BitVec.toNat_setWidth 16 (_ ++ len), BitVec.setWidth_append_eq_right]
  have formatted : o.imm.extractLsb' 16 4 = fmt := by
    rw [fields, extractLsb'_append_high _ _ le_rfl, extractLsb'_append_zero]
  have reserved : o.imm.extractLsb' 20 12 = 0 := by
    rw [fields, extractLsb'_append_high _ _ (by decide), extractLsb'_append_high _ _ (by decide)]
    rfl
  have legal : (fmt = 2 || fmt = 3 || fmt = 5 || fmt = 6 || fmt = 15) = true := by
    simpa only [Bool.or_eq_true, decide_eq_true_eq, or_assoc] using format
  refine runs_script rfl ?_ ready
  simp only [length, formatted, reserved, legal, whole, Nat.not_lt.mpr low, Nat.not_lt.mpr high, BitVec.ofNat_toNat,
    BitVec.setWidth_eq]
  rfl

/-- BCLR of 1 fills the bag with −∞. -/
theorem runs_scriptBclr_one (one : o.imm = 1) (ready : ScriptOpen s k n i o {} p t) :
    Runs (.scriptBclr k n i o) s (s.afterScript k n i { t.issued with ba := vecOf32 fun _ => 0xFF800000 }) := by
  rw [show (0xFF800000 : Nat) = binary32.infBits true from rfl]
  refine runs_script rfl ?_ ready
  simp [one]

/-- A row whose elements fit is joined with the bag (BADD, BMAX). -/
theorem bagJoin_fits {w : Nat} (fits : t.rowElems p = .ok w) (f : Nat → Nat → Nat) :
    bagJoin o f p t.issued = .ok { t.issued with
      ba := vecOf32 fun e =>
        if e < postElems p.line then f (lane32 t.ba e) (rowElem (t.slot o.w) w t.rowfmt e) else lane32 t.ba e } := by
  simp only [bagJoin, Thread.issued_rowElems, fits]
  rfl

/-- BDIV by another number than zero divides the lanes of the bag. -/
theorem runs_scriptBdiv (divisor : t.xreg o.a ≠ 0) (ready : ScriptOpen s k n i o { xs := [o.a] } p t) :
    Runs (.scriptBdiv k n i o) s (s.afterScript k n i
      { t.issued with ba := vecOf32 fun e => div32 (lane32 t.ba e) (fp32OfNat (t.xreg o.a).toNat) }) :=
  runs_script rfl (if_neg (fun zero => divisor (BitVec.eq_of_toNat_eq zero))) ready

/-! ## Emits -/

section
variable (plain : postSegop p.line = 0)
include plain

/-- EMITB of an unsegmented post writes the converted lanes of the bag as far as the post has result words. -/
theorem runs_scriptEmitb_plain
    (room : o.imm.toNat % 256 + (postElems p.line * ofmtBytes (postOfmt p.line) + 63) / 64 ≤ postOutw p.line)
    (ready : ScriptOpen s k n i o {} p t) :
    Runs (.scriptEmitb k n i o) s (s.afterScript k n i (t.issued.emit (64 * (o.imm.toNat % 256))
      (postElems p.line * ofmtBytes (postOfmt p.line))
      (((List.range (postElems p.line)).map fun e => cvtnLane (BitVec.ofNat 4 (postOfmt p.line)) 0 (lane32 t.ba e)).foldr
        (fun x acc => x % 256 ^ ofmtBytes (postOfmt p.line) + 256 ^ ofmtBytes (postOfmt p.line) * acc) 0))) := by
  refine runs_script rfl ?_ ready
  simp [plain, Nat.not_lt.mpr room]

/-- EMITW writes the row as far as the post has result words. -/
theorem runs_scriptEmitw (room : o.imm.toNat % 256 + t.rowlen.toNat / 64 ≤ postOutw p.line)
    (ready : ScriptOpen s k n i o { ws := [o.w] } p t) :
    Runs (.scriptEmitw k n i o) s (s.afterScript k n i
      (t.issued.emit (64 * (o.imm.toNat % 256)) t.rowlen.toNat (t.slot o.w).toNat)) := by
  refine runs_script rfl ?_ ready
  simp [plain, Nat.not_lt.mpr room]

/-- EMITX writes a register at a place that the post's result words hold. -/
theorem runs_scriptEmitx (room : o.imm.toNat % 512 / 8 < postOutw p.line)
    (ready : ScriptOpen s k n i o { xs := [o.a] } p t) :
    Runs (.scriptEmitx k n i o) s (s.afterScript k n i
      (t.issued.emit (8 * (o.imm.toNat % 512)) 8 (t.xreg o.a).toNat)) := by
  have held : 8 * (o.imm.toNat % 512) / 64 < postOutw p.line := by omega
  refine runs_script rfl ?_ ready
  simp [plain, Nat.not_le.mpr held]

end

/-- EMITB of a segmented post contributes the bag to its segment (R284). -/
theorem runs_scriptEmitb_segment (segmented : postSegop p.line ≠ 0) (start : o.imm.toNat % 256 = 0)
    (room : (postElems p.line * ofmtBytes (postOfmt p.line) + 63) / 64 ≤ postOutw p.line)
    (ready : ScriptOpen s k n i o {} p t) :
    Runs (.scriptEmitb k n i o) s (s.afterScript k n i { t.issued with emitted := true, bag := some t.ba }) := by
  refine runs_script rfl ?_ ready
  simp [segmented, start, Nat.not_lt.mpr room]

end
end Sys2Proof.Machine

open Sys2Proof Sys2Proof.Machine

/-- Settles O27: each instruction is its body on the issued thread, which under its conditions does not fault. -/
theorem scriptRowOperationsComplete : Obligations.ScriptRowOperationsComplete :=
  fun _ _ _ _ _ _ _ => ⟨fun _ _ => runs_scriptSetrow, fun zero => runs_script rfl (if_pos zero), runs_scriptBclr_one,
    fun _ fits => ⟨runs_script rfl (bagJoin_fits fits _), runs_script rfl (bagJoin_fits fits _)⟩,
    fun zero => runs_script rfl (if_pos (congrArg BitVec.toNat zero)), runs_scriptBdiv, runs_scriptEmitb_plain,
    runs_scriptEmitb_segment, runs_scriptEmitw, runs_scriptEmitx⟩
end

section
/-!
O28: the accesses of a script, from the instruction that puts one in flight to its completion.
-/
namespace Sys2Proof.Machine

section
variable {s : State} {k : BitVec 4} {n : BitVec 32} {i : BitVec 20} {o : ScriptOp} {p : Post} {t : Thread} {at_ : Nat}

/-! ## In flight -/

section
variable (legal : accessAt k.toNat (t.xreg o.a + o.imm.signExtend 64) 8 8 = .ok at_)
include legal

/-- LD8 puts a load of its register in flight. -/
theorem runs_scriptLd8 (ready : ScriptOpen s k n i o { xs := [o.d, o.a], access := true } p t) :
    Runs (.scriptLd8 k n i o) s (s.afterScript k n i (t.issued.access (.ld8 o.d) at_ 8)) :=
  runs_script rfl (congrArg (· >>= _) legal) ready

/-- ST8 of a post that may write puts a store of its register in flight. -/
theorem runs_scriptSt8 (writes : postWr p.line = true)
    (ready : ScriptOpen s k n i o { xs := [o.a, o.b], access := true } p t) :
    Runs (.scriptSt8 k n i o) s (s.afterScript k n i (t.issued.access (.st8 (t.xreg o.b)) at_ 8)) := by
  refine runs_script rfl ?_ ready
  simp only [writes]
  exact congrArg (· >>= _) legal

end

section
variable (legal : accessAt k.toNat (t.xreg o.a + o.imm.signExtend 64) t.rowlen.toNat 64 = .ok at_)
include legal

/-- LDROW puts a load of its row slot in flight. -/
theorem runs_scriptLdrow (ready : ScriptOpen s k n i o { xs := [o.a], ws := [o.w], access := true } p t) :
    Runs (.scriptLdrow k n i o) s (s.afterScript k n i (t.issued.access (.ldrow o.w t.rowlen) at_ t.rowlen.toNat)) :=
  runs_script rfl (congrArg (· >>= _) legal) ready

/-- RADD of a post that may write puts an addition of its row in flight where the row's elements fit. -/
theorem runs_scriptRadd {w : Nat} (writes : postWr p.line = true) (fits : t.rowElems p = .ok w)
    (ready : ScriptOpen s k n i o { xs := [o.a], ws := [o.w], access := true } p t) :
    Runs (.scriptRadd k n i o) s (s.afterScript k n i
      (t.issued.access (.radd (t.slot o.w) t.rowfmt (postElems p.line)) at_ t.rowlen.toNat)) := by
  refine runs_script rfl ?_ ready
  simp only [writes, Thread.issued_rowElems, fits]
  exact congrArg (· >>= fun offset =>
    .ok (t.issued.access (.radd (t.slot o.w) t.rowfmt (postElems p.line)) offset t.rowlen.toNat)) legal

end

/-- PROBE of a directory inside the stack puts a walk in flight. -/
theorem runs_scriptProbe (pair : o.b ≠ 15)
    (legal : accessAt k.toNat (BitVec.ofNat 64 ((t.xreg o.b).toNat % 2 ^ 36 / 64 * 64))
      (64 * 2 ^ ((t.xreg o.b).toNat % 32)) 64 = .ok at_)
    (ready : ScriptOpen s k n i o { xs := [o.d, o.a, o.b, o.b + 1], access := true } p t) :
    Runs (.scriptProbe k n i o) s (s.afterScript k n i (t.issued.access
      (.probe o.d (t.xreg o.a) (t.xreg o.b) (t.xreg (o.b + 1))) at_ (64 * 2 ^ ((t.xreg o.b).toNat % 32)))) := by
  refine runs_script rfl ((if_neg pair).trans ?_) ready
  exact congrArg (· >>= _) legal

/-! ## What a completed access gives -/

@[simp] theorem Thread.setSlot_accesses (t : Thread) (w : Bool) (v : Vec) : (t.setSlot w v).accesses = t.accesses := by
  cases w <;> rfl

section
variable {j : Nat} {a : Access} {reset : Bool} {s' : State} {bs : List Byte}

/-- A LD8 gives its register the value of its 8 bytes. -/
theorem State.finishAccess_ld8 {d : BitVec 4} (kind : a.kind = .ld8 d)
    (read : s.dramRead j (j * 0x1000000000 + a.addr) 8 = (s', some bs)) :
    s.finishAccess j t a reset = (s', some ({ t with used := t.used + 1 }.setX d (BitVec.ofNat 64 (natOf bs)))) := by
  simp only [State.finishAccess, kind, read]

/-- A LDROW gives its row slot the value of its bytes. -/
theorem State.finishAccess_ldrow {w : Bool} {m : BitVec 16} (kind : a.kind = .ldrow w m)
    (read : s.dramRead j (j * 0x1000000000 + a.addr) m.toNat = (s', some bs)) :
    s.finishAccess j t a reset = (s', some ({ t with used := t.used + 1 }.setSlot w (BitVec.ofNat 4096 (natOf bs)))) := by
  simp only [State.finishAccess, kind, read]

/-- A RADD of a post that still runs writes the sums of its elements (R285). -/
theorem State.finishAccess_radd {row : Vec} {fmt : BitVec 4} {elems : Nat} (kind : a.kind = .radd row fmt elems)
    (going : reset = false) (read : s.dramRead j (j * 0x1000000000 + a.addr) a.len = (s', some bs)) :
    s.finishAccess j t a reset = (s'.dramWrite j (j * 0x1000000000 + a.addr) ((List.range elems).flatMap fun e =>
      bytesOf (cvtnLane fmt 0 (binary32.add 0 (rowElem (BitVec.ofNat 4096 (natOf bs)) (ofmtBytes fmt.toNat) fmt e)
        (rowElem row (ofmtBytes fmt.toNat) fmt e)).1) (ofmtBytes fmt.toNat)), some { t with used := t.used + 2 }) := by
  simp only [State.finishAccess, kind, read, going]
  rfl

/-- The memory stays through the reads of a walk. -/
theorem State.walkReads_mem (s : State) (j reads : Nat) (bucket : Nat → Nat) :
    ((List.range reads).foldl (fun z step => (z.dramRead j (bucket step) 64).1) s).mem = s.mem :=
  foldl_mem (fun z _ => z.dramRead_mem j _ 64) _ s

/-- A PROBE gives its register the row that its walk finds, or all ones, and writes no memory (R282). -/
theorem State.finishAccess_probe {d : BitVec 4} {key dir salt : BitVec 64} {found : Option Nat} {reads : Nat}
    (kind : a.kind = .probe d key dir salt)
    (walk : probeWalk (fun i => s.peek j (a.addr + 64 * i) 64) key (ekh64 key salt).toNat (dir.toNat % 32)
      (dir.toNat / 2 ^ 36 % 16) 16 0 = some (found, reads)) :
    ∃ z : State, z.mem = s.mem ∧ s.finishAccess j t a reset = (z, some ({ t with
      used := t.used + reads, misses := t.misses + (if found.isNone then 1 else 0) }.setX d
        (match found with | some row => BitVec.ofNat 64 row | none => BitVec.allOnes 64))) := by
  cases found with
  | none =>
    simp only [State.finishAccess, kind, walk]
    exact ⟨_, (State.count_mem ..).trans (State.walkReads_mem s j reads _), rfl⟩
  | some row =>
    simp only [State.finishAccess, kind, walk]
    exact ⟨_, State.walkReads_mem s j reads _, rfl⟩

end

/-! ## Completion -/

section
variable {a : Access} {as : List Access} (here : s.postOf k.toNat n = some p)
  (thread : Sparse.find? i.toNat p.threads = some t) (oldest : t.accesses = a :: as)
include here thread oldest

/-- The oldest access of a thread completes, unless it is a RADD that has to wait: the thread goes on with what the access
gave, and without it. -/
theorem runs_accessComplete {s' : State} {t' : Thread}
    (turn : ∀ row fmt elems, a.kind = .radd row fmt elems → s.raddWaits k.toNat p i.toNat a = false)
    (finishes : s.finishAccess k.toNat t a p.cancelled = (s', some t')) (kept : t'.accesses = t.accesses) :
    Runs (.scriptAccessComplete k n i false) s (s'.afterScript k n i { t' with accesses := as }) := by
  change execScriptAccessComplete k n i false s = _
  cases kind : a.kind with
  | radd row fmt elems =>
    simp [execScriptAccessComplete, here, thread, oldest, kind, turn row fmt elems kind, finishes, kept, State.afterScript]
  | ld8 | ldrow | probe | st8 =>
    simp [execScriptAccessComplete, here, thread, oldest, kind, finishes, kept, State.afterScript]

/-- An access that is no RADD never has to wait. -/
theorem runs_accessComplete_plain {s' : State} {t' : Thread} (plain : ∀ row fmt elems, a.kind ≠ .radd row fmt elems)
    (finishes : s.finishAccess k.toNat t a p.cancelled = (s', some t')) (kept : t'.accesses = t.accesses) :
    Runs (.scriptAccessComplete k n i false) s (s'.afterScript k n i { t' with accesses := as }) :=
  runs_accessComplete here thread oldest (fun row fmt elems radd => absurd radd (plain row fmt elems)) finishes kept

end
end
end Sys2Proof.Machine

open Sys2Proof Sys2Proof.Machine

/-- Settles O28: each instruction puts its access in flight, and the oldest access in flight gives what its kind gives. -/
theorem scriptAccessesComplete : Obligations.ScriptAccessesComplete := by
  intro s k n i o p t at_
  refine ⟨fun legal => ⟨runs_scriptLd8 legal, runs_scriptSt8 legal⟩,
    fun legal => ⟨runs_scriptLdrow legal, fun _ writes fits => runs_scriptRadd legal writes fits⟩, runs_scriptProbe,
    fun a as here thread oldest => ⟨fun d s' bs kind read => ?ld8, fun w m s' bs kind read => ?ldrow,
      fun v kind => execScriptAccessComplete_st8 here thread oldest kind,
      fun row fmt elems s' bs kind going turn read => ?radd, fun d key dir salt found reads kind walk => ?probe⟩⟩
  case ld8 =>
    exact runs_accessComplete_plain here thread oldest (fun _ _ _ radd => nomatch kind.symm.trans radd)
      (State.finishAccess_ld8 kind read) rfl
  case ldrow =>
    exact runs_accessComplete_plain here thread oldest (fun _ _ _ radd => nomatch kind.symm.trans radd)
      (State.finishAccess_ldrow kind read) (Thread.setSlot_accesses _ w _)
  case radd =>
    have runs := runs_accessComplete here thread oldest (fun _ _ _ _ => turn) (State.finishAccess_radd kind going read) rfl
    exact runs
  case probe =>
    obtain ⟨z, unchanged, finishes⟩ := State.finishAccess_probe (t := t) (reset := p.cancelled) kind walk
    have runs := runs_accessComplete_plain here thread oldest (fun _ _ _ radd => nomatch kind.symm.trans radd) finishes rfl
    cases found with
    | none => exact ⟨z, unchanged, runs⟩
    | some row => exact ⟨z, unchanged, runs⟩
end

section
/-!
SUPPORT. What leaves the heath side alone, or its channels: the requests for a halt, the sending of packets, and the writes of a
stack.
-/
namespace Sys2Proof.Machine

/-! ## Counts and halts -/

@[simp] theorem State.modTile_heath (s : State) (t : Nat) (f : Tile → Tile) : (s.modTile t f).heath = s.heath := by
  unfold State.modTile
  split <;> rfl
@[simp] theorem State.modTile_egress (s : State) (t : Nat) (f : Tile → Tile) : (s.modTile t f).egress = s.egress := by
  unfold State.modTile
  split <;> rfl

@[simp] theorem State.setTally_heath (s : State) (u : TallyUnit) (n : Nat) (x : Tally) :
    (s.setTally u n x).heath = s.heath := by
  cases u with
  | tile t => exact State.modTile_heath _ _ _
  | _ => rfl
@[simp] theorem State.setTally_egress (s : State) (u : TallyUnit) (n : Nat) (x : Tally) :
    (s.setTally u n x).egress = s.egress := by
  cases u with
  | tile t => exact State.modTile_egress _ _ _
  | _ => rfl

@[simp] theorem State.count_heath (s : State) (u : TallyUnit) (event qual : BitVec 8) (n : Nat) :
    (s.count u event qual n).heath = s.heath :=
  State.count_keeps State.heath (fun s n x => s.setTally_heath u n x) s event qual n
@[simp] theorem State.count_egress (s : State) (u : TallyUnit) (event qual : BitVec 8) (n : Nat) :
    (s.count u event qual n).egress = s.egress :=
  State.count_keeps State.egress (fun s n x => s.setTally_egress u n x) s event qual n

@[simp] theorem State.linkTally_heath (s : State) (k : Nat) (event : BitVec 8) : (s.linkTally k event).heath = s.heath :=
  s.count_heath _ _ _ _
@[simp] theorem State.linkTally_egress (s : State) (k : Nat) (event : BitVec 8) :
    (s.linkTally k event).egress = s.egress :=
  s.count_egress _ _ _ _

@[simp] theorem State.requestHold_heath (s : State) (c : Cause) (cyc : Scc) : (s.requestHold c cyc).heath = s.heath := by
  obtain ⟨h, m, held, -⟩ := s.requestHold_eq c cyc
  rw [held]

@[simp] theorem State.requestHalt_heath (s : State) (rank : Nat) (source : BitVec 64) (cyc : Scc) (reason : BitVec 8)
    (subcode : BitVec 4) (detail : BitVec 32) : (s.requestHalt rank source cyc reason subcode detail).heath = s.heath := by
  simp [State.requestHalt, apply_ite State.heath, State.stopRun]

@[simp] theorem State.unitHalt_heath (s : State) (kind index : Nat) (reason : BitVec 8) (subcode : BitVec 4)
    (detail : BitVec 32) : (s.unitHalt kind index reason subcode detail).heath = s.heath := by
  unfold State.unitHalt
  split
  · exact s.requestHalt_heath _ _ _ _ _ _
  · rfl

/-! ## Packets that leave -/

theorem State.sendFlit_channels (s : State) (k : Nat) : (s.sendFlit k).heath.channels = s.heath.channels := by
  simp [State.sendFlit]

theorem State.pump_channels (s : State) (k : Nat) (fuel : Nat) : (s.pump k fuel).heath.channels = s.heath.channels := by
  induction fuel generalizing s with
  | zero => rfl
  | succ fuel ih =>
    unfold State.pump
    split
    · rw [ih, State.sendFlit_channels]
    · rfl

theorem State.leaves_channels (s : State) (o : OutPacket) : (s.leaves o).heath.channels = s.heath.channels := by
  unfold State.leaves
  split <;> rfl

theorem State.sendOn_channels (s : State) (k : Nat) (o : OutPacket) : (s.sendOn k o).heath.channels = s.heath.channels := by
  rw [State.sendOn, State.leaves_channels]
  rfl

/-- A waiting packet that leaves, or is lost, leaves the channels alone. -/
theorem State.trySend_channels {s s' : State} {o : OutPacket} (h : s.trySend o = some s') :
    s'.heath.channels = s.heath.channels := by
  unfold State.trySend at h
  split at h
  · cases h
  · cases h
    rw [State.leaves_channels]
    split
    · rfl
    · simp [State.linkDead]
  · split at h
    · cases h
      dsimp only
      split <;> exact s.sendOn_channels _ o
    · cases h

theorem State.pump_foldl_channels (s : State) (ls : SMap Link) (n : Nat) :
    (ls.foldl (fun s l => s.pump l.1 n) s).heath.channels = s.heath.channels :=
  foldl_keeps (fun z : State => z.heath.channels) (fun z l => z.pump_channels l.1 n) ls s

@[simp] theorem State.drainOut_channels (s : State) : s.drainOut.heath.channels = s.heath.channels := by
  rw [State.drainOut, State.pump_foldl_channels, foldl_keeps fun z : State => z.heath.channels]
  intro z o
  split
  · next h => exact State.trySend_channels h
  · rfl

@[simp] theorem State.queuePacket_channels (s : State) (ty : PacketType) (p : Packet) :
    (s.queuePacket ty p).heath.channels = s.heath.channels := by
  unfold State.queuePacket
  split <;> rfl

@[simp] theorem State.sendTransfer_channels (s : State) (c : Nat) (tid : BitVec 32) (ps : List (PacketType × Packet)) :
    (s.sendTransfer c tid ps).heath.channels = s.heath.channels := by
  rw [State.sendTransfer, State.drainOut_channels]
  exact foldl_keeps (fun z : State => z.heath.channels) (fun z p => z.queuePacket_channels _ _) ps s

/-- A channel reads the same where the tables of channels are the same. -/
theorem State.chan_of_channels {s t : State} (same : s.heath.channels = t.heath.channels) (c : Nat) :
    s.chan c = t.chan c := by
  rw [State.chan, same, State.chan]

/-- A transfer that starts under a given ID joins the outstanding transfers of its channel. -/
theorem State.chan_startAs (s : State) (c : Nat) (tid : BitVec 32) (t : Transfer) (ps : List (PacketType × Packet)) :
    (s.startAs c tid t ps).chan c
      = { s.chan c with transfers := (s.chan c).transfers ++ [{ t with tid := tid }] } := by
  rw [State.startAs, State.chan_of_channels (State.sendTransfer_channels _ c tid ps), State.chan_modChan, if_pos rfl]

/-! ## Writes of a stack -/

@[simp] theorem State.corrects_channels (s : State) (k c : Nat) :
    (s.corrects k c).heath.channels = s.heath.channels := by
  unfold State.corrects
  split
  · rfl
  · simp [State.modStack]

@[simp] theorem State.dramWrite_channels (s : State) (k b : Nat) (bs : List Byte) :
    (s.dramWrite k b bs).heath.channels = s.heath.channels := by
  unfold State.dramWrite
  dsimp only
  split <;> simp [State.modStack, State.writeBytes, State.eccWrite]

@[simp] theorem State.writeUnit_channels (s : State) (e : Line) (u : Nat) (bs : List Byte) :
    (s.writeUnit e u bs).heath.channels = s.heath.channels := by
  unfold State.writeUnit
  split
  · exact s.dramWrite_channels _ _ _
  · rfl

theorem State.foldl_writeUnit_channels (s : State) (e : Line) (us : List (Nat × Nat)) (data : Nat × Nat → List Byte) :
    (us.foldl (fun z u => z.writeUnit e u.1 (data u)) s).heath.channels = s.heath.channels :=
  foldl_keeps (fun z : State => z.heath.channels) (fun z u => z.writeUnit_channels e u.1 (data u)) us s

@[simp] theorem State.writeRecord_channels (s : State) (e : Line) (m : Spilled) :
    (s.writeRecord e m).heath.channels = s.heath.channels := by
  unfold State.writeRecord
  split
  · exact s.writeUnit_channels _ _ _
  · rfl

end Sys2Proof.Machine
end

section
/-!
O29, first clause: the messages of ring channels, from the sending memory port or the spill region to the ring, and the coin count.
-/
namespace Sys2Proof.Machine

/-! ## The sending memory port -/

section
variable {s : State} {chan : BitVec 14}

/-- A channel of 4,096 outstanding transfers is full. -/
theorem Channel.full_of_outstanding {ch : Channel} (many : 4096 ≤ ch.transfers.length) : ch.full = true := by
  simp [Channel.full, Channel.fullFor, many]

/-- A send waits while its channel is full. -/
theorem runs_ringMessageSend_full (full : (s.chan chan.toNat).full = true) : Runs (.ringMessageSend chan) s s := by
  change execRingMessageSend chan s = _
  cases queue : (s.chan chan.toNat).queue with
  | nil => simp [execRingMessageSend, queue]
  | cons m rest => simp [execRingMessageSend, queue, full]

variable {m : Message} {rest : List Message} (room : (s.chan chan.toNat).full = false)
  (oldest : (s.chan chan.toNat).queue = m :: rest)
include room oldest

/-- The oldest message of a ring channel is placed on its ring. -/
theorem runs_ringMessageSend_ring (ring : chanKind (s.chan chan.toNat).entry = 3) :
    Runs (.ringMessageSend chan) s
      ((s.setChan chan.toNat { s.chan chan.toNat with queue := rest }).placeMessage chan.toNat m) := by
  change execRingMessageSend chan s = _
  simp [execRingMessageSend, oldest, room, ring]

/-- The oldest message of a multicast channel is placed on its tree. -/
theorem runs_ringMessageSend_multicast (multicast : chanKind (s.chan chan.toNat).entry = 4) :
    Runs (.ringMessageSend chan) s
      ((s.setChan chan.toNat { s.chan chan.toNat with queue := rest }).placeMulticast chan.toNat m) := by
  change execRingMessageSend chan s = _
  simp [execRingMessageSend, oldest, room, multicast]

end

/-! ## A message at HEAD (R314) -/

/-- Behind earlier spilled messages a message is spilled. -/
theorem State.placeMessage_behind {s : State} {c : Nat} (behind : (s.chan c).spill ≠ []) (m : Message) :
    s.placeMessage c m = s.spillRing c m := by
  simp [State.placeMessage, behind]

/-- A message that HEAD takes is sent. -/
theorem State.placeMessage_sent {s : State} {c : Nat} {m : Message} (first : (s.chan c).spill = [])
    (takes : ((s.skipTail c m.coins none).chan c).takes m.coins = true) :
    s.placeMessage c m = (s.skipTail c m.coins none).sendMessage c m none := by
  simp [State.placeMessage, first, takes]

/-- A message whose coins are not held, or do not fit, is spilled. -/
theorem State.placeMessage_short {s : State} {c : Nat} {m : Message} (first : (s.chan c).spill = [])
    (short : ((s.skipTail c m.coins none).chan c).takes m.coins = false) :
    s.placeMessage c m = (s.skipTail c m.coins none).spillRing c m := by
  simp [State.placeMessage, first, short]

/-! ## The spill region (R319, R320) -/

/-- The record of a message that takes units `us` of its channel's region. -/
def Message.spilledIn (m : Message) (us : List Nat) (owed : BitVec 64) (tid : BitVec 32) : Spilled :=
  { tile := m.tile, ticket := m.ticket, gen := m.gen, len := m.data.length, units := us, owed := owed, tid := tid }

section
variable {s : State} {c : Nat} {m : Message}

/-- A message that finds too few free units halts the fabric. -/
theorem State.spillMessage_full (few : ((s.chan c).freeUnits (1 + m.coins)).length < 1 + m.coins) (owed : BitVec 64)
    (tid : BitVec 32) :
    s.spillMessage c m owed tid
      = s.unitHalt 5 (((s.spillPlace (s.chan c).entry 0).map Prod.fst).getD 0) 0x0A 0 (BitVec.ofNat 32 c) :=
  if_pos few

/-- A message that finds its units free is the last of the region, which counts them as used. -/
theorem State.chan_spillMessage (enough : ((s.chan c).freeUnits (1 + m.coins)).length = 1 + m.coins) (owed : BitVec 64)
    (tid : BitVec 32) :
    ((s.spillMessage c m owed tid).chan c).spill
        = (s.chan c).spill ++ [m.spilledIn ((s.chan c).freeUnits (1 + m.coins)) owed tid]
      ∧ ((s.spillMessage c m owed tid).chan c).spillu = (s.chan c).spillu + BitVec.ofNat 32 (1 + m.coins) := by
  rw [State.spillMessage, if_neg (Nat.not_lt.mpr enough.ge),
    State.chan_of_channels ((State.foldl_writeUnit_channels _ _ _ _).trans (State.writeRecord_channels _ _ _)),
    State.chan_setChan, if_pos rfl]
  exact ⟨rfl, rfl⟩

end

/-- A skip marker under a given ID leaves the entry of its channel. -/
theorem State.skipTail_entry (s : State) (c n : Nat) (tid : BitVec 32) :
    ((s.skipTail c n (some tid)).chan c).entry = (s.chan c).entry := by
  unfold State.skipTail
  dsimp only
  split
  case isFalse => rfl
  case isTrue =>
    split
    · rfl
    · rw [State.chan_startAs, State.chan_setChan, if_pos rfl]

/-- The oldest spilled message of a ring leaves when HEAD takes it, under its ID, and its units are free again. -/
theorem runs_spillDepart {s y : State} {chan : BitVec 14} {x : Spilled} {more : List Spilled} {m : Message}
    (oldest : (s.chan chan.toNat).spill = x :: more) (ring : chanKind (s.chan chan.toNat).entry = 3)
    (mapped : (s.physOf (chanDev (s.chan chan.toNat).entry)).isSome = true)
    (skips : (s.chan chan.toNat).fullFor (x.tid - 1) = false)
    (takes : ((s.skipTail chan.toNat x.coins (some (x.tid - 1))).chan chan.toNat).takes x.coins = true)
    (room : ((s.skipTail chan.toNat x.coins (some (x.tid - 1))).chan chan.toNat).fullFor x.tid = false)
    (read : (s.skipTail chan.toNat x.coins (some (x.tid - 1))).unspill (s.chan chan.toNat).entry x = (y, some m)) :
    Runs (.spillDepart chan) s
      ((y.modChan chan.toNat fun ch => ch.freed x).sendMessage chan.toNat m (some x.tid)) := by
  have known : (s.physOf (chanDev (s.chan chan.toNat).entry)).isNone = false := by
    rw [← Option.not_isSome, mapped, Bool.not_true]
  have departs : s.departRing chan.toNat
      = (y.modChan chan.toNat fun ch => ch.freed x).sendMessage chan.toNat m (some x.tid) := by
    simp only [State.departRing, oldest, known, skips, takes, room, State.skipTail_entry, read, Bool.false_eq_true, if_false,
      Bool.not_true, Bool.or_self]
  change execSpillDepart chan s = _
  simp [execSpillDepart, ring, departs]

/-! ## The coin count (R329) -/

section
variable {s : State} (due : s.countDue = true) (settled : (s.sendHalves.ringCounts.all RingCount.settled) = true)
include due settled

/-- A count that finds no difference, and no multicast message spilled, releases the hold. -/
theorem runs_coinCount_right (right : s.sendHalves.ringCounts.findSome? RingCount.wrong = none)
    (gone : (s.sendHalves.heath.channels.all fun x => !(chanKind x.2.entry = 4 && !x.2.spill.isEmpty)) = true) :
    Runs .coinCount s s.sendHalves.dropHalves.releaseCount := by
  have none_spilled : (s.sendHalves.heath.channels.findSome? fun x =>
      if chanKind x.2.entry = 4 && !x.2.spill.isEmpty then some (x.1 + 2 ^ 14) else none) = none := by
    rw [List.findSome?_eq_none_iff]
    intro x listed
    exact if_neg (by simpa only [Bool.not_eq_true', Bool.not_eq_true] using List.all_eq_true.mp gone x listed)
  change execCoinCount s = _
  simp only [execCoinCount, due, settled, right, none_spilled, Option.or_none, Bool.not_true, if_false, Bool.false_eq_true]

/-- A count that finds a difference aborts the program with it. -/
theorem runs_coinCount_wrong {d : Nat} (wrong : s.sendHalves.ringCounts.findSome? RingCount.wrong = some d) :
    Runs .coinCount s (s.sendHalves.abort 0x83 (BitVec.ofNat 32 d)) := by
  change execCoinCount s = _
  simp only [execCoinCount, due, settled, wrong, Option.some_or, Bool.not_true, if_false, Bool.false_eq_true]

end

end Sys2Proof.Machine

open Sys2Proof Sys2Proof.Machine

/-- The first clause of O29: what becomes of a message at its port, in its region, and at a coin count. -/
theorem ringsSendMessages : Clause.RingsSendMessages := by
  intro s chan
  refine ⟨fun room => ⟨fun m rest oldest ring => ?placed, fun m rest oldest => runs_ringMessageSend_multicast room oldest,
      fun x more oldest ring mapped skips takes free y m read => ?departs⟩,
    runs_ringMessageSend_full, Channel.full_of_outstanding,
    fun m owed tid => ⟨fun enough => ?spills, fun few => State.spillMessage_full few owed tid⟩,
    fun due settled => ⟨runs_coinCount_right due settled, fun d => runs_coinCount_wrong due settled⟩⟩
  case placed =>
    have runs := runs_ringMessageSend_ring room oldest ring
    refine ⟨fun behind => ?_, fun first => ⟨fun takes => ?_, fun short => ?_⟩⟩
    · exact runs.trans (congrArg _ (State.placeMessage_behind behind m))
    · exact runs.trans (congrArg _ (State.placeMessage_sent first takes))
    · exact runs.trans (congrArg _ (State.placeMessage_short first short))
  case departs => exact runs_spillDepart oldest ring mapped skips takes free read
  case spills =>
    obtain ⟨last, used⟩ := State.chan_spillMessage enough owed tid
    exact ⟨_, last, rfl, rfl, rfl, rfl, used⟩
end

section
/-!
O29, second clause: flits that arrive in sequence and out of it, and those that are resent.
-/
namespace Sys2Proof.Machine

/-! ## A flit that arrives (R355) -/

/-- The link has noted whether the flit came with the FEC in lock, and since when it has not. -/
def State.noteFec (s : State) (n : Nat) (x : Flit) : State :=
  s.modLink n fun y => { y with
    fecLostSince := if x.fecLock then none else some ((s.link n).fecLostSince.getD s.clk.clk) }

/-- The flits of a link that the flit does not acknowledge. -/
def Link.unacked (l : Link) (x : Flit) : List SentFlit := l.retry.filter fun f => !seqBefore f.seq x.ackseq

/-- The packets that the flit completes, by TYPE, and the bytes of the one that it does not. -/
def Link.readFlit (l : Link) (x : Flit) : List (Nat × Packet) × List Byte :=
  let bs := l.rx ++ bytesOf x.body.toNat 248
  readStream (bs.length + 1) bs

/-- The link has accepted the flit: its acknowledgement, its credits and its bytes. -/
def State.acceptFlit (s : State) (n : Nat) (x : Flit) : State :=
  let l := s.link n
  (s.noteFec n x).modLink n fun y => { y with
    rxseq := y.rxseq + 1, retry := l.unacked x, rx := (l.readFlit x).2
    oldestSince := if (l.unacked x).length < l.retry.length then s.clk.clk else y.oldestSince
    credits := Sparse.set 0 y.credits x.cvc.toNat (min 128 (Sparse.get 0 l.credits x.cvc.toNat + x.ccnt.toNat)) }

section
variable {s : State} {n : Nat} {x : Flit}

/-- A good flit in sequence is accepted, and answered where it carries a NAK for flits that it does not acknowledge. -/
theorem State.takeFlit_accepted (good : x.ok = true) (next : x.seq = (s.link n).rxseq) :
    s.takeFlit n x = ((if x.nak && !((s.link n).unacked x).isEmpty then (s.acceptFlit n x).resend n
      else s.acceptFlit n x).drainOut, ((s.link n).readFlit x).1) := by
  have taken : (!x.ok || x.seq != (s.link n).rxseq) = false := by simp [good, next]
  simp only [State.takeFlit, taken]
  rfl

/-- A good flit out of sequence is dropped, and a NAK is due. -/
theorem State.takeFlit_outOfOrder (good : x.ok = true) (other : x.seq ≠ (s.link n).rxseq) :
    s.takeFlit n x = (((s.noteFec n x).modLink n fun y => { y with nakDue := true }).drainOut, []) := by
  simp [State.takeFlit, good, other, State.noteFec]

/-- A bad flit is dropped and counted, and a NAK is due. -/
theorem State.takeFlit_bad (bad : x.ok = false) :
    s.takeFlit n x
      = ((((s.noteFec n x).linkTally n 0x72).modLink n fun y => { y with nakDue := true }).drainOut, []) := by
  simp [State.takeFlit, bad, State.noteFec]

end

section
variable {s : State} {k : BitVec 5} (present : linkIn s.grade k.toNat = true)
include present

/-- A link that trains or is up takes the flit, then the packets that it completes and the messages that they complete. -/
theorem runs_flitReceive {x : Flit} {z : State} {ps : List (Nat × Packet)}
    (clocked : (s.island (linkDomain k.toNat)).lost = false)
    (hears : (s.link k.toNat).st = 2 ∨ (s.link k.toNat).st = 3 ∨ (s.link k.toNat).st = 4)
    (taken : s.takeFlit k.toNat x = (z, ps)) :
    Runs (.flitReceive k x) s (ps.foldl (fun z p => z.takePacket k p.1 p.2) z).readInbox := by
  have listens : (decide ((s.link k.toNat).st = 2) || decide ((s.link k.toNat).st = 3)
      || decide ((s.link k.toNat).st = 4)) = true := by
    simpa only [Bool.or_eq_true, decide_eq_true_eq, or_assoc] using hears
  change execFlitReceive k x s = _
  simp only [execFlitReceive, present, listens, clocked, taken, Bool.not_true, Bool.or_self, Bool.false_eq_true, if_false]

/-- A flit that has waited 600 ns for its acknowledgement is resent with all behind it. -/
theorem runs_retryTimeout (flows : (s.link k.toNat).flows = true) (unacked : (s.link k.toNat).retry ≠ [])
    (late : (s.link k.toNat).oldestSince + 600 * nsUnits ≤ s.clk.clk) : Runs (.retryTimeout k) s (s.resend k.toNat) := by
  change execRetryTimeout k s = _
  simp [execRetryTimeout, present, flows, unacked, State.passed, late]

/-- A link that is up goes down 1 µs after it lost the FEC lock, or after eight resends. -/
theorem runs_linkDown {fecLost : Bool} (up : (s.link k.toNat).st = 3)
    (lost : fecLost = true → ∃ c, (s.link k.toNat).fecLostSince = some c ∧ c + usUnits ≤ s.clk.clk)
    (resent : fecLost = false → ((s.link k.toNat).retry.any fun f => 8 ≤ f.resends) = true) :
    Runs (.linkDown k fecLost) s ((s.linkTally k.toNat 0x75).linkFails k.toNat 4) := by
  change execLinkDown k fecLost s = _
  cases fecLost with
  | true =>
    obtain ⟨c, since, late⟩ := lost rfl
    simp [execLinkDown, present, up, since, State.passed, late]
  | false => simpa [execLinkDown, present, up] using fun never => absurd (resent rfl) (by simpa using never)

end

/-! ## Flits that are resent -/

/-- A flit of a retry buffer as it leaves again: with the SEQ that the link expects now, and a NAK that is due on the first. -/
def Link.resent (l : Link) (k : Nat) (f : SentFlit) : Output :=
  .flit (BitVec.ofNat 5 k)
    (flitBits f.body (flitCtl f.seq l.rxseq (l.nakDue && l.retry.head? = some f) f.cvc f.ccnt))

/-- A flit leaves link `k` and is counted. -/
def State.sendAgain (s : State) (l : Link) (k : Nat) (f : SentFlit) : State :=
  (s.emit (l.resent k f)).count (.link (BitVec.ofNat 5 k)) 0x70 f.vc 1

/-- The retry buffer of link `n` is marked as resent. -/
def State.markResent (s : State) (n : Nat) : State :=
  let l := s.link n
  s.setLink n { l with
    retry := l.retry.map fun f => { f with resends := f.resends + 1 }, oldestSince := s.clk.clk
    nakDue := l.nakDue && l.retry.isEmpty }

/-- A resend marks the buffer and sends its flits, one after another. -/
theorem State.resend_eq (s : State) (n : Nat) :
    s.resend n = (s.link n).retry.foldl (fun z f => z.sendAgain (s.link n) n f) ((s.markResent n).linkTally n 0x71) := rfl

@[simp] theorem State.sendAgain_heath (s : State) (l : Link) (k : Nat) (f : SentFlit) :
    (s.sendAgain l k f).heath = s.heath :=
  State.count_heath _ _ _ _ _

@[simp] theorem State.sendAgain_egress (s : State) (l : Link) (k : Nat) (f : SentFlit) :
    (s.sendAgain l k f).egress = s.egress ++ [l.resent k f] :=
  State.count_egress _ _ _ _ _

/-- A run of flits that leave adds them to the output, in order. -/
theorem State.foldl_sendAgain_egress (l : Link) (k : Nat) (fs : List SentFlit) (s : State) :
    (fs.foldl (fun z f => z.sendAgain l k f) s).egress = s.egress ++ fs.map (l.resent k) := by
  induction fs generalizing s with
  | nil => exact (List.append_nil _).symm
  | cons f fs ih => rw [List.foldl_cons, ih, State.sendAgain_egress, List.map_cons, List.append_assoc, List.singleton_append]

/-- Every buffered flit leaves again, in order. -/
theorem State.resend_egress (s : State) (n : Nat) :
    (s.resend n).egress = s.egress ++ (s.link n).retry.map ((s.link n).resent n) := by
  rw [State.resend_eq, State.foldl_sendAgain_egress, State.linkTally_egress]
  rfl

/-- Every buffered flit has been resent once more. -/
theorem State.resend_retry (s : State) (n : Nat) :
    ((s.resend n).link n).retry = (s.link n).retry.map fun f => { f with resends := f.resends + 1 } := by
  have kept : (s.resend n).heath = (s.markResent n).heath := by
    rw [State.resend_eq, foldl_keeps State.heath fun z f => z.sendAgain_heath (s.link n) n f, State.linkTally_heath]
  rw [State.link, kept]
  exact congrArg Link.retry ((State.link_setLink s n n _).trans (if_pos rfl))

end Sys2Proof.Machine

open Sys2Proof Sys2Proof.Machine

/-- The second clause of O29: a flit that arrives, a flit that is not acknowledged, and a link that goes down. -/
theorem flitsKeepTheirOrder : Clause.FlitsKeepTheirOrder := by
  intro s k present clocked
  refine ⟨fun x hears => ⟨fun good next => ⟨fun quiet => ?quiet, fun nak unacked => ?nak⟩, fun good other => ?other,
      fun bad => ?bad⟩,
    runs_retryTimeout present, fun up fecLost => runs_linkDown present up, s.resend_egress k.toNat, s.resend_retry k.toNat⟩
  case quiet =>
    have plain : ¬ (x.nak && !((s.link k.toNat).unacked x).isEmpty) = true := by
      rcases quiet with silent | acked
      · simp [silent]
      · simp [Link.unacked, acked]
    exact runs_flitReceive present clocked hears ((State.takeFlit_accepted good next).trans (by rw [if_neg plain]; rfl))
  case nak =>
    have answered : (x.nak && !((s.link k.toNat).unacked x).isEmpty) = true := by
      simpa [nak, Link.unacked] using unacked
    exact runs_flitReceive present clocked hears ((State.takeFlit_accepted good next).trans (by rw [if_pos answered]; rfl))
  case other => exact runs_flitReceive present clocked hears (State.takeFlit_outOfOrder good other)
  case bad => exact runs_flitReceive present clocked hears (State.takeFlit_bad bad)

/-- Settles O29: the rings, and then the links. -/
theorem ringsAndLinksCarryFlits : Obligations.RingsAndLinksCarryFlits := ⟨ringsSendMessages, flitsKeepTheirOrder⟩
end

section
/-!
O32, first clause: a packet that arrives on a link is taken, dropped, or forwarded.
-/
namespace Sys2Proof.Machine

/-! ## Packets for this device (R365) -/

/-- A link that is present and up hears packets. -/
theorem State.linkHears_of_up {s : State} {n : Nat} (present : linkIn s.grade n = true) (up : (s.link n).st = 3) :
    s.linkHears n = true := by
  simp [State.linkHears, present, up]

section
variable {s : State} {k : BitVec 5} {ty : PacketType} {p : Packet} (hears : s.linkHears k.toNat = true)
include hears

/-- A packet for this device from a device with a logical number leaves its buffer and is delivered. -/
theorem State.receive_delivers (single : ty ≠ .mcast) (own : p.dst = s.heath.id)
    (known : (s.logicalOf p.src).isSome = true) :
    s.receive k ty p = (s.took k.toNat ty p).deliver (some k.toNat) ty p := by
  have named : (s.logicalOf p.src).isNone = false := by rw [← Option.not_isSome, known, Bool.not_true]
  simp [State.receive, hears, own, named, single]

/-- A packet for this device from a device without a logical number leaves its buffer and is counted. -/
theorem State.receive_drops (own : p.dst = s.heath.id) (unknown : s.logicalOf p.src = none) :
    s.receive k ty p = (s.took k.toNat ty p).linkTally k.toNat 0x73 := by
  simp [State.receive, hears, own, unknown]

/-- A multicast packet from a device with a logical number is split here, whatever its destination. -/
theorem State.receive_mcast (known : (s.logicalOf p.src).isSome = true) :
    s.receive k .mcast p = s.takeMcast (some k.toNat) p := by
  have named : (s.logicalOf p.src).isNone = false := by rw [← Option.not_isSome, known, Bool.not_true]
  simp [State.receive, hears, named, State.deliver]

/-! ## Packets for another device (R359, R369, R370) -/

/-- A packet for another device that finds room in its buffer is forwarded. -/
theorem runs_packetForward (other : p.dst ≠ s.heath.id) (routed : p.dst ≠ 0xFFF) (core : s.coreLost k.toNat = false)
    (room : s.buffered k.toNat (packetVc ty p) + packetCredits ty p ≤ 128) :
    Runs (.packetForward k ty p) s (s.forward k.toNat ty p) := by
  change execPacketForward k ty p s = _
  simp only [execPacketForward, hears, other, routed, core, Nat.not_lt.mpr room, Bool.not_true, decide_false, Bool.or_self,
    Bool.false_eq_true, if_false]

end

/-- Below the hop limit a packet waits in its buffer for an output link, one hop further. -/
theorem State.forward_below {s : State} {k : BitVec 5} {p : Packet} (below : p.hops ≠ 15) (ty : PacketType) :
    s.forward k.toNat ty p = ((s.linkTally k.toNat 0x74).queueOut
      { ty := ty, packet := { p with hops := p.hops + 1 }, pinned := none, input := some k
        back := packetCredits ty p }).drainOut := by
  rw [State.forward, if_neg below, BitVec.ofNat_toNat, BitVec.setWidth_eq]

/-- At the hop limit a packet leaves its buffer and is refused with its coins; the refusal of a packet that begins no transfer is
marked with what it was. -/
theorem State.forward_atLimit {s : State} {n : Nat} {ty : PacketType} {p : Packet} (limit : p.hops = 15)
    (single : ty ≠ .mcast) :
    s.forward n ty p = (s.took n ty p).send .refuse { Packet.blank with
      dst := p.src, chan := p.chan, tid := p.tid, till := 4, value := BitVec.ofNat 32 (packetCoins ty p)
      addr := if ty = .write ∨ ty = .readReq ∨ ty = .ring ∨ ty = .signal then 0
        else BitVec.ofNat 48 (answerMark ty p) } := by
  rw [State.forward, if_pos limit, State.hopLimit, if_neg single]
  by_cases begins : ty = .write ∨ ty = .readReq ∨ ty = .ring ∨ ty = .signal
  · rw [if_pos (by simpa [or_assoc] using begins), if_pos begins]
    rfl
  · rw [if_neg (by simpa [or_assoc] using begins), if_neg begins]
    rfl

section
variable {z : State} {o : OutPacket} {k : BitVec 5} {j : Nat} (arrived : o.input = some k) (free : o.pinned = none)
  (path : z.firstPath o.packet.dst = some j) (near : z.coreLost k.toNat = false) (far : z.coreLost j = false)
include arrived free path near far

/-- A packet that is forwarded takes the first path that is up. -/
theorem State.pathOf_forwarded : z.pathOf o = .on j none := by
  simp [State.pathOf, free, arrived, path, near, far]

/-- A packet that is forwarded leaves once its path has the credits for it. -/
theorem State.trySend_forwarded (takes : z.linkTakes j o.ty o.packet = true) : z.trySend o = some (z.sendOn j o) := by
  simp only [State.trySend, State.pathOf_forwarded arrived free path near far, takes, if_true]

/-- A packet that is forwarded waits while its path lacks the credits for it. -/
theorem State.trySend_waits (short : z.linkTakes j o.ty o.packet = false) : z.trySend o = none := by
  simp only [State.trySend, State.pathOf_forwarded arrived free path near far, short, Bool.false_eq_true, if_false]

end

end Sys2Proof.Machine

open Sys2Proof Sys2Proof.Machine

/-- The first clause of O32: packets for this device, for another, and those that wait for a path. -/
theorem packetsAreTaken : Clause.PacketsAreTaken := by
  intro s k p present up
  have hears := State.linkHears_of_up present up
  refine ⟨fun own known => ?taken, fun known => congrArg Host.Outcome.next (State.receive_mcast hears known),
    fun own unknown => ?dropped, fun ty other routed core room => ?forwarded,
    fun z o j arrived free path near far =>
      ⟨State.trySend_forwarded arrived free path near far, State.trySend_waits arrived free path near far⟩⟩
  case taken =>
    have delivered {ty : PacketType} (single : ty ≠ .mcast) :
        (.next (s.receive k ty p) : Answer) = .next ((s.took k.toNat ty p).deliver (some k.toNat) ty p) :=
      congrArg _ (State.receive_delivers hears single own known)
    exact ⟨delivered nofun, delivered nofun, delivered nofun, delivered nofun, delivered nofun, delivered nofun,
      delivered nofun, delivered nofun⟩
  case dropped =>
    exact ⟨congrArg Host.Outcome.next (State.receive_drops hears own unknown),
      congrArg Host.Outcome.next (State.receive_drops hears own unknown)⟩
  case forwarded =>
    have runs := runs_packetForward hears other routed core room
    exact ⟨fun limit single => runs.trans (congrArg _ (State.forward_atLimit limit single)),
      fun below => runs.trans (congrArg _ (State.forward_below below ty))⟩
end

section
/-!
O32, second clause: what packets do at the device that they are for.
-/
namespace Sys2Proof.Machine

/-! ## A packet of a transfer (R310) -/

section
variable {s : State} {w : Flow} {p : Packet} (f : State → State)

/-- A packet of a transfer that completed as refused is discarded. -/
theorem State.once_refused (refused : w.tid ∈ (s.recv w.key).refused) : s.once w p f = s := by
  simp [State.once, refused]

/-- A packet of a transfer that is complete is acknowledged and discarded. -/
theorem State.once_complete (complete : (s.recv w.key).has w.tid = true) (taken : w.tid ∉ (s.recv w.key).refused) :
    s.once w p f = s.send .ack { Packet.blank with
      dst := w.src, chan := w.chan, tid := w.tid, addr := w.member.setWidth 48 } := by
  simp [State.once, taken, complete]

/-- A packet of an open transfer that has not come before is taken. -/
theorem State.once_first (incomplete : (s.recv w.key).has w.tid = false) (taken : w.tid ∉ (s.recv w.key).refused)
    (new : (((s.openPart w).partOf w).any fun q => q.seen.contains p.addr) = false) :
    s.once w p f = f (s.openPart w) := by
  simp only [State.once, List.contains_iff_mem, taken, incomplete, new, Bool.false_eq_true, if_false]

end

/-- The record of a transfer leaves the grade. -/
theorem State.openPart_grade (s : State) (w : Flow) : (s.openPart w).grade = s.grade := by
  unfold State.openPart
  dsimp only
  split <;> rfl

/-! ## Signals, reads and writes (R324, R361) -/

/-- A signal waits while an earlier transfer of its channel is incomplete. -/
theorem State.applySignal_waits {s : State} {w : Flow} (later : w.tid ≠ (s.recv w.key).oldest) : s.applySignal w = s := by
  unfold State.applySignal
  split
  · split
    · simp [later]
    · rfl
  · rfl

/-- Bytes for a stack are written there at once. -/
theorem State.asyncWrite_dram {s : State} {a k b : Nat} {bs : List Byte} (nonempty : bs ≠ [])
    (first : place s.grade true a = .dram k b)
    (last : place s.grade true (a + bs.length - 1) = .dram k (b + bs.length - 1)) (agent : Nat) (gen : Option (BitVec 2))
    (spec : Bool) (owner : UOwner) : s.asyncWrite a bs agent gen spec owner = (s.dramWrite k b bs, none, 0) := by
  simp [State.asyncWrite, nonempty, first, last]

/-- The flow of a packet that is no multicast copy. -/
def Packet.flow (p : Packet) : Flow := { src := p.src, chan := p.chan, member := 0, tid := p.tid }

theorem Packet.flow_eq (p : Packet) : ({ src := p.src, chan := p.chan, member := 0, tid := p.tid } : Flow) = Packet.flow p :=
  rfl

/-- What the record of its transfer does with a packet of any kind it does with a SIGNAL, a READ_REQ and a WRITE. -/
theorem State.take_of_once {s x : State} {p : Packet} (all : ∀ f, s.once (Packet.flow p) p f = x) :
    s.takeSignal p = x ∧ s.takeReadReq p = x ∧ ∀ hedge, s.takeWrite hedge p = x := by
  unfold State.takeSignal State.takeReadReq State.takeWrite
  exact ⟨all _, all _, fun hedge => all _⟩

section
variable {s : State} {p : Packet} (incomplete : (s.recv (Packet.flow p).key).has p.tid = false)
  (taken : p.tid ∉ (s.recv (Packet.flow p).key).refused)
  (new : (((s.openPart (Packet.flow p)).partOf (Packet.flow p)).any fun q => q.seen.contains p.addr) = false)
include incomplete taken new

/-- A SIGNAL enters the record of its transfer, and is applied if it is its turn. -/
theorem State.takeSignal_first :
    s.takeSignal p = ((s.openPart (Packet.flow p)).modPart (Packet.flow p) fun q =>
      { q with seen := [p.addr], total := some 0, sig := some (p.till, p.value) }).applySignal (Packet.flow p) := by
  unfold State.takeSignal
  exact State.once_first _ incomplete taken new

/-- A READ_REQ of a stack is answered with the bytes there. -/
theorem State.takeReadReq_dram {k b : Nat} {x : State} {bs : List Byte} (first : place s.grade true p.addr.toNat = .dram k b)
    (last : place s.grade true (p.addr.toNat + readLen p - 1) = .dram k (b + readLen p - 1))
    (read : (s.openPart (Packet.flow p)).dramRead k b (readLen p) = (x, some bs)) :
    s.takeReadReq p = x.reply (Packet.flow p) p.addr.toNat bs := by
  rw [← s.openPart_grade (Packet.flow p)] at first last
  unfold State.takeReadReq
  refine (State.once_first _ incomplete taken new).trans ?_
  simp only [Packet.flow_eq, first, last, read, decide_true, Bool.and_self, Bool.not_true, Bool.false_eq_true, if_false]

/-- The last WRITE of a transfer to a stack, outside the windows, stores its bytes, and the length of the transfer is known. -/
theorem State.takeWrite_dram {k b : Nat} {q : Partial} (ends : p.last = true)
    (part : (s.openPart (Packet.flow p)).partOf (Packet.flow p) = some q) (nonempty : p.data ≠ [])
    (outside : (s.openPart (Packet.flow p)).windowHit p.addr.toNat p.data.length = .out)
    (first : place s.grade true p.addr.toNat = .dram k b)
    (last : place s.grade true (p.addr.toNat + p.data.length - 1) = .dram k (b + p.data.length - 1)) :
    s.takeWrite true p = ((s.openPart (Packet.flow p)).dramWrite k b p.data).notePacket (Packet.flow p) p none 0
      (some (q.got + p.data.length)) none := by
  rw [← s.openPart_grade (Packet.flow p)] at first last
  unfold State.takeWrite
  refine (State.once_first _ incomplete taken new).trans ?_
  simp only [Packet.flow_eq, ends, part, outside, if_true, State.asyncWrite_dram nonempty first last]

end

/-! ## Returns of a ring (R317, R318) -/

/-- The channel with one return in wait. -/
def Channel.awaiting (ch : Channel) (n v : BitVec 32) : Channel := { ch with retWait := [(n, v)] }

/-- The channel with its next return in HELD and RETIN. -/
def Channel.returned (ch : Channel) (v : BitVec 32) : Channel :=
  { ch with retNext := ch.retNext + 1, held := ch.held + BitVec.ofNat 24 v.toNat, retin := ch.retin + v }

section
variable {s : State} {p : Packet}

/-- A return for a channel that is no ring is a coin fault. -/
theorem State.takeReturn_noRing (other : chanKind (s.chan p.chan.toNat).entry ≠ 3) (link : Option Nat) :
    s.takeReturn link p = s.coinFault (portOf link).1 (portOf link).2 p.chan := by
  simp [State.takeReturn, other]

/-- A return that has been taken before is discarded. -/
theorem State.takeReturn_old (ring : chanKind (s.chan p.chan.toNat).entry = 3)
    (old : (p.tid - (s.chan p.chan.toNat).retNext).msb = true) (link : Option Nat) : s.takeReturn link p = s := by
  simp [State.takeReturn, ring, old]

/-- A new return of a ring on which none waits is taken if it is the next. -/
theorem State.takeReturn_new (ring : chanKind (s.chan p.chan.toNat).entry = 3)
    (new : (p.tid - (s.chan p.chan.toNat).retNext).msb = false) (alone : (s.chan p.chan.toNat).retWait = [])
    (link : Option Nat) :
    s.takeReturn link p = (s.setChan p.chan.toNat ((s.chan p.chan.toNat).awaiting p.tid p.value)).applyReturns link
      p.chan.toNat 1 := by
  simp [State.takeReturn, ring, new, alone, Channel.awaiting]

end

section
variable {s : State} {c : Nat} {ch : Channel} {n v : BitVec 32}

/-- A return whose turn has not come waits. -/
theorem State.applyReturns_early (early : n ≠ ch.retNext) (link : Option Nat) (fuel : Nat) :
    (s.setChan c (ch.awaiting n v)).applyReturns link c fuel = s.setChan c (ch.awaiting n v) := by
  cases fuel with
  | zero => rfl
  | succ fuel => simp [State.applyReturns, Channel.awaiting, early]

/-- The return whose turn it is reaches HELD, as far as the ring has coins. -/
theorem State.applyReturns_due (next : n = ch.retNext) (alone : ch.retWait = [])
    (fits : ch.held.toNat + v.toNat ≤ chanRcoins ch.entry) (link : Option Nat) :
    (s.setChan c (ch.awaiting n v)).applyReturns link c 1
      = (s.setChan c (ch.awaiting n v)).setChan c (ch.returned v) := by
  simp [State.applyReturns, Channel.awaiting, Channel.returned, next, Nat.not_lt.mpr fits, ← alone]

/-- A return of more coins than the ring has is a coin fault. -/
theorem State.applyReturns_excess (next : n = ch.retNext) (excess : chanRcoins ch.entry < ch.held.toNat + v.toNat)
    (link : Option Nat) :
    (s.setChan c (ch.awaiting n v)).applyReturns link c 1
      = ((s.setChan c (ch.awaiting n v)).setChan c { ch with retNext := ch.retNext + 1, retWait := [] }).coinFault
        (portOf link).1 (portOf link).2 (BitVec.ofNat 14 c) := by
  simp [State.applyReturns, Channel.awaiting, next, excess]

end

/-! ## What a halt request does to the fabric -/

@[simp] theorem State.count_steward_fab (s : State) (event qual : BitVec 8) (n : Nat) :
    (s.count .steward event qual n).fab = s.fab :=
  State.count_keeps State.fab (fun _ _ _ => rfl) s event qual n

/-- The fabric with a request for a hold: it joins a hold that is announced or in effect, else the hold is announced, or in effect
at once where no schedule cycle runs. -/
def Fabric.askHold (f : Fabric) (c : Cause) (clk : Nat) (begun : Bool) (cyc : Scc) : Fabric :=
  let h := f.hold.mark c clk
  { f with hold :=
      if f.hold.held || f.hold.stopAt.isSome then h
      else if begun then { h with stopAt := some (cyc + 24) }
      else { h with held := true, stoppedAt := clk, stopAt := some f.scc } }

/-- The fabric as a halt leaves it: once it stands, no tile runs. -/
def Fabric.halted (f : Fabric) : Fabric :=
  if f.hold.held then
    { f with tiles := Sparse.mapD {} (fun (x : Tile) => { x with seq := { x.seq with run := false } }) f.tiles }
  else f

theorem State.requestHold_fab (s : State) (c : Cause) (cyc : Scc) :
    (s.requestHold c cyc).fab = s.fab.askHold c s.clk.clk s.begun cyc := by
  unfold State.requestHold Fabric.askHold
  dsimp only
  split
  · rfl
  · exact State.count_steward_fab _ _ _ _

/-- A halt request enters the record, asks for a hold, and stops the tiles of a fabric that stands. -/
theorem State.requestHalt_fab (s : State) (rank : Nat) (source : BitVec 64) (cyc : Scc) (reason : BitVec 8)
    (subcode : BitVec 4) (detail : BitVec 32) :
    let at_ := if s.fab.hold.held then s.fab.scc else cyc
    let recorded := { s.fab with haltRec := s.fab.haltRec.take rank source at_ reason subcode detail }
    (s.requestHalt rank source cyc reason subcode detail).fab
      = (recorded.askHold .halt s.clk.clk s.begun at_).halted := by
  intro at_ recorded
  have held := (s.recordHalt rank source at_ reason subcode detail).requestHold_fab .halt at_
  unfold State.requestHalt Fabric.halted
  rw [apply_ite State.fab]
  exact held ▸ rfl

/-- The same of a halt request of a unit, while a program is armed. -/
theorem State.unitHalt_fab (s : State) (kind index : Nat) (reason : BitVec 8) (subcode : BitVec 4) (detail : BitVec 32) :
    let recorded := { s.fab with
      haltRec := s.fab.haltRec.take (768 + kind) (unitSource kind index) s.fab.scc reason subcode detail }
    (s.unitHalt kind index reason subcode detail).fab =
      if s.stew.program.armed then (recorded.askHold .halt s.clk.clk s.begun s.fab.scc).halted else s.fab := by
  intro recorded
  rw [State.unitHalt, apply_ite State.fab, State.requestHalt_fab, ite_self]

/-- A change of a channel does not change what a coin fault does to the fabric. -/
theorem State.coinFault_setChan_fab (s : State) (c : Nat) (x : Channel) (kind index : Nat) (chan : BitVec 14) :
    ((s.setChan c x).coinFault kind index chan).fab = (s.coinFault kind index chan).fab :=
  (State.unitHalt_fab _ _ _ _ _ _).trans (s.unitHalt_fab _ _ _ _ _).symm

end Sys2Proof.Machine

open Sys2Proof Sys2Proof.Machine

/-- The second clause of O32: the packets of transfers, and the returns of rings. -/
theorem packetsAct : Clause.PacketsAct := by
  intro s p w ch n
  refine ⟨fun complete taken => ?complete, fun refused => ?refused, fun incomplete taken new => ⟨⟨?signal, ?applied, ?later⟩,
      fun k b x bs first last read => State.takeReadReq_dram incomplete taken new first last read,
      fun k b q ends part nonempty outside first last =>
        State.takeWrite_dram incomplete taken new ends part nonempty outside first last⟩,
    fun link ring => ⟨fun next alone fits => ?next, fun early new alone => ?early, fun old => State.takeReturn_old ring old link,
      fun next alone excess => ?excess⟩,
    fun link other => State.takeReturn_noRing other link⟩
  case complete => exact State.take_of_once fun f => State.once_complete f complete taken
  case refused => exact State.take_of_once fun f => State.once_refused f refused
  case signal => exact State.takeSignal_first incomplete taken new
  case applied =>
    intro q here waits good sig total oldest
    exact State.applySignal_eq here sig total (Nat.zero_le _) waits good oldest
  case later => exact State.applySignal_waits
  case next =>
    have new : (p.tid - ch.retNext).msb = false := by simp [next]
    have given := (State.takeReturn_new ring new alone link).trans (State.applyReturns_due next alone fits link)
    rw [given]
    refine ⟨⟨rfl, rfl, rfl⟩, (State.chan_setChan _ _ _ _).trans ((if_pos rfl).trans ?_)⟩
    simp [Channel.returned, ch, n]
  case early =>
    have waits := (State.takeReturn_new ring new alone link).trans (State.applyReturns_early early link 1)
    rw [waits]
    exact ⟨⟨rfl, rfl, rfl⟩, (State.chan_setChan _ _ _ _).trans (if_pos rfl)⟩
  case excess =>
    have new : (p.tid - ch.retNext).msb = false := by simp [next]
    have fault := (State.takeReturn_new ring new alone link).trans (State.applyReturns_excess next excess link)
    rw [fault, BitVec.ofNat_toNat, BitVec.setWidth_eq]
    rw [State.coinFault_setChan_fab, State.coinFault_setChan_fab]

/-- Settles O32: the packets on their way, and what they do. -/
theorem packetsTravel : Obligations.PacketsTravel := ⟨packetsAreTaken, packetsAct⟩
end

section
/-!
O33, first clause: the training of a link, the comparison of what has completed, and the halves and ends of rings.
-/
namespace Sys2Proof.Machine

/-! ## Link training (R351, R462, R482) -/

/-- A proof holds when both nonces are known, its chain verifies to this ROOT, its owner is this device's, and its signature under
the chain's leaf is over the two nonces and the owner. -/
theorem State.proofHolds_iff {s : State} {k : Nat} {owner : BitVec 256} {chain : Chain} {g : Signature} :
    s.proofHolds k owner chain g = true ↔ ∃ mine peer, (s.link k).myNonce = some mine ∧ (s.link k).peerNonce = some peer
      ∧ chain.root = rootDigest ∧ owner = s.ownerDigest ∧ g.key = chain.leaf ∧ g.context = ascii "SG4-LINK"
      ∧ g.bytes = bytesOf mine.toNat 32 ++ bytesOf peer.toNat 32 ++ bytesOf owner.toNat 32 := by
  cases mine : (s.link k).myNonce with
  | none => simp [State.proofHolds, mine]
  | some a =>
    cases peer : (s.link k).peerNonce with
    | none => simp [State.proofHolds, peer]
    | some b => simp [State.proofHolds, mine, peer, verifies, and_assoc]

/-- The link with its peer proved, as it comes up. -/
def State.linkProved (s : State) (k : Nat) : State := (s.modLink k fun l => { l with peerOk := true }).linkComesUp k

theorem State.linkProved_eq (s : State) (k : Nat) :
    (s.modLink k fun l => { l with peerOk := true }).linkComesUp k = s.linkProved k := rfl

/-- A peer that was declared dead, as it is told that it is expelled. -/
def State.tellExpelled (s : State) (link : BitVec 5) (peer : BitVec 12) (d : BitVec 12 × BitVec 12) (img : BitVec 256) :
    State :=
  s.sendControl peer (some link) 4 (bytesOf d.2.toNat 2 ++ bytesOf img.toNat 32)

section
variable {s : State} {c : Control}

/-- The nonce of the peer is kept, and the proof over both nonces leaves once it can. -/
theorem runs_linkNonce (training : s.inTraining c.link.toNat = true) (nonce : BitVec 256) :
    Runs (.linkNonce c nonce) s
      ((s.modLink c.link.toNat fun l => { l with peerNonce := some nonce }).proveLink c.link.toNat) :=
  congrArg Host.Outcome.next (if_pos training)

section
variable {owner : BitVec 256} {chain : Chain} {g : Signature}

/-- A proof that does not hold changes nothing. -/
theorem runs_linkProof_bad (bad : ¬ s.proofHolds c.link.toNat owner chain g = true) :
    Runs (.linkProof c owner chain g) s s := by
  change execLinkProof c owner chain g s = _
  simp [execLinkProof, bad]

variable (training : s.inTraining c.link.toNat = true) (serving : s.stew.state ≠ 8)
  (holds : s.proofHolds c.link.toNat owner chain g = true)
include training serving holds

/-- Nothing stands against the proof. -/
theorem State.linkProof_taken :
    (s.inTraining c.link.toNat && s.proofHolds c.link.toNat owner chain g && s.stew.state != 8) = true := by
  rw [training, holds, bne_iff_ne.mpr serving]
  rfl

/-- The link to a peer that proved itself comes up. -/
theorem runs_linkProof_living (living : ((s.linkProved c.link.toNat).surv.dead.find? fun d =>
      d.1 = (s.link c.link.toNat).peer) = none) :
    Runs (.linkProof c owner chain g) s (s.linkProved c.link.toNat) := by
  change execLinkProof c owner chain g s = _
  simp only [execLinkProof, State.linkProof_taken training serving holds, if_true, State.linkProved_eq, living]

section
variable {d : BitVec 12 × BitVec 12} {img : BitVec 256}
  (dead : ((s.linkProved c.link.toNat).surv.dead.find? fun d => d.1 = (s.link c.link.toNat).peer) = some d)
  (image : (s.linkProved c.link.toNat).stew.program.digest = some img)
include dead image

/-- A peer that was declared dead, and has its number still, is told so. -/
theorem runs_linkProof_expelled
    (still : ((s.linkProved c.link.toNat).tellExpelled c.link (s.link c.link.toNat).peer d img).physOf d.2 = some d.1) :
    Runs (.linkProof c owner chain g) s
      ((s.linkProved c.link.toNat).tellExpelled c.link (s.link c.link.toNat).peer d img) := by
  change execLinkProof c owner chain g s = _
  rw [State.tellExpelled] at still ⊢
  simp only [execLinkProof, State.linkProof_taken training serving holds, if_true, State.linkProved_eq, dead, image, still]

/-- A peer that was declared dead, and whose number is another's, is told so and counts among the living again. -/
theorem runs_linkProof_returned {told : State}
    (tells : (s.linkProved c.link.toNat).tellExpelled c.link (s.link c.link.toNat).peer d img = told)
    (moved : told.physOf d.2 ≠ some d.1) :
    Runs (.linkProof c owner chain g) s
      { told with surv := { told.surv with dead := told.surv.dead.filter fun e => e != d } } := by
  change execLinkProof c owner chain g s = _
  subst tells
  rw [State.tellExpelled] at moved ⊢
  simp only [execLinkProof, State.linkProof_taken training serving holds, if_true, State.linkProved_eq, dead, image, moved,
    if_false]

end

end

end

/-! ## What has completed (R326) -/

/-- A comparison names a channel by its number. -/
theorem setWidth_transfers (chan : BitVec 14) : (chan.setWidth 16 : BitVec 16).setWidth 14 = chan := by
  simp

theorem msb_transfers (chan : BitVec 14) : (chan.setWidth 16 : BitVec 16).msb = false := by
  simp [BitVec.msb_setWidth]

/-- With bit 15 set it names the returns of the channel. -/
theorem setWidth_returns (chan : BitVec 14) : (chan.setWidth 16 ||| 0x8000 : BitVec 16).setWidth 14 = chan := by
  rw [BitVec.setWidth_or, setWidth_transfers]
  exact BitVec.or_zero

theorem msb_returns (chan : BitVec 14) : (chan.setWidth 16 ||| 0x8000 : BitVec 16).msb = true := by
  rw [BitVec.msb_or]
  exact Bool.or_true _

/-- The IDs of a question that are marked in its answer. -/
def marksOf (first : BitVec 32) (count : BitVec 13) (f : BitVec 32 → Bool) : Nat :=
  ((List.range (min 4096 count.toNat)).map fun j => if f (first + BitVec.ofNat 32 j) then 2 ^ j else 0).sum

/-- The answer to a question. -/
def State.answerAsk (s : State) (src : BitVec 12) (name : BitVec 16) (first : BitVec 32) (bits : Nat) (coins : BitVec 32) :
    State :=
  s.sendControl src none 11 (bytesOf name.toNat 2 ++ bytesOf first.toNat 4 ++ bytesOf bits 512 ++ bytesOf coins.toNat 4)

section
variable (s : State) (c : Control) (chan : BitVec 14) (first returned : BitVec 32) (count : BitVec 13) (done : BitVec 4096)

/-- A question for transfers is answered with those that have completed here and the coins returned. -/
theorem runs_reconcileAsk_transfers :
    Runs (.reconcileAsk c (chan.setWidth 16) first count) s (s.answerAsk c.src (chan.setWidth 16) first
      (marksOf first count (s.hasCompleted c.src chan))
      (match (s.logicalOf c.src).bind fun l => s.ringOf l chan with | some (_, _, e) => e.retout | none => 0)) := by
  change execReconcileAsk c (chan.setWidth 16) first count s = _
  simp only [execReconcileAsk, msb_transfers, setWidth_transfers]
  rfl

/-- A question for returns is answered with those that have come here. -/
theorem runs_reconcileAsk_returns :
    Runs (.reconcileAsk c (chan.setWidth 16 ||| 0x8000) first count) s (s.answerAsk c.src (chan.setWidth 16 ||| 0x8000) first
      (marksOf first count (s.hasReturn c.src chan)) (s.chan chan.toNat).retin) := by
  change execReconcileAsk c (chan.setWidth 16 ||| 0x8000) first count s = _
  simp only [execReconcileAsk, msb_returns, setWidth_returns]
  rfl

/-- An answer about returns drops those that have come, and what waited for it goes on. -/
theorem runs_reconcileAnswer_returns :
    Runs (.reconcileAnswer c (chan.setWidth 16 ||| 0x8000) first done returned) s
      ((s.dropAnswered c.src (chan.setWidth 16 ||| 0x8000) first done).reconciled c.src (chan.setWidth 16 ||| 0x8000)) := by
  change execReconcileAnswer c (chan.setWidth 16 ||| 0x8000) first done returned s = _
  simp only [execReconcileAnswer, msb_returns]
  rfl

/-- An answer about transfers first ends those that it shows complete. -/
theorem runs_reconcileAnswer_transfers {ended : List Transfer}
    (all : ((s.chan chan.toNat).transfers.filter fun t => answered first done t.tid) = ended) :
    Runs (.reconcileAnswer c (chan.setWidth 16) first done returned) s
      (((ended.foldl (fun z t => z.endAnswered c.src chan t) s).dropAnswered c.src (chan.setWidth 16) first done).reconciled
        c.src (chan.setWidth 16)) := by
  change execReconcileAnswer c (chan.setWidth 16) first done returned s = _
  simp only [execReconcileAnswer, msb_transfers, setWidth_transfers, all]
  rfl

end

/-- A transfer of a tile whose petty transfer is a PPUT is no read. -/
theorem State.isRead_put {s : State} {t : Transfer} (block : t.block = none)
    (put : ∀ u n p, t.tile = some (u, n) → s.pettyOf u.toNat n = some p → p.put = true) : s.isRead t = false := by
  rw [State.isRead, block]
  cases tile : t.tile with
  | none => rfl
  | some x =>
    obtain ⟨u, n⟩ := x
    cases here : s.pettyOf u.toNat n with
    | none => simp [here]
    | some p => simp [here, put u n p tile here]

/-- A transfer of a channel of one receiver that an answer shows complete ends as its acknowledgement would end it. -/
theorem State.endAnswered_single {s : State} {src : BitVec 12} {chan : BitVec 14} {t : Transfer}
    (peer : s.physOf (chanDev (s.chan chan.toNat).entry) = some src) (single : chanKind (s.chan chan.toNat).entry ≠ 4)
    (write : s.isRead t = false) :
    s.endAnswered src chan t = s.takeAck { Packet.blank with src := src, chan := chan, tid := t.tid } := by
  simp [State.endAnswered, write, single, peer]

/-- A transfer of a channel of one receiver has completed here where the record of its source has it. -/
theorem State.hasCompleted_single {s : State} {chan : BitVec 14} (single : chanKind (s.chan chan.toNat).entry ≠ 4)
    (src : BitVec 12) (tid : BitVec 32) : s.hasCompleted src chan tid = (s.recv (recvKey src chan 0)).has tid := by
  simp [State.hasCompleted, single]

/-! ## Halves and ends of rings (R308, R329) -/

section
variable {s : State} {c : Control} {chan : BitVec 14} {die : BitVec 2} {index : BitVec 10} {l : BitVec 12}
  (known : s.logicalOf c.src = some l)
include known

/-- The half of the ring end joins the channel that feeds it. -/
theorem runs_coinHalf_ringEnd (ring : chanKind (s.chan chan.toNat).entry = 3)
    (dev : chanDev (s.chan chan.toNat).entry = l) (empty : Bool) (coins returned : BitVec 32) :
    Runs (.coinHalf c chan die index true empty coins returned) s
      (s.setChan chan.toNat { s.chan chan.toNat with half := some (empty, coins, returned) }) := by
  change execCoinHalf c chan die index true empty coins returned s = _
  simp [execCoinHalf, known, ring, dev]

/-- The half of the sender joins the ring end. -/
theorem runs_coinHalf_sender (configured : rendCoins (s.ringEnd die.toNat index.toNat).entry ≠ 0)
    (dev : rendDev (s.ringEnd die.toNat index.toNat).entry = l)
    (feeds : rendChan (s.ringEnd die.toNat index.toNat).entry = chan) (empty : Bool) (coins returned : BitVec 32) :
    Runs (.coinHalf c chan die index false empty coins returned) s (s.setRingEnd die.toNat index.toNat
      { s.ringEnd die.toNat index.toNat with half := some (empty, coins, returned) }) := by
  change execCoinHalf c chan die index false empty coins returned s = _
  simp [execCoinHalf, known, configured, dev, feeds]

end

section
variable {s : State} (c : Control) (chan : BitVec 14) (die : BitVec 2) (index : BitVec 10) (rcoins : BitVec 32)
  (matching : Bool)

/-- The answer to a check of a ring end. -/
def State.answerCheck (s : State) (ok : Bool) : State :=
  s.sendControl c.src none 12 (bytesOf chan.toNat 2 ++ bytesOf (die.toNat * 1024 + index.toNat) 2
    ++ bytesOf rcoins.toNat 4 ++ [BitVec.ofNat 8 ok.toNat, 1])

/-- An answer changes nothing. -/
theorem runs_ringEndCheck_answer : Runs (.ringEndCheck c chan die index rcoins matching true) s s := rfl

/-- A question that names the ring end and its coins restarts a ring end with nothing lodged, and is answered with yes. -/
theorem runs_ringEndCheck_restarts (coined : rcoins ≠ 0)
    (dev : s.logicalOf c.src = some (rendDev (s.ringEnd die.toNat index.toNat).entry))
    (feeds : rendChan (s.ringEnd die.toNat index.toNat).entry = chan)
    (coins : rendCoins (s.ringEnd die.toNat index.toNat).entry = rcoins.toNat)
    (empty : (s.ringEnd die.toNat index.toNat).lodged = 0) :
    Runs (.ringEndCheck c chan die index rcoins matching false) s
      ((s.setRingEnd die.toNat index.toNat { entry := (s.ringEnd die.toNat index.toNat).entry }).answerCheck c chan die index
        rcoins true) := by
  have asks : (rcoins != 0) = true := bne_iff_ne.mpr coined
  change execRingEndCheck c chan die index rcoins matching false s = _
  simp only [execRingEndCheck, asks, if_neg coined, dev, feeds, coins, State.restartRing, empty, State.answerCheck,
    Bool.false_eq_true, if_false, if_true, decide_true, Bool.and_self]

/-- A question of the ring end is answered with whether the channel is open. -/
theorem runs_ringEndCheck_open (zero : rcoins = 0) :
    Runs (.ringEndCheck c chan die index rcoins matching false) s
      (s.answerCheck c chan die index rcoins (chanKind (s.chan chan.toNat).entry != 0)) := by
  change execRingEndCheck c chan die index rcoins matching false s = _
  simp [execRingEndCheck, zero, State.answerCheck]

end

end Sys2Proof.Machine

open Sys2Proof Sys2Proof.Machine

/-- The first clause of O33, message by message. -/
theorem stewardsAgreeOnLinks : Clause.StewardsAgreeOnLinks := by
  intro s c k
  refine ⟨fun training => ⟨runs_linkNonce training, fun mine peer leaf my known serving => ?proved⟩,
    fun owner chain g fails => ?unproved,
    fun chan first returned count done => ⟨runs_reconcileAsk_transfers s c chan first count,
      runs_reconcileAsk_returns s c chan first count, runs_reconcileAnswer_returns s c chan first returned done,
      fun nothing => ?none, fun peer single t one block put => ?one⟩,
    fun src chan tid single => State.hasCompleted_single single src tid,
    fun chan die index coins rcoins returned empty l known =>
      ⟨fun ring dev => runs_coinHalf_ringEnd known ring dev empty coins returned,
        fun configured dev feeds => runs_coinHalf_sender known configured dev feeds empty coins returned,
        fun m => ⟨runs_ringEndCheck_answer c chan die index rcoins m, runs_ringEndCheck_restarts c chan die index rcoins m,
          runs_ringEndCheck_open c chan die index rcoins m⟩⟩⟩
  case proved =>
    intro proof z
    have holds : s.proofHolds k s.ownerDigest { root := rootDigest, leaf := leaf } proof = true :=
      State.proofHolds_iff.mpr ⟨mine, peer, my, known, rfl, rfl, rfl, rfl, rfl⟩
    refine ⟨runs_linkProof_living training serving holds, fun d dead img image => ?_⟩
    exact ⟨runs_linkProof_expelled training serving holds dead image,
      runs_linkProof_returned training serving holds dead image rfl⟩
  case unproved =>
    refine runs_linkProof_bad fun holds => ?_
    obtain ⟨mine, peer, my, known, root, same, key, context, bytes⟩ := State.proofHolds_iff.mp holds
    rcases fails with h | h | h | h | h
    · exact h same
    · exact h root
    · exact h key
    · exact h context
    · exact h mine peer my known bytes
  case none => exact runs_reconcileAnswer_transfers s c chan first returned done nothing
  case one =>
    have runs := runs_reconcileAnswer_transfers s c chan first returned done one
    rwa [List.foldl_cons, List.foldl_nil, State.endAnswered_single peer single (State.isRead_put block put)] at runs
end

section
/-!
O33, second clause: deaths that this device declares or hears of, and its own.
-/
namespace Sys2Proof.Machine

/-! ## A silent neighbour (R481) -/

/-- A death is told to every other device of the program. -/
def State.tellDeath (s : State) (l : BitVec 12) (data : List Byte) : State :=
  s.devices.foldl (fun z d => if d = z.logical || d = l then z
    else match z.physOf d with | some p => z.sendControl p none 3 data | none => z) s

section
variable {s : State} {phys : BitVec 12} (shared : (s.neighbourLinks.filter fun k => (s.link k).peer = phys) ≠ [])
  (silent : (s.neighbourLinks.filter fun k => (s.link k).peer = phys).all s.silent = true)
  (new : (s.surv.dead.any fun d => d.1 = phys) = false)
include shared silent new

/-- Nothing stands against the declaration. -/
theorem State.declares_of_silent :
    ((s.neighbourLinks.filter fun k => (s.link k).peer = phys).isEmpty
      || !((s.neighbourLinks.filter fun k => (s.link k).peer = phys).all s.silent)
      || s.surv.dead.any fun d => d.1 = phys) = false := by
  rw [silent, new, List.isEmpty_eq_false_iff.mpr shared]
  rfl

/-- The death of a device of the program is told to the others, and takes effect here. -/
theorem runs_deathDeclaration_member {img : BitVec 256} {l : BitVec 12} {s' : State}
    (counted : s.count .steward 0xA9 0 1 = s') (image : s'.stew.program.digest = some img)
    (number : s'.logicalOf phys = some l) (listed : s'.devices.contains l = true) :
    let told := s'.tellDeath l
      (bytesOf phys.toNat 2 ++ bytesOf l.toNat 2 ++ bytesOf img.toNat 32 ++ bytesOf s'.now.toNat 8)
    Runs (.deathDeclaration phys) s (told.peerDies phys l told.now) := by
  change execDeathDeclaration phys s = _
  simp only [execDeathDeclaration, State.declares_of_silent shared silent new, counted, image, number, listed,
    Bool.false_eq_true, if_false, Bool.not_true]
  rfl

/-- Without a program the death is noted. -/
theorem runs_deathDeclaration_idle {s' : State} (counted : s.count .steward 0xA9 0 1 = s')
    (idle : s'.stew.program.digest = none) :
    Runs (.deathDeclaration phys) s { s' with surv := { s'.surv with dead := s'.surv.dead ++ [(phys, 0)] } } := by
  change execDeathDeclaration phys s = _
  simp only [execDeathDeclaration, State.declares_of_silent shared silent new, counted, idle, Bool.false_eq_true, if_false]

end

/-! ## Deaths that others declare (R482, R497) -/

section
variable {s : State} {image : BitVec 256} (program : s.stew.program.digest = some image)
include program

/-- The death of a device of this program takes effect here. -/
theorem runs_death (c : Control) (phys logical : BitVec 12) (time : BitVec 64) :
    Runs (.death c phys logical image time) s (s.peerDies phys logical time) :=
  congrArg Host.Outcome.next (if_pos program)

/-- A device that was declared dead asks for the reset that ends its program. -/
theorem runs_expelled {logical : BitVec 12} (own : s.logical = logical) (c : Control) :
    Runs (.expelled c logical image) s (s.askReset .expelled) := by
  change execExpelled c logical image s = _
  simp [execExpelled, program, own]

end

/-- A reset that is asked for is made at once when the tickets are ended, and also where a loss of the reference makes them
wait. -/
theorem State.tryReset_of_ended {s : State} {cause : ResetCause} (asked : s.stew.resetAsked = some cause)
    (ended : s.endTickets.ticketsEnded = true) : ∃ z : State, s.tryReset = z.programReset.afterReset cause := by
  unfold State.tryReset
  rw [asked]
  dsimp only
  cases (s.island 92).lost || (s.island 95).lost with
  | true => exact ⟨s, by simp only [Bool.true_or, if_true]⟩
  | false => exact ⟨s.endTickets, by simp only [Bool.false_or, Bool.false_eq_true, if_false, ended, if_true]⟩

/-- Once its tickets are ended an expelled device is in no program and under no plan. -/
theorem State.askReset_expelled {s : State}
    (ended : { s with stew := { s.stew with resetAsked := some .expelled } }.endTickets.ticketsEnded = true) :
    (s.askReset .expelled).stew.program = {} ∧ (s.askReset .expelled).surv.plan = none
      ∧ (s.askReset .expelled).surv.partnerPlan = none ∧ (s.askReset .expelled).surv.recovering = false := by
  obtain ⟨z, reset⟩ := State.tryReset_of_ended rfl ended
  rw [State.askReset, reset]
  exact ⟨rfl, rfl, rfl, rfl⟩

/-- A device that no neighbour has been heard by aborts its own program. -/
theorem runs_isolation {s : State} (neighbours : s.neighbourLinks ≠ []) (silent : s.neighbourLinks.all s.silent = true)
    (going : s.stew.program.aborted = false) : Runs .isolation s (s.abort 0x87 s.logical.toNat) := by
  have alone : (!s.neighbourLinks.isEmpty && s.neighbourLinks.all s.silent && !s.stew.program.aborted) = true := by
    rw [silent, going, List.isEmpty_eq_false_iff.mpr neighbours]
    rfl
  exact congrArg Host.Outcome.next (if_pos alone)

end Sys2Proof.Machine

open Sys2Proof Sys2Proof.Machine

/-- The second clause of O33: a silent neighbour, a death that is told, and the device's own expulsion and isolation. -/
theorem deathsAreDeclared : Clause.DeathsAreDeclared := by
  refine fun s => ⟨fun phys shared silent new => ⟨fun img l image number listed => ?_, fun idle => ?_⟩,
    fun c phys logical image time program => ⟨runs_death program c phys logical time, fun own ended => ?_⟩, runs_isolation⟩
  · exact runs_deathDeclaration_member shared silent new rfl image number listed
  · exact runs_deathDeclaration_idle shared silent new rfl idle
  · exact ⟨_, runs_expelled program own c, State.askReset_expelled ended⟩

/-- Settles O33: the links, and then the deaths. -/
theorem stewardsAgree : Obligations.StewardsAgree := ⟨stewardsAgreeOnLinks, deathsAreDeclared⟩
end

section
/-!
O18: what the swap leaves of a member's escrow and of its slice, and the releases that follow a commit.
-/
namespace Sys2Proof.Machine

/-- At the end of E + 4 a member that committed in cycle E holds no operation. -/
theorem Tile.planReleases_held {x : Tile} {e : Scc} (committed : x.esc.committed = true)
    (resolved : x.esc.resolvedAt = some e) : (x.planReleases (e + 4)).esc.held = [] := by
  cases none_held : x.esc.held with
  | nil => simp [Tile.planReleases, none_held]
  | cons h hs => simp [Tile.planReleases, committed, resolved, none_held]

/-- The k-th operation that a member held at its commit in cycle E takes the release cycle E + 5 + k (R339). -/
theorem Tile.mem_planReleases {x : Tile} {e : Scc} {k : Nat} {h : Scc × Posted} (committed : x.esc.committed = true)
    (resolved : x.esc.resolvedAt = some e) (kth : x.esc.held[k]? = some h) :
    (e + 5 + BitVec.ofNat 48 k, h.2) ∈ (x.planReleases (e + 4)).esc.releasing := by
  have placed : (h, k) ∈ x.esc.held.zipIdx := List.mk_mem_zipIdx_iff_getElem?.mpr kth
  have some_held : x.esc.held ≠ [] := List.ne_nil_of_mem (List.mem_of_getElem? kth)
  have after : e + 4 + 1 = e + 5 := BitVec.add_assoc e 4 1
  have planned : (x.planReleases (e + 4)).esc.releasing =
      x.esc.releasing ++ x.esc.held.zipIdx.map fun h => (e + 4 + 1 + BitVec.ofNat 48 h.2, h.1.2) := by
    simp [Tile.planReleases, committed, resolved, some_held]
  rw [planned, ← after]
  exact List.mem_append_right _ (List.mem_map_of_mem placed)

/-- After the swap no line of the slice is redirected and no escrow line reserved. -/
theorem State.swapTile_esc (s : State) (t : Nat) :
    ((s.swapTile t).tile t).esc.redirects = [] ∧ ((s.swapTile t).tile t).esc.reserved = [] := by
  rw [State.swapTile, State.tile_modTile, if_pos rfl]
  exact ⟨rfl, rfl⟩

/-- A copied line is stored whole. -/
@[simp] theorem State.copyPadLine_mem (s : State) (t src dst : Nat) :
    (s.copyPadLine t src dst).mem = Mem.setLine s.mem (padAddr t (64 * dst)) (s.padLine t src) :=
  State.modTile_mem _ _ _

/-- The swap of one redirection gives the home line the contents of its escrow line (R233). -/
theorem State.swapTile_padLine {s : State} {t home line : Nat} (only : (s.tile t).esc.redirects = [(home, line)]) :
    (s.swapTile t).padLine t home = s.padLine t line := by
  have copied : (s.swapTile t).mem = (s.copyPadLine t line home).mem := by
    rw [State.swapTile, State.modTile_mem, only, List.foldl_cons, List.foldl_nil]
  rw [State.padLine, copied, State.copyPadLine_mem, Mem.line_setLine_self]

/-- In a running cycle the slices of the members that committed four cycles before are swapped. -/
theorem runs_escrowSwap {s : State} {f : BitVec 4} {row : BitVec 3} (g : BitVec 4) (run : s.running = true)
    (present : fieldIn s.grade f.toNat = true) (inside : row.toNat < 6) :
    Runs (.escrowSwap f row g) s
      ((s.groupTiles (linear f.toNat row.toNat 0) g).foldl (fun s t =>
        if (s.tile t).esc.group = g && (s.tile t).esc.committed && (s.tile t).esc.resolvedAt = some (s.fab.scc - 4) then
          s.swapTile t else s) s) := by
  change execEscrowSwap f row g s = _
  simp only [execEscrowSwap, run, present, Nat.not_le.mpr inside, Bool.not_true, Bool.or_self, decide_false,
    Bool.false_eq_true, if_false]

/-- The held operation whose release cycle it is sets out. -/
theorem runs_heldOperationRelease {s : State} {t : TileNo} {r : Scc × Posted} (run : s.running = true)
    (due : ((s.tile t.toNat).esc.releasing.find? fun r => r.1 = s.fab.scc) = some r) :
    Runs (.heldOperationRelease t) s ((s.modTile t.toNat fun x => { x with
      esc := { x.esc with releasing := x.esc.releasing.erase r } }).releaseOp t.toNat r.2) := by
  change execHeldOperationRelease t s = _
  simp only [execHeldOperationRelease, run, due, Bool.not_true, Bool.false_eq_true, if_false]

/-- The captured word that its track owes the cycle is driven there with the stamp of the cycle, in either direction (R340). -/
theorem runs_capturedWordRelease {s : State} {t : TileNo} {track : BitVec 6} {r : Scc × BitVec 6 × Line} (west : Bool)
    (run : s.running = true)
    (due : ((if west then (s.tile t.toNat).esc.relWest else (s.tile t.toNat).esc.relEast).find? fun r =>
      r.1 = s.fab.scc && r.2.1 = track) = some r) :
    Runs (.capturedWordRelease t west track) s (s.modTile t.toNat fun x => { x with
      esc := if west then { x.esc with relWest := x.esc.relWest.erase r }
             else { x.esc with relEast := x.esc.relEast.erase r }
      drives := x.drives ++ [(trackKey west track,
        { data := r.2.2, stamp := s.fab.scc.setWidth 3, set := s.setInForce t.toNat })] }) := by
  change execCapturedWordRelease t west track s = _
  simp only [execCapturedWordRelease, run, due, Bool.not_true, Bool.false_eq_true, if_false]

end Sys2Proof.Machine

open Sys2Proof Sys2Proof.Machine

/-- Settles O18: the release cycles, the swap of one slice and of the group, and the two kinds of release. -/
theorem escrowReleasesComplete : Obligations.EscrowReleasesComplete := by
  intro s t run now driven
  obtain ⟨redirects, reserved⟩ := s.swapTile_esc t.toNat
  exact ⟨fun x e k h committed resolved kth =>
      ⟨Tile.planReleases_held committed resolved, Tile.mem_planReleases committed resolved kth⟩,
    redirects, reserved, fun home line only => State.swapTile_padLine only,
    fun f row g present inside => runs_escrowSwap g run present inside,
    fun r due => runs_heldOperationRelease run due,
    fun track r due => runs_capturedWordRelease false run due,
    fun track r due => runs_capturedWordRelease true run due⟩
end

section
/-!
O30: the fields of a flit, the header of a packet as one number, and the bytes behind it.
-/
namespace Sys2Proof.Machine

/-! ## Flits (R352) -/

section
variable (body : BitVec 1984) (ctl : BitVec 32)

/-- Below its CRC a flit holds its BODY and its control word. -/
theorem flitBits_low : (flitBits body ctl).extractLsb' 0 2016 = ctl ++ body := BitVec.extractLsb'_append_eq_right

/-- The CRC of a flit is that of the bytes below it. -/
theorem flitBits_crc : (flitBits body ctl).extractLsb' 2016 32 = crc32 (bytesOf (ctl ++ body).toNat 252) :=
  BitVec.extractLsb'_append_eq_left

theorem flitBits_body : (flitBits body ctl).extractLsb' 0 1984 = body := by
  rw [flitBits, BitVec.extractLsb'_append_eq_of_add_le (by omega), BitVec.extractLsb'_append_eq_right]

/-- The fields of the control word stand above the BODY. -/
theorem flitBits_control {off len : Nat} (inside : off + len ≤ 32) :
    (flitBits body ctl).extractLsb' (1984 + off) len = ctl.extractLsb' off len := by
  rw [flitBits, BitVec.extractLsb'_append_eq_of_add_le (by omega), BitVec.extractLsb'_append_eq_of_le (by omega),
    Nat.add_sub_cancel_left]

theorem flitBits_controlBit {i : Nat} (inside : i < 32) : (flitBits body ctl).getLsbD (1984 + i) = ctl.getLsbD i := by
  rw [flitBits, BitVec.getLsbD_append, if_pos (by omega), BitVec.getLsbD_append, if_neg (by omega), Nat.add_sub_cancel_left]

end

section
variable (seq ack : BitVec 12) (nak : Bool) (cvc : BitVec 3) (ccnt : BitVec 4)

theorem flitCtl_seq : (flitCtl seq ack nak cvc ccnt).extractLsb' 0 12 = seq :=
  (BitVec.extractLsb'_append_eq_of_add_le (by decide)).trans <| (BitVec.extractLsb'_append_eq_of_add_le (by decide)).trans <|
    (BitVec.extractLsb'_append_eq_of_add_le (by decide)).trans BitVec.extractLsb'_append_eq_right

theorem flitCtl_ack : (flitCtl seq ack nak cvc ccnt).extractLsb' 12 12 = ack :=
  (BitVec.extractLsb'_append_eq_of_add_le (by decide)).trans <| (BitVec.extractLsb'_append_eq_of_add_le (by decide)).trans <|
    (BitVec.extractLsb'_append_eq_of_add_le (by decide)).trans BitVec.extractLsb'_append_eq_left

theorem flitCtl_nak : (flitCtl seq ack nak cvc ccnt).getLsbD 24 = nak :=
  (BitVec.getLsbD_append (i := 24)).trans <| (BitVec.getLsbD_append (i := 24)).trans <|
    (BitVec.getLsbD_append (i := 24)).trans (BitVec.getLsbD_ofBool nak 0)

theorem flitCtl_cvc : (flitCtl seq ack nak cvc ccnt).extractLsb' 25 3 = cvc :=
  (BitVec.extractLsb'_append_eq_of_add_le (by decide)).trans BitVec.extractLsb'_append_eq_left

theorem flitCtl_ccnt : (flitCtl seq ack nak cvc ccnt).extractLsb' 28 4 = ccnt := BitVec.extractLsb'_append_eq_left

end

/-! ## Numbers from bytes -/

theorem natOf_bytesOf (n k : Nat) : natOf (bytesOf n k) = n % 256 ^ k := by
  induction k generalizing n with
  | zero => simp [bytesOf, natOf, Nat.mod_one]
  | succ k ih =>
    rw [bytesOf, natOf, ih, BitVec.toNat_ofNat, Nat.pow_succ' (m := 256), Nat.mod_mul]

/-- A string of bytes that begins with those of a number gives the number back. -/
theorem natOf_take_bytesOf {n k : Nat} (fits : n < 256 ^ k) (rest : List Byte) :
    natOf ((bytesOf n k ++ rest).take k) = n := by
  rw [List.take_left' (bytesOf_length n k), natOf_bytesOf, Nat.mod_eq_of_lt fits]

/-! ## The header of a packet (R360) -/

theorem typeCode_lt (ty : PacketType) : typeCode ty < 16 := by cases ty <;> decide

theorem typeCode_eq_mcast {ty : PacketType} : typeCode ty = 9 ↔ ty = .mcast := by cases ty <;> decide

theorem extractLsb'_ofNat_eq {w off len h : Nat} {x : BitVec len} (fits : h < 2 ^ w) (field : h / 2 ^ off % 2 ^ len = x.toNat) :
    (BitVec.ofNat w h).extractLsb' off len = x := by
  apply BitVec.eq_of_toNat_eq
  rw [BitVec.extractLsb'_toNat, BitVec.toNat_ofNat, Nat.mod_eq_of_lt fits, Nat.shiftRight_eq_div_pow, field]

theorem getLsbD_ofNat_eq {w i h : Nat} {b : Bool} (fits : h < 2 ^ w) (bit : h / 2 ^ i % 2 = b.toNat) :
    (BitVec.ofNat w h).getLsbD i = b := by
  rw [BitVec.getLsbD, BitVec.toNat_ofNat, Nat.mod_eq_of_lt fits, Nat.testBit_eq_decide_div_mod_eq, bit]
  cases b <;> rfl

section
variable {ty : PacketType} {p : Packet} (short : p.data.length ≤ 256)
include short

/-- The header fits its 24 bytes, and each field stands at its place in it. -/
theorem packetHeader_fields :
    let h := packetHeader ty p
    h < 2 ^ 192 ∧ h / 2 ^ 0 % 2 ^ 4 = typeCode ty ∧ h / 2 ^ 4 % 2 ^ 3 = (packetVc ty p).toNat ∧ h / 2 ^ 7 % 2 = p.last.toNat
      ∧ h / 2 ^ 8 % 2 ^ 12 = p.dst.toNat ∧ h / 2 ^ 20 % 2 ^ 12 = p.src.toNat ∧ h / 2 ^ 32 % 2 ^ 14 = p.chan.toNat
      ∧ h / 2 ^ 46 % 2 = p.sig.toNat ∧ h / 2 ^ 48 % 2 ^ 4 = p.hops.toNat ∧ h / 2 ^ 52 % 2 ^ 9 = p.data.length
      ∧ h / 2 ^ 64 % 2 ^ 32 = p.tid.toNat ∧ h / 2 ^ 96 % 2 ^ 48 = p.addr.toNat ∧ h / 2 ^ 144 % 2 ^ 15 = p.till.toNat
      ∧ h / 2 ^ 160 % 2 ^ 32 = p.value.toNat := by
  have type_lt := typeCode_lt ty
  have vc_lt := (packetVc ty p).isLt
  have last_le := p.last.toNat_le
  have dst_lt := p.dst.isLt
  have src_lt := p.src.isLt
  have chan_lt := p.chan.isLt
  have sig_le := p.sig.toNat_le
  have hops_lt := p.hops.isLt
  have tid_lt := p.tid.isLt
  have addr_lt := p.addr.isLt
  have till_lt := p.till.isLt
  have value_lt := p.value.isLt
  unfold packetHeader
  refine ⟨?_, ?_, ?_, ?_, ?_, ?_, ?_, ?_, ?_, ?_, ?_, ?_, ?_, ?_⟩ <;> omega

theorem packetHeader_type : (BitVec.ofNat 192 (packetHeader ty p)).extractLsb' 0 4 = BitVec.ofNat 4 (typeCode ty) := by
  obtain ⟨fits, type, -⟩ := packetHeader_fields (ty := ty) short
  exact extractLsb'_ofNat_eq fits (type.trans (Nat.mod_eq_of_lt (typeCode_lt ty)).symm)

theorem packetHeader_length :
    (BitVec.ofNat 192 (packetHeader ty p)).extractLsb' 52 9 = BitVec.ofNat 9 p.data.length := by
  obtain ⟨fits, -, -, -, -, -, -, -, -, length, -⟩ := packetHeader_fields (ty := ty) short
  exact extractLsb'_ofNat_eq fits (length.trans (Nat.mod_eq_of_lt (by omega)).symm)

/-- The packet that a header begins has the fields that went into it. -/
theorem headerPacket_packetHeader (vc : p.vc = packetVc ty p) :
    headerPacket (BitVec.ofNat 192 (packetHeader ty p)) = { p with data := [], mask := 0, coins := [], gen := none } := by
  obtain ⟨fits, -, hvc, last, dst, src, chan, sig, hops, -, tid, addr, till, value⟩ := packetHeader_fields (ty := ty) short
  rw [headerPacket, Packet.blank, extractLsb'_ofNat_eq fits hvc, getLsbD_ofNat_eq fits last, extractLsb'_ofNat_eq fits dst,
    extractLsb'_ofNat_eq fits src, extractLsb'_ofNat_eq fits chan, getLsbD_ofNat_eq fits sig, extractLsb'_ofNat_eq fits hops,
    extractLsb'_ofNat_eq fits tid, extractLsb'_ofNat_eq fits addr, extractLsb'_ofNat_eq fits till,
    extractLsb'_ofNat_eq fits value, ← vc]

end

/-! ## The bytes behind the header (R362) -/

/-- The members' coins in the extension of a MCAST packet. -/
def coinBytes (coins : List (BitVec 32)) : List Byte := coins.flatMap fun c => bytesOf (c.toNat % 2 ^ 24) 4

/-- What stands between a packet's header and its data. -/
def packetExt (ty : PacketType) (p : Packet) : List Byte :=
  if ty = .mcast then bytesOf p.mask.toNat 8 ++ coinBytes p.coins else []

theorem packetBytes_eq (ty : PacketType) (p : Packet) :
    packetBytes ty p = bytesOf (packetHeader ty p) 24 ++ packetExt ty p ++ p.data := rfl

theorem coinBytes_cons (c : BitVec 32) (cs : List (BitVec 32)) :
    coinBytes (c :: cs) = bytesOf (c.toNat % 2 ^ 24) 4 ++ coinBytes cs := List.flatMap_cons

theorem coinBytes_length (cs : List (BitVec 32)) : (coinBytes cs).length = 4 * cs.length := by
  induction cs with
  | nil => rfl
  | cons c cs ih =>
    rw [coinBytes_cons, List.length_append, bytesOf_length, ih, List.length_cons, Nat.mul_succ, Nat.add_comm]

/-- The coins read back, four bytes each, whatever follows them. -/
theorem coins_of_coinBytes {cs : List (BitVec 32)} (small : ∀ c ∈ cs, c.toNat < 2 ^ 24) (rest : List Byte) :
    ((List.range cs.length).map fun i => BitVec.ofNat 32 (natOf (((coinBytes cs ++ rest).drop (4 * i)).take 4))) = cs := by
  induction cs with
  | nil => rfl
  | cons c cs ih =>
    obtain ⟨first, others⟩ := List.forall_mem_cons.mp small
    rw [List.length_cons, List.range_succ_eq_map, List.map_cons, List.map_map, coinBytes_cons, List.append_assoc]
    congr 1
    · rw [Nat.mul_zero, List.drop_zero, natOf_take_bytesOf (by omega), Nat.mod_eq_of_lt first, BitVec.ofNat_toNat,
        BitVec.setWidth_eq]
    · conv_rhs => rw [← ih others]
      refine List.map_congr_left fun i _ => ?_
      rw [Function.comp_apply, Nat.mul_succ, Nat.add_comm, ← List.drop_drop, List.drop_left' (bytesOf_length _ _)]

/-! ## Reading a packet -/

section
variable {ty : PacketType} {p : Packet} (members : p.coins.length = (maskMembers p.mask).length) (rest : List Byte)

/-- The mask that stands behind the header of a MCAST packet; 0 for any other. -/
theorem mask_of_packetExt (plain : ty ≠ .mcast → p.mask = 0) :
    (if typeCode ty = 9 then BitVec.ofNat 64 (natOf ((packetExt ty p ++ rest).take 8)) else 0) = p.mask := by
  by_cases multicast : ty = .mcast
  · rw [if_pos (typeCode_eq_mcast.mpr multicast), packetExt, if_pos multicast, List.append_assoc,
      natOf_take_bytesOf p.mask.isLt, BitVec.ofNat_toNat, BitVec.setWidth_eq]
  · rw [if_neg (mt typeCode_eq_mcast.mp multicast), plain multicast]

include members

theorem packetExt_length :
    (packetExt ty p).length = if typeCode ty = 9 then 8 + 4 * (maskMembers p.mask).length else 0 := by
  by_cases multicast : ty = .mcast
  · rw [if_pos (typeCode_eq_mcast.mpr multicast), packetExt, if_pos multicast, List.length_append, bytesOf_length,
      coinBytes_length, members]
  · rw [if_neg (mt typeCode_eq_mcast.mp multicast), packetExt, if_neg multicast, List.length_nil]

theorem coins_of_packetExt (plain : ty ≠ .mcast → p.mask = 0) (small : ∀ c ∈ p.coins, c.toNat < 2 ^ 24) :
    ((List.range (maskMembers p.mask).length).map fun i =>
      BitVec.ofNat 32 (natOf (((packetExt ty p ++ rest).drop (8 + 4 * i)).take 4))) = p.coins := by
  by_cases multicast : ty = .mcast
  · rw [packetExt, if_pos multicast, ← members]
    conv_rhs => rw [← coins_of_coinBytes small rest]
    refine List.map_congr_left fun i _ => ?_
    rw [← List.drop_drop, List.append_assoc, List.drop_left' (bytesOf_length _ _)]
  · have none_marked : (maskMembers p.mask).length = 0 := by rw [plain multicast]; decide
    rw [none_marked, List.range_zero, List.map_nil, List.eq_nil_of_length_eq_zero (members.trans none_marked)]

end

/-- A packet reads back from its bytes, whatever follows them. -/
theorem readPacket_packetBytes {ty : PacketType} {p : Packet} (rest : List Byte) (short : p.data.length ≤ 256)
    (vc : p.vc = packetVc ty p) (plain : ty ≠ .mcast → p.mask = 0) (members : p.coins.length = (maskMembers p.mask).length)
    (small : ∀ c ∈ p.coins, c.toNat < 2 ^ 24) :
    readPacket (packetBytes ty p ++ rest) = some (typeCode ty, { p with gen := none }, rest) := by
  have fits : packetHeader ty p < 256 ^ 24 := (packetHeader_fields (ty := ty) short).1
  have whole : packetBytes ty p ++ rest = bytesOf (packetHeader ty p) 24 ++ (packetExt ty p ++ (p.data ++ rest)) := by
    simp only [packetBytes_eq, List.append_assoc]
  have behind (n : Nat) : (packetBytes ty p ++ rest).drop (24 + n) = (packetExt ty p ++ (p.data ++ rest)).drop n := by
    rw [whole, ← List.drop_drop, List.drop_left' (bytesOf_length _ _)]
  have header_behind := behind 0
  rw [Nat.add_zero, List.drop_zero] at header_behind
  have head : natOf ((packetBytes ty p ++ rest).take 24) = packetHeader ty p := by rw [whole, natOf_take_bytesOf fits]
  have code : (BitVec.ofNat 4 (typeCode ty)).toNat = typeCode ty := Nat.mod_eq_of_lt (typeCode_lt ty)
  have size : (BitVec.ofNat 9 p.data.length).toNat = p.data.length := Nat.mod_eq_of_lt (by omega)
  have ext := packetExt_length (ty := ty) members
  have long : (packetBytes ty p ++ rest).length = 24 + (packetExt ty p).length + p.data.length + rest.length := by
    simp only [packetBytes_eq, List.length_append, bytesOf_length]
  have extended : (if typeCode ty = 9 then 8 else 0) ≤ (packetExt ty p).length := by rw [ext]; split <;> omega
  have mask := mask_of_packetExt (p := p) (p.data ++ rest) plain
  have coins := coins_of_packetExt members (p.data ++ rest) plain small
  have data : (packetBytes ty p ++ rest).drop (24 + (packetExt ty p).length) = p.data ++ rest := by
    rw [behind, List.drop_left]
  have after : (packetBytes ty p ++ rest).drop (24 + (packetExt ty p).length + p.data.length) = rest := by
    rw [← List.drop_drop, data, List.drop_left]
  have complete : ((packetBytes ty p ++ rest).length < 24 + (if typeCode ty = 9 then 8 else 0)
      || (packetBytes ty p ++ rest).length < 24 + (packetExt ty p).length + p.data.length) = false := by
    rw [long, Bool.or_eq_false_iff, decide_eq_false_iff_not, decide_eq_false_iff_not]
    omega
  have ext_at (i : Nat) : (packetBytes ty p ++ rest).drop (32 + 4 * i) = (packetExt ty p ++ (p.data ++ rest)).drop (8 + 4 * i) := by
    rw [← behind, ← Nat.add_assoc]
  simp only [readPacket, head, packetHeader_type short, code, packetHeader_length short, size, header_behind, mask,
    ← ext, complete, Bool.false_eq_true, if_false, ext_at, coins, data, after, List.take_left,
    headerPacket_packetHeader short vc]

end Sys2Proof.Machine

open Sys2Proof Sys2Proof.Machine

/-- Settles O30: a flit is its CRC over its control word over its BODY, and a packet its header, its extension and its data. -/
theorem packetsReadBack : Obligations.PacketsReadBack := by
  refine ⟨fun body seq ack nak cvc ccnt lock => ?_, fun ty p rest short vc plain members small =>
    readPacket_packetBytes rest short vc plain members small⟩
  intro x
  have control {off len : Nat} (inside : off + len ≤ 32) :=
    flitBits_control body (flitCtl seq ack nak cvc ccnt) inside
  refine ⟨?ok, flitBits_body _ _, (control (by decide)).trans (flitCtl_seq ..), (control (by decide)).trans (flitCtl_ack ..),
    (flitBits_controlBit _ _ (by decide)).trans (flitCtl_nak ..), (control (by decide)).trans (flitCtl_cvc ..),
    (control (by decide)).trans (flitCtl_ccnt ..)⟩
  change (true && decide (_ = crc32 (bytesOf ((flitBits _ _).extractLsb' 0 2016).toNat 252))) = true
  rw [flitBits_low, Bool.true_and, decide_eq_true_eq]
  exact flitBits_crc _ _
end

section
/-!
O31: what enables, resets and trains a link, and its heartbeats.
-/
namespace Sys2Proof.Machine

section
variable {s : State} {k : BitVec 5} (present : linkIn s.grade k.toNat = true)
include present

/-! ## ENABLE and LRESET (R357, R378) -/

section
variable {w : Writer} (reaches : s.reaches w = true)
include reaches

/-- A disabled link that is enabled trains. -/
theorem runs_enable_disabled (off : (s.link k.toNat).enable = false) :
    Runs (.enable w k true) s ((s.linkTrains k.toNat 2).modLink k.toNat fun y => { y with enable := true }) := by
  change execEnable w k true s = _
  simp [execEnable, reaches, present, off]

/-- An enabled link stays as it is. -/
theorem runs_enable_enabled (on : (s.link k.toNat).enable = true) : Runs (.enable w k true) s s := by
  change execEnable w k true s = _
  simp [execEnable, reaches, present, on]

/-- A link is taken down and held disabled: one that is up fails, and any other begins its training anew. -/
theorem runs_disable {t : State} (down : (if (s.link k.toNat).st = 3 then s.linkFails k.toNat 1 else s.linkTrains k.toNat 1) = t) :
    Runs (.enable w k false) s (t.modLink k.toNat fun y => { y with enable := false, st := 1 }).drainOut := by
  change execEnable w k false s = _
  simp [execEnable, reaches, present, ← down]

/-- A reset of an enabled link is noted. -/
theorem runs_lreset (on : (s.link k.toNat).enable = true) :
    Runs (.lreset w k) s (s.modLink k.toNat fun y => { y with resetting := true }) := by
  change execLreset w k s = _
  simp [execLreset, reaches, present, on]

end

/-! ## The reset (R357) -/

section
variable (asked : (s.link k.toNat).resetting = true)
include asked

/-- The retry buffer is emptied and its packets asked about; without a question the link restarts at once. -/
theorem runs_linkReset_first {z : State} {asks : List Compared}
    (compares : (s.reroute k.toNat).askAbout (s.link k.toNat).packets = (z, asks))
    (first : (s.link k.toNat).recon = none) :
    Runs (.linkReset k) s (if asks.isEmpty then (z.linkRestarts k.toNat).drainOut
      else (z.modLink k.toNat fun y => { y with recon := some asks }).drainOut) := by
  change execLinkReset k s = _
  simp only [execLinkReset, present, asked, first, compares, Bool.and_self, Bool.not_true, Bool.false_eq_true, if_false]

/-- Once every question is answered the link restarts. -/
theorem runs_linkReset_answered (answered : (s.link k.toNat).recon = some []) :
    Runs (.linkReset k) s (s.linkRestarts k.toNat).drainOut := by
  change execLinkReset k s = _
  simp only [execLinkReset, present, asked, answered, Bool.and_self, Bool.not_true, Bool.false_eq_true, if_false]

/-- Until then it waits. -/
theorem runs_linkReset_waits {a : Compared} {as : List Compared} (open_ : (s.link k.toNat).recon = some (a :: as)) :
    Runs (.linkReset k) s s := by
  change execLinkReset k s = _
  simp only [execLinkReset, present, asked, open_, Bool.and_self, Bool.not_true, Bool.false_eq_true, if_false]

end

/-! ## Training (R351, R462) -/

section
variable (on : (s.link k.toNat).enable = true) (clocked : (s.island (linkDomain k.toNat)).lost = false)
  (trains : (s.link k.toNat).st = 2 ∨ (s.link k.toNat).st = 4)
include on clocked trains

/-- Nothing stands against the training of the link. -/
theorem State.linkTraining_goes :
    (!linkIn s.grade k.toNat || !(s.link k.toNat).enable || !((s.link k.toNat).st = 2 || (s.link k.toNat).st = 4)
      || (s.island (linkDomain k.toNat)).lost) = false := by
  have state : (decide ((s.link k.toNat).st = 2) || decide ((s.link k.toNat).st = 4)) = true := by
    rwa [Bool.or_eq_true, decide_eq_true_eq, decide_eq_true_eq]
  rw [present, on, clocked, state]
  rfl

/-- Once the lanes are ready and the peer is known the nonce leaves. -/
theorem runs_linkTraining_ready (peer : BitVec 12) :
    Runs (.linkTraining k (some peer)) s
      (((s.draw.linkReady k.toNat).modLink k.toNat fun y =>
          { y with peer := peer, myNonce := some (Config.random s.fresh) }).sendControl
        0xFFF (some k) 1 (bytesOf (Config.random s.fresh).toNat 32)) := by
  change execLinkTraining k (some peer) s = _
  simp only [execLinkTraining, State.linkTraining_goes present on clocked trains, Bool.false_eq_true, if_false]

/-- After 10 ms without success the link gives up. -/
theorem runs_linkTraining_late (late : s.passed (s.link k.toNat).trainSince (10000 * usUnits) = true) :
    Runs (.linkTraining k none) s (s.modLink k.toNat fun y => { y with st := 5, peerOk := false }).drainOut := by
  change execLinkTraining k none s = _
  simp only [execLinkTraining, State.linkTraining_goes present on clocked trains, late, Bool.false_eq_true, if_false, if_true]

end

/-- The heartbeat of a neighbour on a link that is up is noted, and leaves its buffer. -/
theorem runs_heartbeat (up : (s.link k.toNat).st = 3) (p : Packet) :
    Runs (.heartbeat k p) s
      ((s.modLink k.toNat fun y => { y with heard := some s.clk.clk }).took k.toNat .heartbeat p) :=
  congrArg Host.Outcome.next (if_pos (State.linkHears_of_up present up))

end

/-- A heartbeat leaves every 10 µs on a link that carries packets, while the steward lives. -/
theorem runs_heartbeatSend {s : State} {k : BitVec 5} (up : s.linkUp k.toNat = true)
    (due : s.passed (s.link k.toNat).beatAt (10 * usUnits) = true) (alive : s.clk.clk ≤ s.stew.alive + 100 * usUnits) :
    Runs (.heartbeatSend k) s
      ((s.modLink k.toNat fun y => { y with beatAt := s.clk.clk, beats := y.beats + 1 }).sendPinned k.toNat .heartbeat
        { Packet.blank with
          tid := (s.link k.toNat).beats, value := s.capState.setWidth 32 + s.stew.feedId.setWidth 32 * 16 }) := by
  have goes : (s.linkUp k.toNat && s.passed (s.link k.toNat).beatAt (10 * usUnits)
      && decide (s.clk.clk ≤ s.stew.alive + 100 * usUnits)) = true := by
    rw [up, due, decide_eq_true alive]
    rfl
  exact congrArg Host.Outcome.next (if_pos goes)

end Sys2Proof.Machine

open Sys2Proof Sys2Proof.Machine

/-- Settles O31, one command of the link after another. -/
theorem linksTrainAndReset : Obligations.LinksTrainAndReset := by
  intro s k present n l
  refine ⟨fun w reaches => ⟨runs_enable_disabled present reaches, runs_enable_enabled present reaches,
      fun other => runs_disable present reaches (if_neg other), fun up => runs_disable present reaches (if_pos up),
      runs_lreset present reaches⟩,
    fun asked => ⟨fun first none_asked => ?_, fun first some_asked => ?_, runs_linkReset_answered present asked,
      fun _ _ => runs_linkReset_waits present asked⟩,
    fun on clocked trains => ⟨runs_linkTraining_ready present on clocked trains,
      fun late => runs_linkTraining_late present on clocked trains (decide_eq_true late)⟩,
    fun up due alive => runs_heartbeatSend up (decide_eq_true due) alive, fun p up => runs_heartbeat present up p⟩
  · exact runs_of_pos (runs_linkReset_first present asked rfl first) (List.isEmpty_iff.mpr none_asked)
  · exact runs_of_neg (runs_linkReset_first present asked rfl first) (mt List.isEmpty_iff.mp some_asked)
end

section
/-!
O35: the checks of a received frame, what a port answers, and its pauses.
-/
namespace Sys2Proof.Machine

/-! ## Addresses and tags (R394, R395) -/

/-- A frame to the sub-port's own MAC address is for it, and so is a broadcast for ARP. -/
theorem acceptsFrame_of_own {f : EthFrame} {port : Bool} {sub : BitVec 2}
    (own : f.dst = portMac port sub ∨ (f.kind = .arpRequest ∧ f.dst = BitVec.allOnes 48)) : acceptsFrame f port sub = true := by
  rcases own with mac | ⟨kind, broadcast⟩
  · simp [acceptsFrame, mac]
  · rw [acceptsFrame, kind, broadcast]
    exact Bool.or_true _

section
variable (x : SubPort) (ip : BitVec 128)

theorem SubPort.hasIp_v4_iff : x.hasIp false ip = true ↔ ip = x.ipv4.setWidth 128 ∧ x.ipv4 ≠ 0 := by
  simp only [SubPort.hasIp, Bool.false_eq_true, if_false, Bool.and_eq_true, bne_iff_ne, decide_eq_true_eq]
  exact And.comm

theorem SubPort.hasIp_v6_iff :
    x.hasIp true ip = true ↔ ip ≠ 0 ∧ (ip = x.ipv6.extractLsb' 0 128 ∨ ip = x.ipv6.extractLsb' 128 128) := by
  simp only [SubPort.hasIp, if_true, Bool.and_eq_true, bne_iff_ne, Bool.or_eq_true, decide_eq_true_eq]

/-- An IP address of the sub-port, in the version of the frame that names it. -/
theorem SubPort.hasIp_iff (v6 : Bool) : x.hasIp v6 ip = true ↔ if v6 then
    ip ≠ 0 ∧ (ip = x.ipv6.extractLsb' 0 128 ∨ ip = x.ipv6.extractLsb' 128 128)
    else ip = x.ipv4.setWidth 128 ∧ x.ipv4 ≠ 0 := by
  cases v6
  · exact x.hasIp_v4_iff ip
  · exact x.hasIp_v6_iff ip

end

/-- The frame has the VLAN tag of a configuration that asks for one, and none otherwise. -/
def tagFits (cfg : BitVec 64) (vlan : Option (BitVec 12)) : Bool :=
  match vlan with
  | some v => cfg.getLsbD 14 && v = cfg.extractLsb' 2 12
  | none => !cfg.getLsbD 14

theorem tagFits_iff (cfg : BitVec 64) (vlan : Option (BitVec 12)) : tagFits cfg vlan = true ↔
    (vlan = none ∧ cfg.getLsbD 14 = false) ∨ ∃ v, vlan = some v ∧ cfg.getLsbD 14 = true ∧ v = cfg.extractLsb' 2 12 := by
  cases vlan with
  | none => simp [tagFits]
  | some v => simp [tagFits, and_comm]

/-! ## A frame arrives (R394, R395) -/

/-- The frame is for the sub-port and well formed. -/
structure GoodFrame (s : State) (port : Bool) (sub : BitVec 2) (f : EthFrame) : Prop where
  accepted : acceptsFrame f port sub = true
  short : f.length.toNat ≤ 9216
  tagged : tagFits (s.subPort port sub).cfg f.vlan = true
  whole : f.fragment = false
  checked : f.checksumOk = true
  addressed : (s.subPort port sub).addressed f = true

section
variable {s : State} {port : Bool} {sub : BitVec 2} (there : s.subIn port sub = true)
include there

section
variable {f : EthFrame} (up : (s.subPort port sub).up = true)
include up

/-- A frame that is not for the sub-port, or not well formed, is dropped. -/
theorem runs_frameReceive_bad (bad : ¬ GoodFrame s port sub f) : Runs (.frameReceive port sub f) s (s.dropFrame port sub) := by
  have fails : (!acceptsFrame f port sub || decide (9216 < f.length.toNat) || !tagFits (s.subPort port sub).cfg f.vlan || f.fragment
      || !f.checksumOk || !(s.subPort port sub).addressed f) = true := by
    by_contra passes
    simp only [Bool.or_eq_true, not_or, decide_eq_true_eq, Nat.not_lt, Bool.not_eq_true, Bool.not_eq_false'] at passes
    obtain ⟨⟨⟨⟨⟨accepted, short⟩, tagged⟩, whole⟩, checked⟩, addressed⟩ := passes
    exact bad ⟨accepted, short, tagged, whole, checked, addressed⟩
  change execFrameReceive port sub f s = _
  rw [execFrameReceive, there, up]
  exact congrArg Host.Outcome.next (if_pos fails)

/-- What a sub-port does with a frame that is for it, by its kind. -/
def State.onFrame (s : State) (port : Bool) (sub : BitVec 2) (f : EthFrame) : State :=
  match f.kind with
  | .arpRequest | .neighbourSolicitation | .icmpEcho | .icmpv6Echo => s.answerFrame port sub f.kind
  | .lolithWire =>
    if f.udpPort.toNat = portUdp (s.subPort port sub).cfg then s.bufferFrame port sub f.length.toNat else s.dropFrame port sub
  | .mailbox =>
    if f.udpPort.toNat = portUdp (s.subPort port sub).cfg + 1 then s.bufferFrame port sub f.length.toNat
    else s.dropFrame port sub
  | .ptp => s
  | .other => s.dropFrame port sub

theorem runs_frameReceive_good (good : GoodFrame s port sub f) : Runs (.frameReceive port sub f) s (s.onFrame port sub f) := by
  obtain ⟨accepted, short, tagged, whole, checked, addressed⟩ := good
  have passes : (!acceptsFrame f port sub || decide (9216 < f.length.toNat) || !tagFits (s.subPort port sub).cfg f.vlan || f.fragment
      || !f.checksumOk || !(s.subPort port sub).addressed f) = false := by
    rw [accepted, tagged, whole, checked, addressed, decide_eq_false (Nat.not_lt.mpr short)]
    rfl
  change execFrameReceive port sub f s = _
  rw [execFrameReceive, there, up]
  exact congrArg Host.Outcome.next ((if_neg (Bool.eq_false_iff.mp passes)).trans rfl)

end

/-! ## Pauses, and a sub-port that goes down (R393, R396) -/

/-- A sub-port that obeys pauses holds back a priority for the quanta given, and sends what no pause holds back any more. -/
theorem runs_pauseFrame (up : (s.subPort port sub).up = true) (obeys : (s.subPort port sub).cfg.getLsbD 15 = true)
    (prio : BitVec 3) (quanta : BitVec 16) :
    Runs (.pauseFrame port sub prio quanta) s
      ((s.setSub port sub { s.subPort port sub with
        paused := Sparse.set 0 (s.subPort port sub).paused prio.toNat
          (if quanta = 0 then 0
            else s.clk.clk + quanta.toNat * pauseQuantum (portMode (s.subPort port 0).cfg)) }).releaseTx port sub) := by
  have goes : (!s.subIn port sub || !(s.subPort port sub).up || !(s.subPort port sub).cfg.getLsbD 15) = false := by
    rw [there, up, obeys]
    rfl
  exact congrArg Host.Outcome.next (if_neg (Bool.eq_false_iff.mp goes))

theorem runs_portDown : Runs (.portDown port sub false) s (s.setSub port sub (s.subPort port sub).down) := by
  change execPortDown port sub false s = _
  rw [execPortDown, there]
  rfl

theorem runs_portDown_returns (clocked : (s.island (90 + port.toNat)).lost = false) :
    Runs (.portDown port sub true) s (s.setSub port sub { s.subPort port sub with up := true }) := by
  change execPortDown port sub true s = _
  rw [execPortDown, there, clocked]
  rfl

end

/-! ## What leaves a port (R395, R396) -/

section
variable {s : State} {port : Bool} {sub : BitVec 2}

/-- An answer beyond the first 1,000 of a second does not leave. -/
theorem State.answerFrame_many {n : Nat} (k : FrameKind)
    (sent : (if (s.subPort port sub).answersSecond = s.clk.clk / (1000000 * usUnits) then (s.subPort port sub).answers else 0) = n) :
    s.answerFrame port sub k = if 1000 ≤ n then s.dropFrame port sub
      else (s.setSub port sub { s.subPort port sub with
        answers := n + 1, answersSecond := s.clk.clk / (1000000 * usUnits) }).sendOut port sub 0 (.answer port sub k) := by
  subst sent
  rfl

variable (up : (s.subPort port sub).up = true) (dscp : BitVec 6) (o : Output)
include up

/-- What a paused priority sends waits. -/
theorem State.sendOut_paused (obeys : (s.subPort port sub).cfg.getLsbD 15 = true)
    (paused : s.clk.clk < Sparse.get 0 (s.subPort port sub).paused (dscpPriority dscp).toNat) :
    s.sendOut port sub dscp o
      = s.setSub port sub { s.subPort port sub with txq := (s.subPort port sub).txq ++ [(dscpPriority dscp, o)] } := by
  simp [State.sendOut, SubPort.obeys, up, obeys, paused]

/-- With nothing waiting, a sub-port that obeys no pause sends at once. -/
theorem State.sendOut_free (obeys : (s.subPort port sub).cfg.getLsbD 15 = false) (idle : (s.subPort port sub).txq = []) :
    s.sendOut port sub dscp o = s.emit o := by
  have free : (s.subPort port sub).obeys (dscpPriority dscp) s.clk.clk = false := by rw [SubPort.obeys, obeys, Bool.false_and]
  simp [State.sendOut, free, up, idle]

end

end Sys2Proof.Machine

open Sys2Proof Sys2Proof.Machine

/-- Settles O35: the frames by their kind, the answers, the pauses, and a sub-port that goes down and returns. -/
theorem portsReceive : Obligations.PortsReceive := by
  intro s port sub there x
  refine ⟨fun f own => acceptsFrame_of_own own, fun f up => ?_, fun k => ?_,
    fun prio quanta up obeys => runs_pauseFrame there up obeys prio quanta,
    fun dscp o up obeys paused => State.sendOut_paused up dscp o obeys paused,
    fun dscp o up obeys idle => State.sendOut_free up dscp o obeys idle, runs_portDown there, runs_portDown_returns there⟩
  · intro vlanOk isV4 isV6 mine ok
    have addressed : x.addressed f = true ↔ mine := by
      simp only [mine, isV4, isV6, SubPort.addressed, overV6]
      cases f.kind with
      | arpRequest | icmpEcho => exact x.hasIp_v4_iff f.ip
      | neighbourSolicitation | icmpv6Echo => exact x.hasIp_v6_iff f.ip
      | lolithWire | mailbox => exact x.hasIp_iff f.ip f.v6
      | ptp | other => exact iff_of_true rfl trivial
    refine ⟨fun bad => runs_frameReceive_bad there up fun good => bad ?_, fun good => ?_⟩
    · exact ⟨good.accepted, good.short, (tagFits_iff _ _).mp good.tagged, good.whole, good.checked, addressed.mp good.addressed⟩
    · obtain ⟨accepted, short, tag, whole, checked, own⟩ := good
      have runs := runs_frameReceive_good there up
        ⟨accepted, short, (tagFits_iff _ _).mpr tag, whole, checked, addressed.mpr own⟩
      rw [State.onFrame] at runs
      refine ⟨?answered, fun kind same => ?sealed_enters, fun kind same => ?frame_enters, fun kind => ?timed, fun kind => ?unwanted⟩
      case answered => rintro (kind | kind | kind | kind) <;> rwa [kind] at runs ⊢
      case sealed_enters => rw [kind] at runs; exact runs_of_pos runs same
      case frame_enters => rw [kind] at runs; exact runs_of_pos runs same
      case timed => rwa [kind] at runs
      case unwanted => rwa [kind] at runs
  · intro second n
    exact ⟨fun many => (State.answerFrame_many k rfl).trans (if_pos many),
      fun few => (State.answerFrame_many k rfl).trans (if_neg (Nat.not_le.mpr few))⟩
end

section
/-!
O36: the numbers of sessions, what opens a handshake and a session, and what ends them.
-/
namespace Sys2Proof.Machine

/-! ## Session numbers (R401) -/

/-- The numbers that a new session does not take: 0 and those of the live sessions. -/
def State.takenNumbers (s : State) : List (BitVec 32) := 0 :: s.house.sessions.map Session.number

theorem State.freeSession_succ (s : State) (fuel : Nat) (n : BitVec 32) :
    s.freeSession (fuel + 1) n = if n ∈ s.takenNumbers then s.freeSession fuel (n + 1) else n := by
  simp [State.freeSession, State.takenNumbers]

/-- The search ends at a free number if there is one within its reach. -/
theorem State.freeSession_free {s : State} (fuel : Nat) (n : BitVec 32)
    (free : ∃ i < fuel, n + BitVec.ofNat 32 i ∉ s.takenNumbers) : s.freeSession fuel n ∉ s.takenNumbers := by
  induction fuel generalizing n with
  | zero => obtain ⟨i, below, -⟩ := free; exact absurd below (Nat.not_lt_zero i)
  | succ fuel ih =>
    rw [State.freeSession_succ]
    split
    case isFalse here => exact here
    case isTrue taken =>
      obtain ⟨i, below, at_i⟩ := free
      cases i with
      | zero => exact absurd taken (by simpa using at_i)
      | succ i =>
        refine ih (n + 1) ⟨i, Nat.lt_of_succ_lt_succ below, ?_⟩
        rwa [BitVec.ofNat_add, BitVec.add_comm (BitVec.ofNat 32 i), ← BitVec.add_assoc] at at_i

/-- Among one number more than are taken one is free. -/
theorem State.exists_freeNumber {s : State} (few : s.house.sessions.length < 2 ^ 32 - 2) (n : BitVec 32) :
    ∃ i < s.house.sessions.length + 2, n + BitVec.ofNat 32 i ∉ s.takenNumbers := by
  by_contra none_free
  push Not at none_free
  let tried := (List.range (s.house.sessions.length + 2)).map fun i => n + BitVec.ofNat 32 i
  have distinct : tried.Nodup := by
    refine List.Nodup.map_on (fun i hi j hj same => ?_) List.nodup_range
    rw [List.mem_range] at hi hj
    have equal := congrArg BitVec.toNat ((BitVec.add_right_inj n).mp same)
    rw [BitVec.toNat_ofNat, BitVec.toNat_ofNat, Nat.mod_eq_of_lt (by omega), Nat.mod_eq_of_lt (by omega)] at equal
    exact equal
  have inside : tried ⊆ s.takenNumbers := by
    intro m tries
    obtain ⟨i, below, rfl⟩ := List.mem_map.mp tries
    exact none_free i (List.mem_range.mp below)
  have count := (List.subperm_of_subset distinct inside).length_le
  simp [tried, State.takenNumbers] at count

/-! ## What leaves through a port -/

section
variable {β : Type} (g : State → β) (queues : ∀ s port sub x, g (s.setSub port sub x) = g s)
  (emits : ∀ s o, g (s.emit o) = g s)
include queues emits

/-- What leaves through a port changes its queue, or what has left, and no more. -/
theorem State.sendOut_keeps (s : State) (port : Bool) (sub : BitVec 2) (dscp : BitVec 6) (o : Output) :
    g (s.sendOut port sub dscp o) = g s := by
  unfold State.sendOut
  dsimp only
  split
  · rfl
  · split
    · exact queues ..
    · exact emits ..

theorem State.sendHandshake_keeps (s : State) (type : BitVec 8) (x : InitMsg) (session : BitVec 32) (body : List Byte) :
    g (s.sendHandshake type x session body) = g s :=
  foldl_keeps g (fun _ _ => State.sendOut_keeps g queues emits ..) _ s

end

/-! ## INIT (R400, R423) -/

/-- The client or the mailbox that an INIT names is known. -/
def State.knows (s : State) (x : InitMsg) : Bool :=
  if x.control then x.index.toNat < 16 && s.role x.index.toNat != 0
  else x.index.toNat < 8192 && (s.client x.index.toNat).isSome

/-- The session that an INIT begins, under a number. -/
def State.newSession (s : State) (x : InitMsg) (n : BitVec 32) : Session :=
  { number := n, control := x.control, index := x.index, opened := false, since := s.clk.clk, port := x.port, sub := x.sub
    v6 := x.v6, exchange := x.exchange, secret := Config.sharedSecret s.fresh x.ek, th := transcript n s.fresh x }

section
variable {s : State} {x : InitMsg} (hears : s.hears x.port x.sub = true) (version : x.version = 1) (type : x.type = 1)
  (session : x.session = 0) (joined : joins x.fragments x.exchange 1186 = true) (booted : s.stew.booted = true)
  (vault : (s.island 95).lost = false)
  (open_ : x.control = true ∨ ((s.island 92).lost = false ∧ s.zeroising = false)) (known : s.knows x = true)
include hears version type session joined booted vault open_ known

/-- Nothing stands against the handshake. -/
theorem State.init_heard :
    (!s.hears x.port x.sub || x.version != 1 || x.type != 1 || x.session != 0 || !joins x.fragments x.exchange 1186
      || !s.stew.booted || (s.island 95).lost || (!x.control && ((s.island 92).lost || s.zeroising)) || !s.knows x) = false := by
  have takes : (!x.control && ((s.island 92).lost || s.zeroising)) = false := by
    rcases open_ with control | ⟨house, living⟩
    · rw [control]; rfl
    · rw [house, living, Bool.or_false, Bool.and_false]
  rw [hears, version, type, session, joined, booted, vault, takes, known]
  rfl

/-- A handshake or a data session beyond the last is rejected. -/
theorem runs_init_rejected (many : 256 ≤ s.handshakes ∨ (x.control = false ∧ 4096 ≤ s.dataSessions)) :
    Runs (.init x) s (s.sendReject x.port x.sub 0 x.exchange 1) := by
  have full : (256 ≤ s.handshakes || (!x.control && 4096 ≤ s.dataSessions)) = true := by
    simpa using many
  have heard := State.init_heard hears version type session joined booted vault open_ known
  exact congrArg Host.Outcome.next ((if_neg (Bool.eq_false_iff.mp heard)).trans (if_pos full))

/-- Any other begins a session with the next number, and is answered with ACCEPT. -/
theorem runs_init_accepted (few : s.handshakes < 256) (room : x.control = true ∨ s.dataSessions < 4096) {n : BitVec 32}
    (next : s.freeSession (s.house.sessions.length + 2) s.house.nextSession = n) :
    Runs (.init x) s ({ s.draw with house := { s.house with
      sessions := s.house.sessions ++ [s.newSession x n], nextSession := n + 1 } }.sendHandshake 2 x n
        (acceptBody n s.fresh x ++ s.vault.wireSignature (transcript n s.fresh x))) := by
  have free : (256 ≤ s.handshakes || (!x.control && 4096 ≤ s.dataSessions)) = false := by
    rcases room with control | below
    · simp [few, control]
    · simp [few, below]
  have heard := State.init_heard hears version type session joined booted vault open_ known
  subst next
  exact congrArg Host.Outcome.next ((if_neg (Bool.eq_false_iff.mp heard)).trans (if_neg (Bool.eq_false_iff.mp free)))

end

/-! ## FINISH and the time-outs (R400, R401, R424, R456) -/

/-- The key that a FINISH must carry, by its digest. -/
def State.wantedKey (s : State) (x : Session) (control : Bool) : Option (BitVec 256) :=
  if control then s.boundKey x.index.toNat else (s.client x.index.toNat).map fun c => c.key

/-- The key of a FINISH is the one wanted, or any for the owner's mailbox of a module without an owner. -/
def State.takesKey (s : State) (x : Session) (control : Bool) (key : BitVec 15616) : Bool :=
  match s.wantedKey x control with
  | some k => k = keyDigest key
  | none => control && !s.owned && x.index = 0

theorem State.takesKey_of_right {s : State} {x : Session} {control : Bool} {key : BitVec 15616}
    (right : s.wantedKey x control = some (keyDigest key)
      ∨ (s.wantedKey x control = none ∧ control = true ∧ s.owned = false ∧ x.index = 0)) :
    s.takesKey x control key = true := by
  rcases right with same | ⟨free, isControl, unowned, first⟩
  · rw [State.takesKey, same]
    exact decide_eq_true rfl
  · rw [State.takesKey, free, isControl, unowned, first]
    rfl

theorem State.takesKey_of_wrong {s : State} {x : Session} {control : Bool} {key : BitVec 15616} {k : BitVec 256}
    (wanted : s.wantedKey x control = some k) (other : k ≠ keyDigest key) : s.takesKey x control key = false := by
  simp [State.takesKey, wanted, other]

/-- A signature proves a session's key under the key itself, its context, and TH2. -/
theorem Session.proves_iff (x : Session) (v : Vault) (key : BitVec 15616) (g : Signature) :
    x.proves v key g = true ↔ g.key = key ∧ g.context = ascii "SG4-WIRE-C" ∧ g.bytes = bytesOf (x.th2 v key).toNat 32 := by
  simp [Session.proves, verifies, and_assoc]

section
variable {s : State} {n : BitVec 32} {control : Bool} {x : Session} (here : s.session n control = some x)
include here

/-- A handshake that is not complete after 1 s ends. -/
theorem runs_handshakeTimeout (begun : x.opened = false) (late : s.passed x.since (1000000 * usUnits) = true) :
    Runs (.handshakeTimeout n control) s ((s.closeSessions fun y => y.number = n).count .house 0x8E 0 1) := by
  have due : (!x.opened && s.passed x.since (1000000 * usUnits)) = true := by
    rw [begun, late]
    rfl
  change execHandshakeTimeout n control s = _
  rw [execHandshakeTimeout, here]
  exact congrArg Host.Outcome.next (if_pos due)

/-- A session ends 30 s after its last datagram. -/
theorem runs_sessionTimeout (opened : x.opened = true) (late : s.passed x.since (30000000 * usUnits) = true) :
    Runs (.sessionTimeout n control) s (s.closeSessions fun y => y.number = n) := by
  have due : (x.opened && s.passed x.since (30000000 * usUnits)) = true := by
    rw [opened, late]
    rfl
  change execSessionTimeout n control s = _
  rw [execSessionTimeout, here]
  exact congrArg Host.Outcome.next (if_pos due)

section
variable {f : FinishMsg} {g : Signature} (begun : x.opened = false) (hears : s.hears f.port f.sub = true)
  (version : f.version = 1) (type : f.type = 3) (exchange : f.exchange = x.exchange)
  (joined : joins f.fragments x.exchange 5261 = true)
include begun hears version type exchange joined

/-- What a FINISH of a handshake meets: the time, its key, and its proof. -/
theorem runs_finish : Runs (.finish n control f g) s
    (if s.passed x.since (1000000 * usUnits) then s.freeSlow n
      else if !s.takesKey x control f.key || !x.proves s.vault f.key g then
        (s.closeSessions fun y => y.number = n).sendReject f.port f.sub n x.exchange 4
      else
        let z := if control then s.closeSessions fun y => y.control && y.opened && y.index = x.index else s
        (z.modSession n fun y => { y with
          opened := true, since := s.clk.clk, key := f.key, keys := y.keysFor z.vault f.key, secret := 0 }).count .house 0x8D 0 1) := by
  have heard : (x.opened || !s.hears f.port f.sub || f.version != 1 || f.type != 3 || f.exchange != x.exchange
      || !joins f.fragments x.exchange 5261) = false := by
    rw [begun, hears, version, type, exchange, joined, bne_self_eq_false x.exchange]
    rfl
  change execFinish n control f g s = _
  rw [execFinish, here]
  refine congrArg Host.Outcome.next ((if_neg (Bool.eq_false_iff.mp heard)).trans ?_)
  cases control <;> rfl

end
end

end Sys2Proof.Machine

open Sys2Proof Sys2Proof.Machine

/-- Settles O36: INIT, the numbers, and the ways of a session. -/
theorem sessionsOpenAndClose : Obligations.SessionsOpenAndClose := by
  intro s
  refine ⟨?init, fun few => ?number, fun n control x here => ⟨fun begun => ⟨fun late => ?slow, ?finish⟩, fun opened late => ?silent⟩⟩
  case init =>
    intro x known hears version type session joined booted vault open_ isKnown
    refine ⟨runs_init_rejected hears version type session joined booted vault open_ isKnown, fun few room => ⟨_,
      runs_init_accepted hears version type session joined booted vault open_ isKnown few room rfl, ⟨?_, ?_⟩, ?_, ?_, ?_⟩⟩
    · exact State.sendHandshake_keeps (fun z => z.house.sessions) (fun _ _ _ _ => rfl) (fun _ _ => rfl) ..
    · exact State.sendHandshake_keeps (fun z => z.house.nextSession) (fun _ _ _ _ => rfl) (fun _ _ => rfl) ..
    · exact State.sendHandshake_mem ..
    · exact State.sendHandshake_keeps State.fab (fun _ _ _ _ => rfl) (fun _ _ => rfl) ..
    · exact State.sendHandshake_keeps State.vault (fun _ _ _ _ => rfl) (fun _ _ => rfl) ..
  case number =>
    have free := State.freeSession_free _ _ (State.exists_freeNumber few s.house.nextSession)
    rw [State.takenNumbers, List.mem_cons, not_or] at free
    exact ⟨free.1, fun x live same => free.2 (List.mem_map.mpr ⟨x, live, same⟩)⟩
  case slow => exact runs_handshakeTimeout here begun (decide_eq_true late)
  case silent => exact runs_sessionTimeout here opened (decide_eq_true late)
  case finish =>
    intro f g hears version type exchange joined want th2 good
    have runs := runs_finish (g := g) here begun hears version type exchange joined
    refine ⟨fun late => runs_of_pos runs (decide_eq_true late), fun early => ?_⟩
    replace runs := runs_of_neg runs (Bool.eq_false_iff.mp (decide_eq_false (Nat.not_le.mpr early)))
    have proves : x.proves s.vault f.key g = true ↔ good := x.proves_iff s.vault f.key g
    refine ⟨fun bad => runs_of_pos runs ?_, fun right proof => runs_of_neg runs ?_⟩
    · rcases bad with unproved | ⟨k, wanted, other⟩
      · rw [Bool.eq_false_iff.mpr (mt proves.mp unproved), Bool.not_false, Bool.or_true]
      · rw [State.takesKey_of_wrong wanted other, Bool.not_false, Bool.true_or]
    · rw [State.takesKey_of_right right, proves.mpr proof]
      decide
end

section
/-!
O39: the course of a mailbox frame, check by check.
-/
namespace Sys2Proof.Machine

/-! ## Before the session (R399, R424, R425) -/

/-- A frame that does not fit, or that comes before a change of step is complete, is passed over. -/
theorem State.runFrame_waits {s : State} {f : Frame} (waits : s.frameFits f = false ∨ s.stew.stepReplies ≠ []) (c : Command)
    (body : Body) : s.runFrame f c body = s := by
  have outside : (!s.stew.stepReplies.isEmpty || !s.frameFits f) = true := by
    rcases waits with long | some_step
    · rw [long]; exact Bool.or_true _
    · rw [List.isEmpty_eq_false_iff.mpr some_step]; rfl
  exact if_pos outside

/-- A frame that does not open its session does what its datagram does. -/
theorem State.runFrame_unheard {s t : State} {f : Frame} (unheard : s.openFrame f = (t, false)) (fits : s.frameFits f = true)
    (settled : s.stew.stepReplies = []) (c : Command) (body : Body) : s.runFrame f c body = t := by
  simp only [State.runFrame, settled, fits, unheard, List.isEmpty_nil, Bool.not_true, Bool.or_self, Bool.false_eq_true,
    if_false]

/-- A frame whatever its CMD and FORM leaves the state if every course of it does. -/
theorem State.command_unchanged {s : State} {f : Frame} (passes : ∀ c body, s.runFrame f c body = s) (c : Command)
    (body : Body) : s.command f c body = s := by
  unfold State.command
  split
  · exact passes ..
  · split
    · exact passes ..
    · rfl

/-- A frame of a mailbox without an open session is passed over. -/
theorem State.runFrame_closed {s : State} {f : Frame} (closed : s.boxSession f.mb = none) (c : Command) (body : Body) :
    s.runFrame f c body = s := by
  by_cases fits : s.frameFits f = true
  · by_cases settled : s.stew.stepReplies = []
    · exact State.runFrame_unheard (by rw [State.openFrame, closed]) fits settled c body
    · exact State.runFrame_waits (.inr settled) c body
  · exact State.runFrame_waits (.inl (Bool.eq_false_iff.mpr fits)) c body

/-- A datagram that its session does not accept is counted. -/
theorem State.openFrame_dropped {s : State} {f : Frame} {y : Session} (box : s.boxSession f.mb = some y)
    (number : f.d.session = y.number) (hears : s.hears f.d.port f.d.sub = true) (ver : f.d.ver = 1) (type : f.d.type = 4)
    (frag : f.d.frag = 0) (bad : y.admits f.d = false) : s.openFrame f = (s.count .house 0x8B 0 1, false) := by
  simp [State.openFrame, box, number, State.hear_dropped ver type hears frag (Bool.eq_false_iff.mp bad)]

/-! ## After it (R429–R433) -/

/-- What a frame whose datagram is accepted meets: BUSY, its form, its TAG, its bars, and its own checks. -/
def State.serve (s : State) (f : Frame) (c : Command) (body : Body) : State :=
  match s.stew.longOp with
  | some op => s.busyReply f c.code op (s.progress op)
  | none =>
    if f.fkind != 1 || f.rsv != 0 then s.replyFrame f.mb f.tag c.code (badArg 0) []
    else if c.code != 0x02 && (s.mailbox f.mb).tag = some f.tag then
      let b := s.mailbox f.mb
      s.replyFrame f.mb f.tag c.code (b.status, b.detail) b.result
    else
      match s.bars f c with
      | some r =>
        if c.code = 0x02 then s.replyFrame f.mb f.tag c.code r [] else s.complete f.mb f.tag c.code r []
      | none =>
        match body s with
        | .error r => s.complete f.mb f.tag c.code r []
        | .ok (s, .refused r) => s.complete f.mb f.tag c.code r []
        | .ok (s, .result data) =>
          let s := s.count .steward 0xA6 0 1
          if c.code = 0x02 then s.replyFrame f.mb f.tag c.code (0, 0) data
          else s.complete f.mb f.tag c.code (0, 0) data
        | .ok (s, .later) =>
          { s with stew := { s.stew with stepReplies := s.stew.stepReplies ++ [(f.mb, f.tag)] } }.count .steward 0xA6 0 1
        | .ok (s, .long w) =>
          let op : LongOp := { cmd := c.code, mailbox := f.mb, tag := f.tag, work := w }
          ({ s with stew := { s.stew with longOp := some op } }.count .steward 0xA6 0 1).busyReply f c.code op 0

theorem State.runFrame_heard {s : State} {f : Frame} {y : Session} (hears : Hears s f y) (fits : s.frameFits f = true)
    (settled : s.stew.stepReplies = []) (c : Command) (body : Body) :
    s.runFrame f c body = (s.heard f y).serve f c body := by
  rw [State.runFrame, settled, fits, State.openFrame_hears hears]
  rfl

section
variable {s : State} {f : Frame} {c : Command} {body : Body}

theorem State.serve_busy {op : LongOp} (busy : s.stew.longOp = some op) :
    s.serve f c body = s.busyReply f c.code op (s.progress op) := by
  rw [State.serve, busy]

section
variable (idle : s.stew.longOp = none)
include idle

theorem State.serve_malformed (bad : f.fkind ≠ 1 ∨ f.rsv ≠ 0) :
    s.serve f c body = s.replyFrame f.mb f.tag c.code (badArg 0) [] := by
  have form : (f.fkind != 1 || f.rsv != 0) = true := by
    rwa [Bool.or_eq_true, bne_iff_ne, bne_iff_ne]
  rw [State.serve, idle]
  exact if_pos form

section
variable (kind : f.fkind = 1) (rsv : f.rsv = 0) (code : c.code ≠ 0x02)
include kind rsv code

theorem State.serve_repeated (repeated : (s.mailbox f.mb).tag = some f.tag) :
    s.serve f c body = s.replyFrame f.mb f.tag c.code ((s.mailbox f.mb).status, (s.mailbox f.mb).detail)
      (s.mailbox f.mb).result := by
  simp only [State.serve, idle, kind, rsv, repeated, bne_iff_ne.mpr code, bne_self_eq_false, Bool.or_self, Bool.false_eq_true,
    if_false, decide_true, Bool.and_self, if_true]

section
variable (new : (s.mailbox f.mb).tag ≠ some f.tag)
include new

theorem State.serve_new : s.serve f c body = match s.bars f c with
    | some r => s.complete f.mb f.tag c.code r []
    | none => match body s with
      | .error r => s.complete f.mb f.tag c.code r []
      | .ok (t, .refused r) => t.complete f.mb f.tag c.code r []
      | .ok (t, .result data) => t.answers f c.code data
      | .ok (t, .later) =>
        { t with stew := { t.stew with stepReplies := t.stew.stepReplies ++ [(f.mb, f.tag)] } }.count .steward 0xA6 0 1
      | .ok (t, .long w) => t.begins f c.code w := by
  simp only [State.serve, idle, kind, rsv, new, if_neg code, bne_self_eq_false, Bool.or_self, Bool.false_eq_true,
    if_false, decide_false, Bool.and_false]
  rfl

theorem State.serve_barred {r : Refused} (barred : s.bars f c = some r) :
    s.serve f c body = s.complete f.mb f.tag c.code r [] := by
  rw [State.serve_new idle kind rsv code new, barred]

theorem State.serve_refused {r : Refused} (free : s.bars f c = none) (refuses : body s = .error r) :
    s.serve f c body = s.complete f.mb f.tag c.code r [] := by
  rw [State.serve_new idle kind rsv code new, free, refuses]

end
end
end

/-- A role that the command does not allow bars it on a module with an owner that is not in return mode. -/
theorem State.bars_role (serving : s.stew.state ≠ 8) (owned : s.owned = true) (role : c.roles (s.role f.mb.toNat) = false) :
    s.bars f c = some (denied 1) := by
  rw [State.bars, if_neg serving, owned, role]
  rfl

end

/-! ## A CMD or a FORM that no row has (R431) -/

theorem strayDetail_unlisted {code : Nat} (unlisted : 0x37 < code ∨ code = 0) (form : Nat) :
    strayDetail code form = some 0 := by
  have absent : code ∉ [0x01, 0x02, 0x03, 0x10, 0x11, 0x12, 0x13, 0x14, 0x15, 0x16, 0x17, 0x20, 0x21, 0x22, 0x23, 0x24, 0x25,
      0x26, 0x27, 0x30, 0x31, 0x32, 0x33, 0x34, 0x35, 0x36, 0x37] := by
    simp only [List.mem_cons, List.not_mem_nil, or_false]
    omega
  rw [strayDetail, if_pos]
  rw [Bool.not_eq_true', ← Bool.not_eq_true, List.contains_iff_mem]
  exact absent

theorem strayDetail_channel {form : Nat} (unlisted : 3 < form) : strayDetail 0x24 form = some 1 := by
  simp [strayDetail, unlisted]

/-- A frame with a CMD or FORM that no row has is refused with BAD_ARG. -/
theorem State.command_stray {s : State} {f : Frame} {code form : BitVec 8} {n : Nat} (stray : f.stray = some (code, form))
    (detail : strayDetail code.toNat form.toNat = some n) (c : Command) (body : Body) :
    s.command f c body
      = s.runFrame f { code := code, roles := rolesOf code.toNat } fun _ => .error (badArg n) := by
  simp only [State.command, stray, detail]

theorem State.command_listed {s : State} {f : Frame} (listed : f.stray = none) (c : Command) (body : Body) :
    s.command f c body = s.runFrame f c body := by
  rw [State.command, listed]

end Sys2Proof.Machine

open Sys2Proof Sys2Proof.Machine

/-- Settles O39: the checks in the order in which a frame meets them. -/
theorem mailboxFramesAreChecked : Obligations.MailboxFramesAreChecked := by
  intro s f c body
  refine ⟨fun closed => State.command_unchanged (State.runFrame_closed closed) c body,
    fun waits => State.command_unchanged (State.runFrame_waits waits) c body, fun listed fits settled => ⟨?dropped, ?heard⟩,
    fun code form y stray fits settled hears idle kind rsv new free => ?stray⟩
  case dropped =>
    intro y box number arrives ver type frag bad
    rw [State.command_listed listed]
    exact State.runFrame_unheard (State.openFrame_dropped box number arrives ver type frag bad) fits settled c body
  case heard =>
    intro y hears z
    rw [State.command_listed listed, State.runFrame_heard hears fits settled]
    exact ⟨fun op => State.serve_busy (s := z), State.serve_malformed (s := z), fun idle kind rsv code repeated =>
        State.serve_repeated (s := z) idle kind rsv code repeated,
      fun idle kind rsv code new => ⟨fun r => State.serve_barred (s := z) idle kind rsv code new,
        fun serving owned role =>
          State.serve_barred (s := z) idle kind rsv code new (State.bars_role (s := z) serving owned role),
        fun r => State.serve_refused (s := z) idle kind rsv code new⟩⟩
  case stray =>
    have refused {n : Nat} (other : code ≠ 0x02) (detail : strayDetail code.toNat form.toNat = some n) :
        s.command f c body = (s.heard f y).complete f.mb f.tag code (badArg n) [] := by
      rw [State.command_stray stray detail, State.runFrame_heard hears fits settled]
      exact State.serve_refused (s := s.heard f y) idle kind rsv other new free rfl
    refine ⟨fun unlisted => refused ?_ (strayDetail_unlisted ?_ _), fun channel unlisted => refused ?_ ?_⟩
    · rintro rfl; exact absurd unlisted (by decide)
    · rcases unlisted with above | rfl
      · exact .inl above
      · exact .inr rfl
    · rw [channel]; decide
    · rw [channel]; exact strayDetail_channel unlisted
end

section
/-!
O40: the commands that report, load, arm, run, hold and step, each by what its body gives.
-/
namespace Sys2Proof.Machine

/-! ## What the body of an accepted command gives -/

/-- A check that holds lets the rest of a command's body decide. -/
theorem require_ok {α : Type} {b : Bool} {r : Refused} {next : Unit → Except Refused α} {x : Except Refused α} (holds : b = true)
    (rest : next () = x) : (require b r >>= next) = x := by
  rw [require, if_pos holds]
  exact rest

/-- A check that fails refuses the command. -/
theorem require_refuses {α : Type} {b : Bool} {r : Refused} {next : Unit → Except Refused α} (fails : b = false) :
    (require b r >>= next) = .error r := by
  rw [require, if_neg (Bool.eq_false_iff.mp fails)]
  rfl

section
variable {s t : State} {f : Frame} {y : Session} {c : Command} {body : Body} {i : Instr}
  (is : exec i s = .next (s.command f c body)) (code : c.code ≠ 0x02) (accepted : Accepts s f c y)
include is code accepted

theorem runs_of_result {data : List Byte} (gives : body (s.heard f y) = .ok (t, .result data)) :
    Runs i s (t.answers f c.code data) :=
  is.trans (congrArg _ (State.command_result accepted code gives))

theorem runs_of_long {work : LongWork} (gives : body (s.heard f y) = .ok (t, .long work)) : Runs i s (t.begins f c.code work) :=
  is.trans (congrArg _ (State.command_long accepted code gives))

theorem runs_of_refusal {r : Refused} (gives : body (s.heard f y) = .error r) :
    Runs i s ((s.heard f y).complete f.mb f.tag c.code r []) :=
  is.trans (congrArg _ (State.command_refused accepted code gives))

/-- A command whose reply waits for a change of step notes whom it answers. -/
theorem runs_of_later (gives : body (s.heard f y) = .ok (t, .later)) :
    Runs i s ({ t with stew := { t.stew with stepReplies := t.stew.stepReplies ++ [(f.mb, f.tag)] } }.count .steward 0xA6 0 1) := by
  rw [Runs, is, State.command_accepted body accepted code, gives]

end

section
variable {s : State} {f : Frame} {y : Session}

/-! ## Reports and loading (R437) -/

/-- LAST_RESULT answers from the stored result, and stores nothing. -/
theorem runs_lastResult (offset : BitVec 32) (accepted : Accepts s f { code := 0x02, roles := rolesAll, unowned := true } y) :
    Runs (.lastResult f offset) s (((s.heard f y).count .steward 0xA6 0 1).replyFrame f.mb f.tag 0x02 (0, 0)
      (((s.heard f y).mailbox f.mb).result.drop offset.toNat)) := by
  obtain ⟨hears, fits, ⟨idle, settled⟩, ⟨kind, rsv⟩, listed, -, free⟩ := accepted
  have serves : (s.heard f y).serve f { code := 0x02, roles := rolesAll, unowned := true }
      (fun z => short z ((z.mailbox f.mb).result.drop offset.toNat))
      = ((s.heard f y).count .steward 0xA6 0 1).replyFrame f.mb f.tag 0x02 (0, 0)
        (((s.heard f y).mailbox f.mb).result.drop offset.toNat) := by
    have idle' : (s.heard f y).stew.longOp = none := idle
    simp only [State.serve, idle', kind, rsv, free, short, bne_self_eq_false, Bool.or_self, Bool.false_eq_true, if_false,
      Bool.false_and, if_true]
  change execLastResult f offset s = _
  rw [execLastResult, State.command_listed listed, State.runFrame_heard hears fits settled, serves]

section
variable {z : State} (heard : s.heard f y = z)
include heard

/-- STAGE writes its data where DRAM is free. -/
theorem runs_stage {addr : BitVec 48} {data : List Byte} (idle : z.noProgram = true) (aligned : addr.toNat % 64 = 0)
    (room : data = [] ∨ z.freeDram addr.toNat data.length = true) (accepted : Accepts s f { code := 0x10, roles := rolesOP } y) :
    Runs (.stage f addr data) s ((z.writeDram addr.toNat data).answers f 0x10 []) := by
  subst heard
  have fits : (addr.toNat % 64 = 0 && (data.isEmpty || (s.heard f y).freeDram addr.toNat data.length)) = true := by
    rw [decide_eq_true aligned, Bool.true_and, Bool.or_eq_true, List.isEmpty_iff]
    exact room
  exact runs_of_result rfl (by decide) accepted (require_ok idle (require_ok fits rfl))

/-- LOAD_IMAGE clears the program, writes the image and begins. -/
theorem runs_loadImage {addr : BitVec 48} {length : BitVec 64} {logical : BitVec 16} {digest : BitVec 256} {w : State}
    {bs : List Byte} {dig : BitVec 256} {plain : List Byte} {img : Image} (idle : z.noProgram = true)
    (aligned : addr.toNat % 64 = 0) (first : z.freeDram addr.toNat 1 = true) (nonempty : 1 ≤ length.toNat)
    (short_ : length.toNat < 2 ^ 48) (room : z.freeDram addr.toNat length.toNat = true) (number : logical.toNat < 4096)
    (staged : z.staged addr.toNat length.toNat = (w, some bs)) (same : Config.digest bs = digest)
    (opens : w.plainImage bs digest = some (dig, plain)) (parses : parseImage plain = some img)
    (checks : w.imageCheck img logical.toNat = .ok ()) (moves : w.receiptsMove (w.tablesOf img logical.toNat) = true)
    (accepted : Accepts s f { code := 0x11, roles := rolesOP, fabric := true } y) :
    let v := { w with stew := { w.stew with program := {}, state := if w.stew.state = 2 then 1 else w.stew.state } }
    Runs (.loadImage f addr length logical digest) s
      (((v.clearListed.writeImage true img logical.toNat).moveReceipts w.house.receiptCfg).begins f 0x11
        (.load dig img.req (logical.setWidth 12) (img.sections.filter fun x => x.ty != 4) (img.tiles logical.toNat))) := by
  subst heard
  have from_start : (addr.toNat % 64 = 0 && (s.heard f y).freeDram addr.toNat 1) = true := by
    rw [decide_eq_true aligned, first]; rfl
  have whole : (1 ≤ length.toNat && length.toNat < 2 ^ 48 && (s.heard f y).freeDram addr.toNat length.toNat) = true := by
    rw [decide_eq_true nonempty, decide_eq_true short_, room]; rfl
  refine runs_of_long rfl (by decide) accepted
    (require_ok idle (require_ok from_start (require_ok whole (require_ok (decide_eq_true number) ?_))))
  simp only [staged, opens, parses, checks]
  exact require_ok (decide_eq_true same) (require_ok moves rfl)

/-! ## Running (R438–R441) -/

theorem runs_arm (loaded : z.stew.program.digest.isSome = true) (idle : z.noProgram = true) (map : z.mapReady = true)
    (accepted : Accepts s f { code := 0x12, roles := rolesOP, fabric := true } y) :
    Runs (.arm f) s (z.armProgram.answers f 0x12 (bytesOf z.armProgram.logical.toNat 2)) := by
  subst heard
  have ready : ((s.heard f y).stew.program.digest.isSome && (s.heard f y).noProgram) = true := by rw [loaded, idle]; rfl
  exact runs_of_result rfl (by decide) accepted (require_ok ready (require_ok map rfl))

theorem runs_start {time : BitVec 64} (armed : z.stew.program.armed = true) (first : z.stew.program.started = false)
    (near : time.toNat ≤ z.stewardTime.toNat + 2 ^ 31)
    (accepted : Accepts s f { code := 0x13, roles := rolesOP, fabric := true } y) :
    Runs (.start f time) s ({ z with stew := { z.stew with
      program := { z.stew.program with started := true, startAt := some time } } }.answers f 0x13 []) := by
  subst heard
  have ready : ((s.heard f y).stew.program.armed && !(s.heard f y).stew.program.started) = true := by rw [armed, first]; rfl
  exact runs_of_result rfl (by decide) accepted (require_ok ready (require_ok (decide_eq_true near) rfl))

theorem runs_replay {count : BitVec 32} (armed : z.stew.program.armed = true) (started : z.stew.program.started = true)
    (accepted : Accepts s f { code := 0x14, roles := rolesOP, fabric := true } y) :
    Runs (.replay f count) s ({ z with stew := { z.stew with program := { z.stew.program with
      remaining := if count = 0 then none else some count.toNat } } }.answers f 0x14 []) := by
  subst heard
  have ready : ((s.heard f y).stew.program.armed && (s.heard f y).stew.program.started) = true := by rw [armed, started]; rfl
  exact runs_of_result rfl (by decide) accepted (require_ok ready rfl)

theorem runs_patch {x : PatchPart} {w : State} (taken : z.patchPart f.mb.toNat x = (w, .ok))
    (accepted : Accepts s f { code := 0x15, roles := rolesOP } y) : Runs (.patch f x) s (w.answers f 0x15 []) := by
  subst heard
  refine runs_of_result rfl (by decide) accepted ?_
  simp only [taken]
  rfl

section
variable (armed : z.stew.program.armed = true)
include armed

theorem runs_stop (reset : Bool) (accepted : Accepts s f { code := 0x16, roles := rolesOP } y) :
    let a := z.abort 0x86 (f.mb.setWidth 32)
    Runs (.stop f reset) s ((if reset then a.askReset .stop else a).answers f 0x16 []) := by
  subst heard
  exact runs_of_result rfl (by decide) accepted (require_ok armed rfl)

theorem runs_hold_on (accepted : Accepts s f { code := 0x17, roles := rolesOP } y) :
    Runs (.hold f true) s (({ z with stew := { z.stew with holdAsked := true } }.requestHold .steward z.fab.scc).answers
      f 0x17 []) := by
  subst heard
  exact runs_of_result rfl (by decide) accepted (require_ok armed rfl)

/-- A steward hold that no coin count needs is released. -/
theorem runs_hold_off (counted : z.countWaits = false) (accepted : Accepts s f { code := 0x17, roles := rolesOP } y) :
    Runs (.hold f false) s ({ z with
      stew := { z.stew with holdAsked := false }
      fab := { z.fab with hold := { z.fab.hold with stewardOff := some z.clk.clk } } }.answers f 0x17 []) := by
  subst heard
  exact runs_of_result rfl (by decide) accepted
    (require_ok armed (congrArg (fun t => Except.ok (t, Done.result [])) (if_neg (Bool.eq_false_iff.mp counted))))

end

/-- SET_STEP asks for the step; its reply waits for a relock with no program armed. -/
theorem runs_setStep {step : BitVec 8} {w : State} (range : step.toNat < 8) (safe : z.clk.safeStep.toNat ≤ step.toNat)
    (follows : { z with clk := { z.clk with askedStep := some (step.setWidth 3) } }.followStep = w)
    (accepted : Accepts s f { code := 0x20, roles := rolesOPS, fabric := true } y) :
    ((w.stew.program.armed = true ∨ w.fab.hold.step = false) → Runs (.setStep f step) s (w.answers f 0x20 []))
    ∧ (w.stew.program.armed = false → w.fab.hold.step = true → Runs (.setStep f step) s
      ({ w with stew := { w.stew with stepReplies := w.stew.stepReplies ++ [(f.mb, f.tag)] } }.count .steward 0xA6 0 1)) := by
  subst heard follows
  have allowed : (step.toNat < 8 && (s.heard f y).clk.safeStep.toNat ≤ step.toNat) = true := by
    rw [decide_eq_true range, decide_eq_true safe]; rfl
  refine ⟨fun now => runs_of_result rfl (by decide) accepted (require_ok allowed (if_neg ?_)),
    fun idle relocks => runs_of_later rfl (by decide) accepted (require_ok allowed (if_pos ?_))⟩
  · rcases now with armed | settled
    · rw [State.noProgram, armed]; exact Bool.false_ne_true
    · rw [settled, Bool.and_false]; decide
  · rw [State.noProgram, idle, relocks]; rfl

theorem runs_reset (accepted : Accepts s f { code := 0x37, roles := rolesOPS } y) :
    Runs (.reset f 1) s ((z.askWarm 1).answers f 0x37 []) := by
  subst heard
  exact runs_of_result rfl (by decide) accepted (require_ok rfl rfl)

end
end

end Sys2Proof.Machine

open Sys2Proof Sys2Proof.Machine

/-- Settles O40, one command after another. -/
theorem runCommandsComplete : Obligations.RunCommandsComplete := by
  intro s f y z on run p
  exact ⟨fun a => runs_of_result rfl (by decide) a rfl, fun offset => runs_lastResult offset,
    fun a => runs_of_result rfl (by decide) a rfl, fun a => runs_of_long rfl (by decide) a rfl,
    fun addr data idle aligned room => runs_stage rfl idle aligned room,
    fun addr length logical digest w bs dig plain img idle aligned first nonempty short_ room number staged same opens parses
      checks moves => runs_loadImage rfl idle aligned first nonempty short_ room number staged same opens parses checks moves,
    runs_arm rfl, fun time => runs_start rfl, fun count => runs_replay rfl,
    fun due => congrArg Host.Outcome.next (if_pos due), fun x w => runs_patch rfl,
    fun armed => ⟨runs_stop rfl armed false, runs_stop rfl armed true, runs_hold_on rfl armed, runs_hold_off rfl armed⟩,
    fun step range safe => ⟨fun now a => (runs_setStep rfl range safe rfl a).1 now,
      fun idle relocks a => (runs_setStep rfl range safe rfl a).2 idle relocks⟩, runs_reset rfl⟩
end

section
/-!
O41: the configuration commands, each by the checks of its body and what it writes.
-/
namespace Sys2Proof.Machine

/-- A step of a command's body that succeeds lets the rest decide. -/
theorem bind_of_ok {α β : Type} {m : Except Refused α} {a : α} {next : α → Except Refused β} {x : Except Refused β}
    (succeeds : m = .ok a) (rest : next a = x) : (m >>= next) = x := by
  rw [succeeds]
  exact rest

/-! ## Tables (R379, R380) -/

theorem tableRange_ok {first : BitVec 16} {es : List (BitVec 32)} (start : first.toNat < 4096) (some_ : 1 ≤ es.length)
    (few : es.length ≤ 1024) (inside : first.toNat + es.length ≤ 4096) : tableRange first es = .ok () := by
  have range : (1 ≤ es.length && es.length ≤ 1024 && first.toNat + es.length ≤ 4096) = true := by
    rw [decide_eq_true some_, decide_eq_true few, decide_eq_true inside]; rfl
  exact require_ok (decide_eq_true start) (if_pos range)

/-- A route over present links names links of the device. -/
theorem routeForm_of_routeOk {grade : BitVec 2} {e : BitVec 32} (present : routeOk grade e = true) : routeForm e = true := by
  rw [routeOk, List.all_eq_true] at present
  rw [routeForm, List.all_eq_true]
  intro c choice
  have link := present c choice
  rw [linkIn, Bool.and_eq_true] at link
  exact link.1

theorem all_routeForm {grade : BitVec 2} {es : List (BitVec 32)} (present : es.all (routeOk grade) = true) :
    es.all routeForm = true := by
  rw [List.all_eq_true] at present ⊢
  exact fun e listed => routeForm_of_routeOk (present e listed)

section
variable {s : State} {f : Frame} {y : Session} {z : State} (heard : s.heard f y = z)
include heard

/-! ## HEATH_ID, ports and tables (R364–R366, R379, R393) -/

theorem runs_setHeathId {phys : BitVec 16} (idle : z.noProgram = true) (range : phys.toNat < 4096)
    (accepted : Accepts s f { code := 0x21, roles := rolesOPS } y) :
    Runs (.setHeathId f phys) s (({ z with heath := { z.heath with
      id := phys.setWidth 12
      links := z.heath.links.map fun (k : Nat × Link) => (k.1, if k.2.st = 3 then { k.2 with resetting := true } else k.2) } }.measureFrame
        (bytesOf phys.toNat 2)).answers f 0x21 []) := by
  subst heard
  exact runs_of_result rfl (by decide) accepted (require_ok idle (require_ok (decide_eq_true range) rfl))

theorem runs_setPort {port sub : BitVec 8} {cfg : BitVec 64} (ipv4 : BitVec 32) (ipv6 : BitVec 256) (idle : z.noProgram = true)
    (portRange : port.toNat < 2) (subRange : sub.toNat < 4) (there : z.subIn (port = 1) (sub.setWidth 2) = true)
    (allowed : portCfgOk sub.toNat cfg = true) (accepted : Accepts s f { code := 0x22, roles := rolesOP } y) :
    let w := z.configPort (port = 1) (sub.setWidth 2) cfg
    Runs (.setPort f port sub cfg ipv4 ipv6) s
      (((w.setSub (port = 1) (sub.setWidth 2)
          { w.subPort (port = 1) (sub.setWidth 2) with ipv4 := ipv4, ipv6 := ipv6 }).measureFrame
        ([port, sub] ++ bytesOf cfg.toNat 8 ++ bytesOf ipv4.toNat 4 ++ bytesOf ipv6.toNat 32)).answers f 0x22 []) := by
  subst heard
  have exists_ : (sub.toNat < 4 && (s.heard f y).subIn (port = 1) (sub.setWidth 2)) = true := by
    rw [decide_eq_true subRange, there]; rfl
  exact runs_of_result rfl (by decide) accepted
    (require_ok idle (require_ok (decide_eq_true portRange) (require_ok exists_ (require_ok allowed rfl))))

section
variable {first : BitVec 16} {es : List (BitVec 32)} (stands : z.anyRun = false) (range : tableRange first es = .ok ())
  (accepted : Accepts s f { code := 0x23, roles := rolesOPS } y)
include stands range accepted

theorem runs_heathTablesRoute (present : es.all (routeOk z.grade) = true) :
    Runs (.heathTablesRoute f first es) s
      (({ z with heath := { z.heath with route := putTable z.heath.route first.toNat es } }.measureFrame
        (tableData 1 first es)).answers f 0x23 []) := by
  subst heard
  have still : (!(s.heard f y).anyRun) = true := by rw [stands]; rfl
  exact runs_of_result rfl (by decide) accepted
    (require_ok still (bind_of_ok range (require_ok (all_routeForm present) (require_ok present rfl))))

/-- A route over an absent link is refused. -/
theorem runs_heathTablesRoute_absent (form : es.all routeForm = true) (missing : es.all (routeOk z.grade) = false) :
    Runs (.heathTablesRoute f first es) s (z.complete f.mb f.tag 0x23 (absent 7) []) := by
  subst heard
  have still : (!(s.heard f y).anyRun) = true := by rw [stands]; rfl
  exact runs_of_refusal rfl (by decide) accepted
    (require_ok still (bind_of_ok range (require_ok form (require_refuses missing))))

/-- The bank that is not selected is written. -/
theorem runs_heathTablesDevmap :
    let kept := es.map fun e => e &&& 0x80000FFF
    Runs (.heathTablesDevmap f first es) s (({ z with heath := { z.heath with
        devmapA := if z.heath.devSel then putTable z.heath.devmapA first.toNat kept else z.heath.devmapA
        devmapB := if z.heath.devSel then z.heath.devmapB else putTable z.heath.devmapB first.toNat kept } }.measureFrame
          (tableData 2 first es)).answers f 0x23 []) := by
  subst heard
  have still : (!(s.heard f y).anyRun) = true := by rw [stands]; rfl
  exact runs_of_result rfl (by decide) accepted (require_ok still (bind_of_ok range rfl))

end

theorem runs_heathTablesSelect {bank : BitVec 8} (free : z.selectFree = true) (range : bank.toNat < 2)
    (apart : oneToOne (if bank = 1 then z.heath.devmapB else z.heath.devmapA) = true)
    (accepted : Accepts s f { code := 0x23, roles := rolesOPS } y) :
    Runs (.heathTablesSelect f bank) s (({ z with heath := { z.heath with devSel := bank = 1 } }.measureFrame
      [3, 0, 0, 0, 0, 0, 0, 0, bank]).answers f 0x23 []) := by
  subst heard
  have valid : (bank.toNat < 2 && oneToOne (if bank = 1 then (s.heard f y).heath.devmapB else (s.heard f y).heath.devmapA))
      = true := by
    rw [decide_eq_true range, apart]; rfl
  exact runs_of_result rfl (by decide) accepted (require_ok free (require_ok valid rfl))

/-! ## Channels (R307, R444) -/

/-- The channel as it opens, with its coins held. -/
def State.openChannel (s : State) (c : Nat) (entry : Line) (coins : BitVec 24) : State :=
  s.modChan c fun x => { x with
    entry := entry ||| 0x800, head := 0, err := false, retin := 0, spillu := 0, spillFresh := 0, spillFree := []
    retNext := 0, retWait := [], held := coins }

section
variable {chan : BitVec 16} {entry : Line} (range : chan.toNat < 16383) (allowed : z.chanOk entry = true)
  (unused : chanKind (z.chan chan.toNat).entry = 0) (accepted : Accepts s f { code := 0x24, roles := rolesOP } y)
include range allowed unused accepted

/-- A memory or signal channel opens with no coins. -/
theorem runs_channelOpen_plain (kind : chanKind entry = 1 ∨ chanKind entry = 2) (remote : Option Bool) :
    Runs (.channelOpen f chan entry remote) s
      ((((z.openChannel chan.toNat entry 0).mapChannel chan.toNat).measureFrame
        (chanData 1 chan (bytesOf entry.toNat 64))).answers f 0x24 []) := by
  subst heard
  have used : chanKind entry ≠ 0 := by omega
  have single : chanKind entry ≠ 4 := by omega
  have ring : chanKind entry ≠ 3 := by omega
  have valid : (chanKind entry != 0 && (s.heard f y).chanOk entry && (chanKind entry != 4
      || ((s.heard f y).members entry).all fun m => chanKind ((s.heard f y).chan m).entry = 3)) = true := by
    rw [bne_iff_ne.mpr used, allowed, bne_iff_ne.mpr single]; rfl
  refine runs_of_result rfl (by decide) accepted
    (require_ok (decide_eq_true range) (require_ok valid (require_ok (decide_eq_true unused) ?_)))
  simp only [decide_eq_false ring, Bool.false_and, Bool.false_eq_true, if_false]
  rfl

/-- A ring to this device restarts its ring end and opens with its coins held. -/
theorem runs_channelOpen_ring (kind : chanKind entry = 3) (own : chanDev entry = z.logical) {remote : Option Bool}
    (matching : z.ringMatches chan.toNat entry remote = true) :
    Runs (.channelOpen f chan entry remote) s
      (((((z.restartRing (chanRendDie entry).toNat (chanRendIndex entry).toNat).openChannel chan.toNat entry
        (BitVec.ofNat 24 (chanRcoins entry))).mapChannel chan.toNat).measureFrame
          (chanData 1 chan (bytesOf entry.toNat 64))).answers f 0x24 []) := by
  subst heard
  have valid : (chanKind entry != 0 && (s.heard f y).chanOk entry && (chanKind entry != 4
      || ((s.heard f y).members entry).all fun m => chanKind ((s.heard f y).chan m).entry = 3)) = true := by
    rw [kind, allowed]; rfl
  refine runs_of_result rfl (by decide) accepted
    (require_ok (decide_eq_true range) (require_ok valid (require_ok (decide_eq_true unused) ?_)))
  simp only [kind, own, matching, decide_true, bne_self_eq_false, Bool.and_false, Bool.not_true, Bool.false_eq_true, if_false,
    Bool.and_self, if_true]
  rfl

end

section
variable {chan : BitVec 16} (range : chan.toNat < 16383) (accepted : Accepts s f { code := 0x24, roles := rolesOP } y)
include range accepted

/-- A ring whose coins are not all held, or may not be retired, stays open. -/
theorem runs_channelClose_denied (kind : chanKind (z.chan chan.toNat).entry = 3 ∨ chanKind (z.chan chan.toNat).entry = 4)
    (open_ : z.ringsClose = false ∨ z.allHeld (z.chan chan.toNat) = false) :
    Runs (.channelClose f chan) s (z.complete f.mb f.tag 0x24 (denied 2) []) := by
  subst heard
  have first : chanKind ((s.heard f y).chan chan.toNat).entry ≠ 1 := by omega
  have second : chanKind ((s.heard f y).chan chan.toNat).entry ≠ 2 := by omega
  have waits : ((s.heard f y).ringsClose && (s.heard f y).allHeld ((s.heard f y).chan chan.toNat)) = false := by
    rcases open_ with h | h <;> simp [h]
  refine runs_of_refusal rfl (by decide) accepted (require_ok (decide_eq_true range) (require_refuses ?_))
  rw [decide_eq_false first, decide_eq_false second, waits]
  exact Bool.and_false _

/-- A channel closes: its transfers complete, and the rest of it is gone. -/
theorem runs_channelClose (free : chanKind (z.chan chan.toNat).entry = 1 ∨ chanKind (z.chan chan.toNat).entry = 2
      ∨ ((chanKind (z.chan chan.toNat).entry = 3 ∨ chanKind (z.chan chan.toNat).entry = 4) ∧ z.ringsClose = true
        ∧ z.allHeld (z.chan chan.toNat) = true)) :
    let x := z.chan chan.toNat
    Runs (.channelClose f chan) s
      ((((z.setChan chan.toNat { nextTid := x.nextTid, transfers := x.transfers, waiting := x.waiting }).mapChannel
        chan.toNat).measureFrame (chanData 0 chan [])).answers f 0x24 []) := by
  subst heard
  have used : chanKind ((s.heard f y).chan chan.toNat).entry ≠ 0 := by omega
  have closes : (chanKind ((s.heard f y).chan chan.toNat).entry != 0 && (chanKind ((s.heard f y).chan chan.toNat).entry = 1
      || chanKind ((s.heard f y).chan chan.toNat).entry = 2
      || ((s.heard f y).ringsClose && (s.heard f y).allHeld ((s.heard f y).chan chan.toNat)))) = true := by
    rw [bne_iff_ne.mpr used, Bool.true_and]
    rcases free with h | h | ⟨-, closes, held⟩
    · simp [h]
    · simp [h]
    · simp [closes, held]
  exact runs_of_result rfl (by decide) accepted (require_ok (decide_eq_true range) (require_ok closes rfl))

end

/-! ## Ring ends (R308, R317) -/

section
variable {index : BitVec 16} (range : index.toNat / 1024 < 4) (accepted : Accepts s f { code := 0x24, roles := rolesOP } y)
include range accepted

theorem runs_ringEndOpen {entry : BitVec 256} (coined : rendCoins entry ≠ 0) (allowed : z.rendOk entry = true)
    (unused : rendCoins (z.ringEnd (index.toNat / 1024) (index.toNat % 1024)).entry = 0) :
    Runs (.ringEndOpen f index entry) s (((z.openRing (index.toNat / 1024) (index.toNat % 1024) entry).measureFrame
      (chanData 3 index (bytesOf entry.toNat 32))).answers f 0x24 []) := by
  subst heard
  have valid : (rendCoins entry != 0 && (s.heard f y).rendOk entry) = true := by rw [bne_iff_ne.mpr coined, allowed]; rfl
  exact runs_of_result rfl (by decide) accepted
    (require_ok (decide_eq_true range) (require_ok valid (require_ok (decide_eq_true unused) rfl)))

/-- A ring end of this device's own ring closes with nothing lodged, once its channel is closed. -/
theorem runs_ringEndClose {r : RingEnd} (here : z.ringEnd (index.toNat / 1024) (index.toNat % 1024) = r)
    (closes : z.ringsClose = true) (coined : rendCoins r.entry ≠ 0) (empty : r.lodged = 0) (own : rendDev r.entry = z.logical)
    (closed : chanKind (z.chan (rendChan r.entry).toNat).entry = 0) (remote : Bool) :
    Runs (.ringEndClose f index remote) s
      (((z.setRingEnd (index.toNat / 1024) (index.toNat % 1024) {}).measureFrame (chanData 2 index [])).answers f 0x24 []) := by
  subst heard
  refine runs_of_result rfl (by decide) accepted (require_ok (decide_eq_true range) ?_)
  simp only [here, own, closes, closed, empty, bne_iff_ne.mpr coined, decide_true, Bool.and_self, if_true]
  rfl

end

/-! ## Banks and tills (R234, R302) -/

theorem runs_fallow {tile mask : BitVec 16} (range : tile.toNat < 768) (present : tileIn z.grade tile.toNat = true)
    (stands : z.anyRun = false) (accepted : Accepts s f { code := 0x25, roles := rolesOP } y) :
    Runs (.fallow f tile mask) s (((z.setFallow tile.toNat mask).measureFrame
      (bytesOf tile.toNat 2 ++ bytesOf mask.toNat 2)).answers f 0x25 []) := by
  subst heard
  have still : (!(s.heard f y).anyRun) = true := by rw [stands]; rfl
  exact runs_of_result rfl (by decide) accepted
    (require_ok (decide_eq_true range) (require_ok present (require_ok still rfl)))

theorem runs_tillsRead {till : BitVec 16} {count : BitVec 32} (range : till.toNat < 32768) (some_ : 1 ≤ count.toNat)
    (few : count.toNat ≤ 256) (inside : till.toNat + count.toNat ≤ 32768)
    (accepted : Accepts s f { code := 0x26, roles := rolesOPA } y) :
    Runs (.tillsRead f till count) s (z.answers f 0x26
      ((List.range count.toNat).flatMap fun i => bytesOf (z.tillRead (BitVec.ofNat 15 (till.toNat + i))).toNat 4)) := by
  subst heard
  have length : (1 ≤ count.toNat && count.toNat ≤ 256 && till.toNat + count.toNat ≤ 32768) = true := by
    rw [decide_eq_true some_, decide_eq_true few, decide_eq_true inside]; rfl
  exact runs_of_result rfl (by decide) accepted (require_ok (decide_eq_true range) (require_ok length rfl))

theorem runs_tillsSet {till : BitVec 16} {value : BitVec 32} (range : till.toNat < 32768)
    (free : z.returnTill (till.setWidth 15) = none) (accepted : Accepts s f { code := 0x26, roles := rolesOP } y) :
    Runs (.tillsSet f till value) s ((z.setByHand (till.setWidth 15) value (z.requester f.mb.toNat).1
      (z.requester f.mb.toNat).2).answers f 0x26 []) := by
  subst heard
  have settable : (till.toNat < 32768 && ((s.heard f y).returnTill (till.setWidth 15)).isNone) = true := by
    rw [decide_eq_true range, free]; rfl
  exact runs_of_result rfl (by decide) accepted (require_ok settable rfl)

end

end Sys2Proof.Machine

open Sys2Proof Sys2Proof.Machine

/-- Settles O41, one command after another. -/
theorem configurationCommandsComplete : Obligations.ConfigurationCommandsComplete := by
  intro s f y z on wide run h
  refine ⟨fun phys => runs_setHeathId rfl, fun port sub cfg ipv4 ipv6 => runs_setPort rfl ipv4 ipv6, ?tables,
    fun bank => runs_heathTablesSelect rfl, fun chan entry remote range kind allowed unused a =>
      runs_channelOpen_plain rfl range allowed unused a kind remote,
    fun chan entry remote range kind allowed unused own matching a =>
      runs_channelOpen_ring rfl range allowed unused a kind own matching,
    fun chan range => ⟨fun kind open_ a => runs_channelClose_denied rfl range a kind open_,
      fun free a => runs_channelClose rfl range a free⟩,
    fun index entry remote range => ⟨fun coined allowed unused a => runs_ringEndOpen rfl range a coined allowed unused,
      fun closes coined empty own closed a => runs_ringEndClose rfl range a rfl closes coined empty own closed remote⟩,
    fun tile mask => runs_fallow rfl, fun till count => runs_tillsRead rfl, fun till value => runs_tillsSet rfl⟩
  intro first es stands start some_ few inside kept
  have range := tableRange_ok start some_ few inside
  exact ⟨fun present a => runs_heathTablesRoute rfl stands range a present,
    fun form missing a => runs_heathTablesRoute_absent rfl stands range a form missing,
    fun a => runs_heathTablesDevmap rfl stands range a⟩
end

section
/-!
O42: the long commands of survival and trust, each by the checks of its body and the operation that it begins.
-/
namespace Sys2Proof.Machine

/-! ## Signatures and staged images (R452, R453) -/

theorem verifies_iff {g : Signature} {key : BitVec 15616} {context : String} {bs : List Byte} :
    verifies g key context bs = true ↔ g = { key := key, context := ascii context, bytes := bs } := by
  cases g
  simp only [verifies, Bool.and_eq_true, decide_eq_true_eq, Signature.mk.injEq, and_assoc]

theorem FwSlot.countersigned_iff {x : FwSlot} {owner : BitVec 15616} :
    x.countersigned owner = true ↔ x.osig = some { key := owner, context := ascii "SG4-FW-OWNER", bytes := x.header } := by
  simp only [FwSlot.countersigned, Option.any_eq_true, verifies_iff, exists_eq_right]

/-- A slot with a body and a signature is genuine when its root key, its SVN, its digest and its signature are right. -/
theorem FwSlot.genuine_iff {x : FwSlot} {rollback : BitVec 7} {body : List Byte} {esig : Signature} (has : x.body = some body)
    (signed : x.esig = some esig) : x.genuine rollback = true ↔
      keyDigest x.rootKey = rootDigest ∧ rollback.toNat ≤ x.svn.toNat ∧ Config.digest body = x.digest
        ∧ esig = { key := x.rootKey, context := ascii "SG4-FW", bytes := x.header } := by
  simp only [FwSlot.genuine, has, signed, Option.any_some, Bool.and_eq_true, decide_eq_true_eq, verifies_iff, and_assoc]

theorem natOf_lt (bs : List Byte) : natOf bs < 256 ^ bs.length := by
  induction bs with
  | nil => exact Nat.one_pos
  | cons b bs ih =>
    have byte := b.isLt
    rw [natOf, List.length_cons, pow_succ]
    omega

theorem natOf_take_lt (bs : List Byte) (n : Nat) : natOf (bs.take n) < 256 ^ n :=
  (natOf_lt _).trans_le (Nat.pow_le_pow_right (by decide) (bs.length_take_le n))

/-- The SVN of a staged image is its byte 8. -/
theorem FwSlot.ofImage_svn (bs : List Byte) (esig osig : Signature) :
    (FwSlot.ofImage bs esig osig).svn.toNat = natOf ((bs.drop 8).take 1) :=
  Nat.mod_eq_of_lt (natOf_take_lt _ 1)

/-- The length of a staged image is its bytes 16 to 23. -/
theorem FwSlot.ofImage_length (bs : List Byte) (esig osig : Signature) :
    (FwSlot.ofImage bs esig osig).length.toNat = natOf ((bs.drop 16).take 8) :=
  Nat.mod_eq_of_lt (natOf_take_lt _ 8)

/-- Two checks with one refusal are one check. -/
theorem require_and {α : Type} {a b : Bool} {r : Refused} {next : Except Refused α} :
    (require a r >>= fun _ => require b r >>= fun _ => next) = (require (a && b) r >>= fun _ => next) := by
  cases a <;> rfl

section
variable {s : State} {f : Frame} {y : Session} {z : State} (heard : s.heard f y = z)
include heard

/-! ## Snapshots and restores (R485, R492–R494, R500) -/

theorem runs_snapshotPlan {plan : Line} {phys : BitVec 12} {img : BitVec 256} (loaded : z.stew.program.digest = some img)
    (idle : z.noProgram = true) (valid : z.planOk plan = true) (clear : z.planClear plan = true)
    (granary : planSnap plan = true → z.surv.granUp = true ∧ Config.slotHolds z.surv.granChan (planSize plan) = true)
    (buddy : z.physOf (planBuddy plan) = some phys) {w : State}
    (sent : z.sendControl phys none 5 (bytesOf plan.toNat 64 ++ bytesOf img.toNat 32
      ++ [z.grade.setWidth 8, z.stew.feedId.setWidth 8]) = w)
    (accepted : Accepts s f { code := 0x30, roles := rolesOP } y) : Runs (.snapshotPlan f plan) s
      (State.begins { w with surv := { w.surv with asked := some plan } } f 0x30 (.plan none)) := by
  subst heard sent
  have ready : ((s.heard f y).stew.program.digest.isSome && (s.heard f y).noProgram) = true := by rw [loaded, idle]; rfl
  have keeps : (!planSnap plan || ((s.heard f y).surv.granUp && Config.slotHolds (s.heard f y).surv.granChan (planSize plan))) = true := by
    cases snap : planSnap plan
    · rfl
    · obtain ⟨up, holds⟩ := granary snap
      rw [up, holds]; rfl
  have answers : ((s.heard f y).planOk plan && (s.heard f y).planClear plan && (!planSnap plan || ((s.heard f y).surv.granUp
      && Config.slotHolds (s.heard f y).surv.granChan (planSize plan)))) = true := by rw [valid, clear, keeps]; rfl
  refine runs_of_long rfl (by decide) accepted (require_ok ready (require_ok answers ?_))
  simp only [buddy, loaded]

section
variable (armed : z.stew.program.armed = true) (snaps : z.surv.plan.any planSnap = true) (up : z.surv.granUp = true)
  (accepted : Accepts s f { code := 0x30, roles := rolesOP } y)
include armed snaps up accepted

theorem runs_snapshotTake : Runs (.snapshotTake f) s (z.askSnapshot.begins f 0x30 (.take none)) := by
  subst heard
  have ready : ((s.heard f y).stew.program.armed && (s.heard f y).surv.plan.any planSnap) = true := by rw [armed, snaps]; rfl
  exact runs_of_long rfl (by decide) accepted (require_ok ready (require_ok up rfl))

end

theorem runs_snapshotList (up : z.surv.granUp = true) (accepted : Accepts s f { code := 0x30, roles := rolesOP } y) :
    Runs (.snapshotList f) s (z.begins f 0x30 .list) := by
  subst heard
  exact runs_of_long rfl (by decide) accepted (require_ok up rfl)

theorem runs_snapshotSpare {addr : BitVec 48} {length : BitVec 64} (digest : BitVec 256) (idle : z.noProgram = true)
    (first : z.freeDram addr.toNat 1 = true) (nonempty : 1 ≤ length.toNat) (short_ : length.toNat < 2 ^ 48)
    (room : z.freeDram addr.toNat length.toNat = true) (accepted : Accepts s f { code := 0x30, roles := rolesOP } y) :
    Runs (.snapshotSpare f addr length digest) s (z.begins f 0x30 (.spare addr length digest)) := by
  subst heard
  have whole : (1 ≤ length.toNat && length.toNat < 2 ^ 48 && (s.heard f y).freeDram addr.toNat length.toNat) = true := by
    rw [decide_eq_true nonempty, decide_eq_true short_, room]; rfl
  exact runs_of_long rfl (by decide) accepted (require_ok idle (require_ok first (require_ok whole rfl)))

theorem runs_snapshotTwin {twin : BitVec 16} (loaded : z.stew.program.digest.isSome = true)
    (range : (twin.toNat < 4096 || twin = 0xFFFF) = true) (accepted : Accepts s f { code := 0x30, roles := rolesOP } y) :
    Runs (.snapshotTwin f twin) s
      (z.begins f 0x30 (.twin (if twin = 0xFFFF then none else some (twin.setWidth 12)))) := by
  subst heard
  exact runs_of_long rfl (by decide) accepted (require_ok loaded (require_ok range rfl))

theorem runs_restore {step : BitVec 64} {b : Bool} (planned : z.surv.plan.isSome = true) (idle : z.noProgram = true)
    (up : z.surv.granUp = true) (slot : z.restoreSlot step = some b)
    (accepted : Accepts s f { code := 0x31, roles := rolesOP, fabric := true } y) :
    Runs (.restore f step) s (z.begins f 0x31 (.restore b)) := by
  subst heard
  have ready : ((s.heard f y).surv.plan.isSome && (s.heard f y).noProgram) = true := by rw [planned, idle]; rfl
  refine runs_of_long rfl (by decide) accepted (require_ok ready (require_ok up ?_))
  simp only [slot]

/-! ## Attestation, enrolment and firmware (R453, R456–R460) -/

theorem runs_attest {part : BitVec 8} (nonce : BitVec 256) (range : part.toNat < 3)
    (accepted : Accepts s f { code := 0x32, roles := rolesAll, unowned := true } y) :
    Runs (.attest f nonce part) s (z.begins f 0x32 (.attest nonce part)) := by
  subst heard
  exact runs_of_long rfl (by decide) accepted (require_ok (decide_eq_true range) rfl)

/-- An ENROL form that needs an owner begins once its arguments are in order. -/
theorem runs_enrolForm {i : Instr} {form : BitVec 8} {x : EnrolArgs} {uses : List Nat}
    (is : exec i s = .next (s.enrolForm f form x uses)) (valid : enrolCheck x uses = .ok ())
    (accepted : Accepts s f { code := 0x33, roles := rolesO } y) :
    Runs i s (z.begins f 0x33 (.enrol form x 0 none none)) := by
  subst heard
  exact runs_of_long is (by decide) accepted (bind_of_ok valid rfl)

theorem runs_enrolOwner {x : EnrolArgs} {a b : Signature} {w : State} {bs : List Byte} {u : Session} (free : z.owned = false)
    (fuses : z.vault.gen.toNat ≤ 30) (idle : z.noProgram = true) (box : f.mb = 0) (valid : enrolCheck x [7] = .ok ())
    (room : z.freeDram x.staged.toNat 6618 = true) (staged : z.staged x.staged.toNat 6618 = (w, some bs))
    (session : z.boxSession f.mb = some u)
    (signed : (if w.vault.slotB then ownerSignature (bs.drop 3309) b else ownerSignature (bs.take 3309) a)
      = some { key := u.key, context := ascii "SG4-FW-OWNER",
               bytes := (Sparse.get ({} : FwSlot) w.vault.slots w.vault.slotB.toNat).header })
    (accepted : Accepts s f { code := 0x33, roles := rolesO, unowned := true } y) :
    Runs (.enrolOwner f x a b) s (w.begins f 0x33
      (.enrol 1 x u.key (ownerSignature (bs.take 3309) a) (ownerSignature (bs.drop 3309) b))) := by
  subst heard
  have first : (!(s.heard f y).owned && (s.heard f y).vault.gen.toNat ≤ 30 && (s.heard f y).noProgram && f.mb = 0) = true := by
    rw [free, decide_eq_true fuses, idle, decide_eq_true box]; rfl
  refine runs_of_long rfl (by decide) accepted (require_ok first (bind_of_ok valid (require_ok room ?_)))
  simp only [staged, session]
  exact require_ok (FwSlot.countersigned_iff.mpr signed) rfl

/-- What UPDATE_FW asks of a staged image of `length` bytes `bs`, read in a state that the fuses and the owner of `w` guard. -/
def State.imageGood (w : State) (length : BitVec 64) (bs : List Byte) (x : FwSlot) : Bool :=
  (natOf (bs.take 4) = 0x57465A45 && natOf ((bs.drop 9).take 7) = 0 && x.svn.toNat ≤ 64 && x.length.toNat = length.toNat - 8704)
    && x.genuine w.vault.rollback && (!w.owned || w.vault.enrolment.any fun e => x.countersigned e.owner)

section
variable {addr : BitVec 48} {length : BitVec 64} {esig osig : Signature} {w : State} {bs : List Byte}
  (first : z.freeDram addr.toNat (min length.toNat 8704) = true) (long : 8704 ≤ length.toNat)
  (short_ : length.toNat ≤ 12 * 2 ^ 20) (room : z.freeDram addr.toNat length.toNat = true)
  (staged : z.staged addr.toNat length.toNat = (w, some bs)) (accepted : Accepts s f { code := 0x34, roles := rolesO } y)
include first long short_ room staged accepted

theorem runs_updateFw (good : w.imageGood length bs (.ofImage bs esig osig) = true) :
    Runs (.updateFw f addr length esig osig) s (w.begins f 0x34 (.update (.ofImage bs esig osig))) := by
  subst heard
  have whole : (8704 ≤ length.toNat && length.toNat ≤ 12 * 2 ^ 20 && (s.heard f y).freeDram addr.toNat length.toNat) = true := by
    rw [decide_eq_true long, decide_eq_true short_, room]; rfl
  refine runs_of_long rfl (by decide) accepted (require_ok first (require_ok whole ?_))
  simp only [staged]
  exact require_and.trans (require_and.trans (require_ok good rfl))

theorem runs_updateFw_refused (bad : w.imageGood length bs (.ofImage bs esig osig) = false) :
    Runs (.updateFw f addr length esig osig) s (z.complete f.mb f.tag 0x34 (badArg 0) []) := by
  subst heard
  have whole : (8704 ≤ length.toNat && length.toNat ≤ 12 * 2 ^ 20 && (s.heard f y).freeDram addr.toNat length.toNat) = true := by
    rw [decide_eq_true long, decide_eq_true short_, room]; rfl
  refine runs_of_refusal rfl (by decide) accepted (require_ok first (require_ok whole ?_))
  simp only [staged]
  exact require_and.trans (require_and.trans (require_refuses bad))

end

/-! ## Zeroisation and return (R473–R475) -/

theorem runs_zeroise (accepted : Accepts s f { code := 0x35, roles := rolesO } y) :
    Runs (.zeroise f) s ((z.zeroiseBegins f.mb false).begins f 0x35 .zeroise) := by
  subst heard
  exact runs_of_long rfl (by decide) accepted rfl

theorem runs_prepareReturn (reason : BitVec 32) (rma : BitVec 64) (note : BitVec 2048)
    (accepted : Accepts s f { code := 0x36, roles := rolesO } y) : Runs (.prepareReturn f reason rma note) s
      ((z.zeroiseBegins f.mb true).begins f 0x36 (.retire (z.failRecord reason rma note))) := by
  subst heard
  exact runs_of_long rfl (by decide) accepted rfl

end

theorem State.imageGood_iff {w : State} {length : BitVec 64} {bs : List Byte} {esig osig : Signature} :
    w.imageGood length bs (.ofImage bs esig osig) = true ↔
      natOf ((bs.drop 0).take 4) = 0x57465A45 ∧ natOf ((bs.drop 9).take 7) = 0 ∧ natOf ((bs.drop 8).take 1) ≤ 64
        ∧ natOf ((bs.drop 16).take 8) = length.toNat - 8704
        ∧ keyDigest (FwSlot.ofImage bs esig osig).rootKey = rootDigest ∧ w.vault.rollback.toNat ≤ natOf ((bs.drop 8).take 1)
        ∧ Config.digest (bs.drop 8704) = (FwSlot.ofImage bs esig osig).digest
        ∧ esig = { key := (FwSlot.ofImage bs esig osig).rootKey, context := ascii "SG4-FW",
                   bytes := (FwSlot.ofImage bs esig osig).header }
        ∧ (w.owned = true → ∃ e, w.vault.enrolment = some e ∧ (FwSlot.ofImage bs esig osig).osig
          = some { key := e.owner, context := ascii "SG4-FW-OWNER", bytes := (FwSlot.ofImage bs esig osig).header }) := by
  have genuine := FwSlot.genuine_iff (x := FwSlot.ofImage bs esig osig) (rollback := w.vault.rollback) rfl rfl
  have owner : (!w.owned || w.vault.enrolment.any fun e => (FwSlot.ofImage bs esig osig).countersigned e.owner) = true ↔
      (w.owned = true → ∃ e, w.vault.enrolment = some e ∧ (FwSlot.ofImage bs esig osig).countersigned e.owner = true) := by
    rw [Bool.or_eq_true, Bool.not_eq_true', Option.any_eq_true, ← Bool.not_eq_true, ← imp_iff_not_or]
  simp only [FwSlot.countersigned_iff] at owner
  simp only [FwSlot.ofImage_svn] at genuine
  simp only [State.imageGood, Bool.and_eq_true, decide_eq_true_eq, genuine, owner, FwSlot.ofImage_svn, FwSlot.ofImage_length,
    List.drop_zero, and_assoc]

/-- A long operation that succeeds gives its data to its mailbox, and is over. -/
theorem runs_longOperationComplete {s w : State} {op : LongOp} {ok : Bool} {data : List Byte} (busy : s.stew.longOp = some op)
    (ends : s.finish op ok = some (w, .ok data)) : Runs (.longOperationComplete ok) s
      ({ w with stew := { w.stew with longOp := none } }.complete op.mailbox op.tag op.cmd (0, 0) data) := by
  change execLongOperationComplete ok s = _
  simp only [execLongOperationComplete, busy, ends]

end Sys2Proof.Machine

open Sys2Proof Sys2Proof.Machine

/-- Settles O42, one command after another. -/
theorem longCommandsBegin : Obligations.LongCommandsBegin := by
  intro s f y z on run owner
  refine ⟨?plan, fun armed snaps up => ⟨?leader, ?member⟩,
    runs_snapshotList rfl, fun addr length digest => runs_snapshotSpare rfl digest,
    fun loaded => ⟨fun a => runs_snapshotTwin rfl loaded rfl a, ?twin⟩, fun step b => runs_restore rfl,
    fun nonce part range a => runs_attest rfl nonce range a, ?enrol, ?update, runs_zeroise rfl,
    runs_prepareReturn rfl, fun op ok w data => runs_longOperationComplete⟩
  case plan =>
    intro plan phys img loaded idle valid clear granary buddy w a
    exact runs_snapshotPlan rfl loaded idle valid clear granary buddy rfl a
  case leader =>
    intro leads a
    have taken := runs_snapshotTake rfl armed snaps up a
    rwa [State.askSnapshot, if_pos leads] at taken
  case member =>
    intro p follows known a
    have taken := runs_snapshotTake rfl armed snaps up a
    rw [State.askSnapshot, if_neg (Bool.eq_false_iff.mp follows)] at taken
    rwa [known] at taken
  case twin =>
    intro twin range a
    have other : twin ≠ 0xFFFF := by rintro rfl; exact absurd range (by decide)
    have begins := runs_snapshotTwin rfl loaded (by rw [decide_eq_true range]; rfl) a
    rwa [if_neg other] at begins
  case enrol =>
    intro x
    refine ⟨?_, runs_enrolForm rfl rfl, runs_enrolForm rfl rfl, runs_enrolForm rfl rfl, runs_enrolForm rfl rfl⟩
    intro a b w bs u free fuses idle box valid room staged session given osigA osigB running signed accepted
    exact runs_enrolOwner rfl free fuses idle box valid room staged session signed accepted
  case update =>
    intro addr length w bs esig osig slot cut good i first long short_ room staged accepted
    refine ⟨fun holds => runs_updateFw rfl first long short_ room staged accepted (State.imageGood_iff.mpr holds),
      fun fails => runs_updateFw_refused rfl first long short_ room staged accepted ?_⟩
    exact Bool.eq_false_iff.mpr fun holds => fails (State.imageGood_iff.mp holds)
end

section
/-!
O43: the steward's own events, by the condition under which each acts; and the copies and drains that complete.
-/
namespace Sys2Proof.Machine

/-! ## Seals and aborts (R421, R442, R470) -/

section
variable {s : State}

theorem runs_sealDue (free : s.vault.sealWaiting = false) (some_ : 0 < s.unsealed)
    (due : 4096 ≤ s.unsealed ∨ s.vault.oldestAt + 10000 * usUnits ≤ s.clk.clk) : Runs .sealDue s s.sealNow := by
  have falls : (!s.vault.sealWaiting && 0 < s.unsealed
      && (4096 ≤ s.unsealed || s.passed s.vault.oldestAt (10000 * usUnits))) = true := by
    rw [free, decide_eq_true some_, State.passed, Bool.not_false, Bool.true_and, Bool.true_and, Bool.or_eq_true,
      decide_eq_true_eq, decide_eq_true_eq]
    exact due
  exact congrArg Host.Outcome.next (if_pos falls)

/-- The vault makes no seal after the loss of its reference. -/
theorem State.sealNow_lost (lost : (s.island 95).lost = true) : s.sealNow = s := by
  have none_ : (decide (s.vault.seq = s.vault.sealedNext) || (s.island 95).lost) = true := by rw [lost, Bool.or_true]
  exact if_pos none_

theorem runs_sealComplete (holds : (s.island 95).lost = false) : Runs .sealComplete s s.sealDone :=
  congrArg Host.Outcome.next (if_neg (Bool.eq_false_iff.mp holds))

theorem runs_sealComplete_lost (lost : (s.island 95).lost = true) : Runs .sealComplete s s :=
  congrArg Host.Outcome.next (if_pos lost)

theorem runs_firmwareAbort {a : AbortSource} {code : BitVec 8} {detail : BitVec 32} (first : s.stew.program.aborted = false)
    (error : s.abortOf a = some (code, detail)) : Runs (.firmwareAbort a) s (s.abort code detail) := by
  change execFirmwareAbort a s = _
  simp only [execFirmwareAbort, first, error, Bool.false_eq_true, if_false]

theorem runs_lockstepMismatch (booted : s.stew.booted = true) : Runs .lockstepMismatch s
    { s with
      vault := s.vault.tear (s.stew.longOp.map LongOp.work)
      stew := { s.stew with booted := false, longOp := none, stepReplies := [], lockstep := true
                            warmAsked := some s.clk.clk, warmBy := 2 } } := by
  have runs : (!s.stew.booted) = false := by rw [booted]; rfl
  exact congrArg Host.Outcome.next (if_neg (Bool.eq_false_iff.mp runs))

/-- A steward that does not run keeps no session of a mailbox. -/
theorem State.boxSession_stopped (stopped : s.stew.booted = false) : s.boxSession = fun _ => none :=
  funext fun _ => if_neg (Bool.eq_false_iff.mp stopped)

/-! ## Program resets (R510, R514) -/

theorem State.inService_of (booted : s.stew.booted = true)
    (serves : s.stew.state = 1 ∨ s.stew.state = 2 ∨ s.stew.state = 3 ∨ s.stew.state = 5) : s.inService = true := by
  rw [State.inService, booted]
  rcases serves with state | state | state | state <;> rw [state] <;> rfl

theorem runs_programReset (serves : s.inService = true) : Runs .programReset s s.tryReset :=
  congrArg Host.Outcome.next (if_pos serves)

section
variable {c : ResetCause} (asked : s.stew.resetAsked = some c)
include asked

/-- After the loss of a reference the reset does not wait for the tickets. -/
theorem State.tryReset_lost (lost : (s.island 92).lost = true ∨ (s.island 95).lost = true) :
    s.tryReset = s.programReset.afterReset c := by
  have gone : ((s.island 92).lost || (s.island 95).lost) = true := Bool.or_eq_true _ _ ▸ lost
  simp only [State.tryReset, asked, gone, if_true, Bool.true_or]

theorem State.tryReset_kept (house : (s.island 92).lost = false) (vault : (s.island 95).lost = false) :
    s.tryReset = if s.endTickets.ticketsEnded then s.endTickets.programReset.afterReset c else s.endTickets := by
  simp only [State.tryReset, asked, house, vault, Bool.or_self, Bool.false_eq_true, if_false, Bool.false_or]

end

theorem runs_programReset_idle (idle : s.stew.booted = false ∨ s.stew.resetAsked = none) : Runs .programReset s s := by
  refine congrArg Host.Outcome.next ?_
  rcases idle with stopped | none_
  · exact if_neg (by rw [State.inService, stopped]; exact Bool.false_ne_true)
  · rw [State.tryReset, none_]
    exact ite_self _

/-! ## Zeroisation (R473) -/

section
variable (zeroising : s.zeroising = true) (record : s.vault.zrecord = true)
include zeroising record

theorem State.zeroiseStep_marks (unmarked : s.vault.zmarker = false) (all : s.allSealed = true)
    (offered : s.vault.sealedAt + 100000 * usUnits ≤ s.clk.clk) :
    s.zeroiseStep = { s with vault := { s.vault with zmarker := true } } := by
  have time : s.passed s.vault.sealedAt (100000 * usUnits) = true := decide_eq_true offered
  simp only [State.zeroiseStep, zeroising, record, unmarked, all, time, Bool.not_true, Bool.not_false, Bool.false_eq_true,
    if_false, if_true, Bool.and_self]

theorem State.zeroiseStep_blows (marked : s.vault.zmarker = true) (owned : s.owned = true) :
    s.zeroiseStep = { s.nextGeneration with
      vault := { s.nextGeneration.vault with enrolment := none, otherCopy := none } } := by
  simp only [State.zeroiseStep, zeroising, record, marked, owned, Bool.not_true, Bool.false_eq_true, if_false, if_true]

end

/-- A fuse that is blown turns an owned generation into one without an owner. -/
theorem not_owned_succ {gen : BitVec 6} (owned : gen.getLsbD 0 = true) : (gen + 1).getLsbD 0 = false := by
  revert gen
  decide

/-! ## Bulk copies (R487) -/

theorem runs_bulkCopy {own his : Line} {w : State} {c : Nat} (plan : s.surv.plan = some own)
    (partner : s.surv.partnerPlan = some his) (begun : s.begun = true) (goes : s.stew.program.aborted = false)
    (risen : s.surv.ctillSeen.toInt < (s.till (planTill own).toNat).toInt) (idle : s.surv.copying = none)
    (channel : s.copyChannel (planBuddy own) (planBuddyBase his) (2 * planSize own + planStaticSize own) = (w, some c)) {v u : State}
    (state : w.sendPieces c (planState own (s.surv.stepRun.getLsbD 0))
      (planBuddyBase his + if s.surv.stepRun.getLsbD 0 then planSize own else 0) (planSize own / 256) = v)
    (static : (if v.surv.staticCopied then v
      else v.sendPieces c (planStatic own) (planBuddyBase his + 2 * planSize own) (planStaticSize own / 256)) = u) :
    Runs .bulkCopy s { u with surv := { u.surv with
      copying := some s.surv.stepRun, ctillSeen := s.till (planTill own).toNat, staticCopied := true } } := by
  have due : (!s.begun || s.stew.program.aborted || (s.till (planTill own).toNat).toInt ≤ s.surv.ctillSeen.toInt
      || s.surv.copying.isSome) = false := by
    rw [begun, goes, idle, decide_eq_false (not_le.mpr risen)]
    rfl
  subst state static
  change execBulkCopy s = _
  simp only [execBulkCopy, plan, partner, due, channel, Bool.false_eq_true, if_false]

section
variable {r : BitVec 64} (copying : s.surv.copying = some r) (idle : s.copyIdle = true)
include copying idle

theorem runs_bulkCopyComplete (goes : s.surv.recovering = false) :
    Runs .bulkCopyComplete s ({ s with surv := { s.surv with copying := none } }.report r true false) := by
  have done : (s.surv.recovering || !s.copyIdle) = false := by rw [goes, idle]; rfl
  change execBulkCopyComplete s = _
  simp only [execBulkCopyComplete, copying, done, Bool.false_eq_true, if_false]

section
variable {z : State} (ends : { s with surv := { s.surv with copying := none } } = z) (recovers : s.surv.recovering = true)
include ends recovers

theorem runs_spareCopyComplete_leader (leads : z.leads = true) : Runs .spareCopyComplete s z.recovered := by
  have done : (!s.surv.recovering || !s.copyIdle) = false := by rw [recovers, idle]; rfl
  change execSpareCopyComplete s = _
  simp only [execSpareCopyComplete, copying, done, ends, leads, Bool.false_eq_true, if_false, if_true]

theorem runs_spareCopyComplete_member {p : BitVec 12} (follows : z.leads = false) (known : z.physOf z.leader = some p) :
    Runs .spareCopyComplete s (z.sendControl p none 7 (bytesOf r.toNat 8 ++ bytesOf z.logical.toNat 2 ++ [1])) := by
  have done : (!s.surv.recovering || !s.copyIdle) = false := by rw [recovers, idle]; rfl
  change execSpareCopyComplete s = _
  simp only [execSpareCopyComplete, copying, done, ends, follows, known, Bool.false_eq_true, if_false]

end
end

/-! ## Snapshot drains (R492, R493) -/

theorem runs_snapshotDrainComplete {d : Drainage} {p : Line} {w : State} {bs : List Byte} (draining : s.surv.draining = some d)
    (plan : s.surv.plan = some p) (goes : s.stew.program.aborted = false) (up : s.surv.granUp = true)
    (reads : { s with surv := { s.surv with draining := none } }.readPieces (planState p (d.step.getLsbD 0)) (planSize p / 256)
      = (w, some bs)) {g : Granary} {z v : State}
    (full : { record := some (w.commitRecord d bs), state := stateBytes bs
              tags := chunkTags (w.snapshotKey d.epoch.toNat d.time.toNat) bs.length } = g)
    (kept : { w with surv := { w.surv with
      granA := if d.slotB then w.surv.granA else g, granB := if d.slotB then g else w.surv.granB } } = z)
    (ends : (if z.leads then z.setInterval else z) = v) :
    Runs .snapshotDrainComplete s (if v.surv.snapAsked then v else v.noteTake (w.commitRecord d bs)) := by
  have done : (s.stew.program.aborted || !s.surv.granUp) = false := by rw [goes, up]; rfl
  subst full kept ends
  change execSnapshotDrainComplete s = _
  rw [execSnapshotDrainComplete, draining, plan]
  refine congrArg Host.Outcome.next ((if_neg (Bool.eq_false_iff.mp done)).trans ?_)
  rw [reads]

end

end Sys2Proof.Machine

open Sys2Proof Sys2Proof.Machine

theorem stewardEventsAct : Clause.StewardEventsAct := by
  intro s
  refine ⟨runs_sealDue, runs_sealComplete, fun lost => ⟨State.sealNow_lost lost, runs_sealComplete_lost lost⟩,
    fun a code detail => runs_firmwareAbort, runs_lockstepMismatch, State.boxSession_stopped, ?reset, runs_programReset_idle,
    fun zeroising => ⟨State.zeroiseStep_marks zeroising, ?blows⟩⟩
  case reset =>
    intro c booted serves asked
    have resets := runs_programReset (State.inService_of booted serves)
    refine ⟨fun lost => ?_, fun house vault => ?_⟩
    · rwa [State.tryReset_lost asked lost] at resets
    · rw [State.tryReset_kept asked house vault] at resets
      exact ⟨fun ended => by rwa [if_pos ended] at resets,
        fun waits => by rwa [if_neg (Bool.eq_false_iff.mp waits)] at resets⟩
  case blows =>
    intro record marked owned
    rw [State.zeroiseStep_blows zeroising record marked owned]
    exact ⟨not_owned_succ owned, rfl, rfl, rfl, rfl⟩

theorem copiesAndDrainsComplete : Clause.CopiesAndDrainsComplete := by
  intro s
  refine ⟨?copy, ?ends, ?drain⟩
  case copy =>
    intro own his w c plan partner begun goes risen idle n t channel odd v u
    exact runs_bulkCopy plan partner begun goes risen idle channel rfl rfl
  case ends =>
    intro r copying idle z
    exact ⟨runs_bulkCopyComplete copying idle, fun recovers => ⟨runs_spareCopyComplete_leader copying idle rfl recovers,
      fun p => runs_spareCopyComplete_member copying idle rfl recovers⟩⟩
  case drain =>
    intro d p w bs draining plan goes up reads r g z v
    exact runs_snapshotDrainComplete draining plan goes up reads rfl rfl rfl

/-- Settles O43, by its two clauses. -/
theorem stewardWorks : Obligations.StewardWorks := ⟨stewardEventsAct, copiesAndDrainsComplete⟩
end

section
/-!
O44: what a module that answers on SMBus does with a read and with a write.
-/
namespace Sys2Proof.Machine

section
variable {s : State} (answers : s.smbAnswers = true)
include answers

/-- A read sends its bytes. -/
theorem runs_of_smbRead {i : Instr} {data : List Byte} (is : exec i s = .next (s.smbRead data)) :
    Runs i s (s.emit (.smb data)) :=
  is.trans (congrArg Host.Outcome.next (if_pos answers))

theorem State.smbWrite_answers (ok : Bool) (t : State) : s.smbWrite ok t = if ok then t else s.emit .nak :=
  if_neg (by rw [answers]; exact Bool.false_ne_true)

theorem State.smbWrite_takes {ok : Bool} (t : State) (takes : ok = true) : s.smbWrite ok t = t :=
  (State.smbWrite_answers answers ok t).trans (if_pos takes)

theorem State.smbWrite_refuses {ok : Bool} (t : State) (refuses : ok = false) : s.smbWrite ok t = s.emit .nak :=
  (State.smbWrite_answers answers ok t).trans (if_neg (Bool.eq_false_iff.mp refuses))

theorem runs_pwr : Runs .pwr s (s.sampleSensors.emit (.smb (bytesOf s.sampleSensors.pwrStatus.toNat 8))) :=
  congrArg Host.Outcome.next (if_pos answers)

theorem runs_temps : Runs .temps s (s.sampleSensors.emit (.smb ((List.range 20).map s.sampleSensors.temperature))) :=
  congrArg Host.Outcome.next (if_pos answers)

end

/-! ## Addresses (R445) -/

section
variable {s : State} {w : SmbWrite} (chain : w.chainIn = s.stew.chainIn)
include chain

/-- The state with CHAIN_IN as it stands. -/
theorem State.set_chainIn_self : { s with stew := { s.stew with chainIn := w.chainIn } } = s := by rw [chain]

/-- A write to another address is not the module's. -/
theorem runs_enumAssign_other (other : w.target ≠ s.stew.smbAddr.getD 0x1F) : Runs (.enumAssign w) s s := by
  have passes : (w.target != s.smbAddress || (w.code != 1 && smbCodes.contains w.code.toNat)) = true := by
    rw [State.smbAddress, bne_iff_ne.mpr other]; rfl
  change execEnumAssign w s = _
  rw [execEnumAssign, State.set_chainIn_self chain]
  exact congrArg Host.Outcome.next (if_pos passes)

/-- A write to the module with the code of an assignment, or with one that no row has, is taken or not acknowledged. -/
theorem runs_enumAssign_own (own : w.target = s.stew.smbAddr.getD 0x1F)
    (listed : (w.code != 1 && smbCodes.contains w.code.toNat) = false) : Runs (.enumAssign w) s
      (s.smbWrite (w.code = 1 && w.data.toNat = 0x20 + s.stew.pos.toNat)
        { s with stew := { s.stew with smbAddr := some (w.data.setWidth 7), chainOut := true } }) := by
  have meets : (w.target != s.smbAddress || (w.code != 1 && smbCodes.contains w.code.toNat)) = false := by
    rw [State.smbAddress, own, listed, bne_self_eq_false]; rfl
  change execEnumAssign w s = _
  rw [execEnumAssign, State.set_chainIn_self chain]
  exact congrArg Host.Outcome.next (if_neg (Bool.eq_false_iff.mp meets))

end

theorem smbCodes_unlisted {code : BitVec 8} (unlisted : 0x25 ≤ code.toNat ∨ (2 ≤ code.toNat ∧ code.toNat < 0x10)) :
    smbCodes.contains code.toNat = false := by
  have absent : code.toNat ∉ smbCodes := by
    simp only [smbCodes, List.mem_cons, List.not_mem_nil, or_false]
    omega
  rw [← Bool.not_eq_true, List.contains_iff_mem]
  exact absent

/-! ## Caps (R507) -/

/-- A cap up to the design power is taken, and one above it is the design power. -/
theorem State.setCap_cap (s : State) (watts : BitVec 16) : (s.setCap watts).power.cap
    = if (designPower s.grade).toNat < watts.toNat then designPower s.grade else watts := rfl

end Sys2Proof.Machine

open Sys2Proof Sys2Proof.Machine

/-- Settles O44: the reads, then the writes by their address and their code. -/
theorem smbusAnswers : Obligations.SmbusAnswers := by
  intro s answers bytes
  refine ⟨runs_of_smbRead answers rfl, runs_of_smbRead answers rfl, runs_of_smbRead answers rfl, runs_of_smbRead answers rfl,
    runs_of_smbRead answers rfl, runs_pwr answers, runs_temps answers, ?assign, ?warm, ?cap⟩
  case assign =>
    intro w chain
    refine ⟨runs_enumAssign_other chain, fun own => ⟨fun code address => ?takes, fun code address => ?refuses,
      fun unlisted => ?unlisted⟩⟩
    case takes =>
      have runs := runs_enumAssign_own chain own (by rw [code]; rfl)
      rwa [State.smbWrite_takes answers _ (by rw [code, decide_eq_true address]; rfl)] at runs
    case refuses =>
      have runs := runs_enumAssign_own chain own (by rw [code]; rfl)
      rwa [State.smbWrite_refuses answers _ (by rw [decide_eq_false address, Bool.and_false])] at runs
    case unlisted =>
      have other : w.code ≠ 1 := fun is_one => absurd unlisted (by rw [is_one]; decide)
      have runs := runs_enumAssign_own chain own (by rw [smbCodes_unlisted unlisted, Bool.and_false])
      rwa [State.smbWrite_refuses answers _ (by rw [decide_eq_false other, Bool.false_and])] at runs
  case warm =>
    exact fun a => ⟨fun code => congrArg Host.Outcome.next (State.smbWrite_takes answers _ (decide_eq_true code)),
      fun code => congrArg Host.Outcome.next (State.smbWrite_refuses answers _ (decide_eq_false code))⟩
  case cap =>
    intro w
    refine ⟨s.setCap w, congrArg Host.Outcome.next (State.smbWrite_takes answers _ rfl), rfl, rfl, fun below => ?_,
      fun above => ?_⟩
    · rw [State.setCap_cap, if_neg (not_lt.mpr below)]
    · rw [State.setCap_cap, if_pos above]
end

section
/-!
O34: the control messages of recovery, each by the condition under which a steward acts on it.
-/
namespace Sys2Proof.Machine

section
variable {s : State} {c : Control}

/-! ## Plans (R485) -/

section
variable {plan own : Line} {image : BitVec 256} {grade : BitVec 2} {feed : BitVec 4} (owns : s.surv.asked.or s.surv.plan = some own)
  (loaded : s.stew.program.digest = some image)
include owns loaded

theorem runs_planCheck_refuses (bad : s.planReason own c.src plan grade feed ≠ 0) : Runs (.planCheck c plan image grade feed) s
    (s.sendControl c.src none 6 [1, BitVec.ofNat 8 (s.planReason own c.src plan grade feed), 0]) := by
  change execPlanCheck c plan image grade feed s = _
  simp only [execPlanCheck, owns, loaded, if_true, if_neg bad, decide_eq_false bad, Bool.false_and, Bool.false_eq_true, if_false]

theorem runs_planCheck_accepts (good : s.planReason own c.src plan grade feed = 0) : Runs (.planCheck c plan image grade feed) s
    ({ s with surv := { s.surv with
      partnerPlan := some plan, partnerPhys := c.src, cofated := feed = s.stew.feedId } }.sendControl c.src none 6
        [0, 0, if feed = s.stew.feedId then 1 else 0]) := by
  change execPlanCheck c plan image grade feed s = _
  simp only [execPlanCheck, owns, loaded, if_true, good, decide_true, Bool.true_and, decide_eq_true_eq]
  rfl

end

section
variable {p : Line} (asked : s.surv.asked = some p) (buddy : s.logicalOf c.src = some (planBuddy p)) (reason : BitVec 8)
  {refuses cofated : Bool}
include asked buddy

/-- A refused plan is dropped, and so is one without FORCE where the feeds are one. -/
theorem runs_planAnswer_drops (drops : (refuses || (cofated && !planForce p)) = true) :
    Runs (.planAnswer c refuses reason cofated) s
      ({ s with surv := { s.surv with asked := none } }.answerPlan false) := by
  have known : (s.logicalOf c.src != some (planBuddy p)) = false := by rw [buddy, bne_self_eq_false]
  change execPlanAnswer c refuses reason cofated s = _
  simp only [execPlanAnswer, asked, known, drops, Bool.false_eq_true, if_false, if_true]

theorem runs_planAnswer_accepts (accepts : (refuses || (cofated && !planForce p)) = false) :
    Runs (.planAnswer c refuses reason cofated) s ({ s with surv := { s.surv with
      asked := none, plan := some p, planSince := s.clk.clk, partnerPhys := c.src, cofated := cofated
      staticCopied := false, events := 0, replayTimes := [], overlapTimes := [], delta := none, interval := 0 } }.answerPlan
        true) := by
  have known : (s.logicalOf c.src != some (planBuddy p)) = false := by rw [buddy, bne_self_eq_false]
  change execPlanAnswer c refuses reason cofated s = _
  simp only [execPlanAnswer, asked, known, accepts, Bool.false_eq_true, if_false]

end

/-! ## Reports and commits (R487, R493) -/

section
variable {step : BitVec 64} {logical : BitVec 12} {copied : Bool} {x : ReportEnd} (leads : s.leads = true)
include leads

/-- A report that asks for a snapshot makes the leader ask for it. -/
theorem runs_report_snapshot (asks : x.snapshot = true) :
    Runs (.report c step logical copied x) s { s with surv := { s.surv with snapAsked := true } } := by
  change execReport c step logical copied x s = _
  simp only [execReport, State.askSnapshot, leads, asks, Bool.not_true, Bool.false_eq_true, if_false, if_true]

theorem runs_report_notes (plain : x.snapshot = false) (well : s.surv.recovering = false) :
    Runs (.report c step logical copied x) s (s.noteReport logical step copied x.ended) := by
  change execReport c step logical copied x s = _
  simp only [execReport, leads, plain, well, Bool.not_true, Bool.false_and, Bool.false_eq_true, if_false]

end

theorem runs_commit {step : BitVec 64} (loss : BitVec 32) (snapshot : Bool) (planned : s.surv.plan.isSome = true)
    (leader : s.logicalOf c.src = some s.leader) : Runs (.commit c step loss snapshot) s (s.commitHere step loss snapshot) := by
  have due : (s.surv.plan.isSome && s.logicalOf c.src = some s.leader) = true := by rw [planned, decide_eq_true leader]; rfl
  exact congrArg Host.Outcome.next (if_pos due)

/-! ## Recovery (R496–R498) -/

section
variable {logical phys : BitVec 12} {image : BitVec 256} {step : BitVec 64}

/-- MAP redraws the map of every device of the program, and the leader passes its own on. -/
theorem runs_map {data : List Byte} {z : State} (loaded : s.stew.program.digest = some image)
    (other : phys ≠ s.heath.id ∨ s.surv.spare = none)
    (writes : bytesOf logical.toNat 2 ++ bytesOf phys.toNat 2 ++ bytesOf image.toNat 32 ++ bytesOf step.toNat 8 = data)
    (tells : (if c.src = s.heath.id ∧ s.leads = true then (s.tellAll 13 data).sendControl phys none 13 data else s) = z) :
    Runs (.map c logical phys image step) s
      (({ z with surv := { z.surv with
          dead := z.surv.dead.filter fun d => d.1 != phys
          recoverStep := step, recovering := true } }.redraw logical phys).refill logical phys) := by
  have member : (phys = s.heath.id && s.surv.spare.any fun x => x.2.2 = image) = false := by
    rcases other with elsewhere | none_
    · rw [decide_eq_false elsewhere, Bool.false_and]
    · rw [none_, Option.any_none, Bool.and_false]
  have same : (s.stew.program.digest != some image) = false := by rw [loaded, bne_self_eq_false]
  subst writes tells
  change execMap c logical phys image step s = _
  simp only [execMap, member, same, Bool.false_eq_true, if_false, Bool.and_eq_true, decide_eq_true_eq]

/-- The spare that is chosen redraws its own map. -/
theorem runs_map_spare {a : BitVec 48} {n : BitVec 64} (spare : s.surv.spare = some (a, n, image)) :
    Runs (.map c logical s.heath.id image step) s (s.redraw logical s.heath.id) := by
  have chosen : (s.heath.id = s.heath.id && s.surv.spare.any fun x => x.2.2 = image) = true := by
    rw [spare, decide_eq_true rfl, Option.any_some, decide_eq_true rfl]; rfl
  exact congrArg Host.Outcome.next (if_pos chosen)

section
variable {what : BitVec 8} (planned : s.surv.plan.isSome = true)
include planned

theorem runs_resume_announces (self : c.src = s.heath.id) (leads : s.leads = true) :
    Runs (.resume c step what) s (s.announce step what) := by
  have none_ : s.surv.plan.isNone = false := by rw [Option.isNone_eq_false_iff]; exact planned
  have own : (c.src = s.heath.id && s.leads) = true := by rw [decide_eq_true self, leads]; rfl
  change execResume c step what s = _
  simp only [execResume, none_, own, Bool.false_eq_true, if_false, if_true]

theorem runs_resume_acts (leader : s.logicalOf c.src = some s.leader) (other : c.src ≠ s.heath.id ∨ s.leads = false) :
    Runs (.resume c step what) s (s.resumeHere step what) := by
  have none_ : s.surv.plan.isNone = false := by rw [Option.isNone_eq_false_iff]; exact planned
  have heard : (c.src = s.heath.id && s.leads) = false := by
    rcases other with elsewhere | follows
    · rw [decide_eq_false elsewhere, Bool.false_and]
    · rw [follows, Bool.and_false]
  change execResume c step what s = _
  simp only [execResume, none_, heard, leader, Bool.false_eq_true, if_false, if_true]

end

/-! ## Spares and twins (R496, R497, R500) -/

section
variable {plan : Line}

theorem runs_spareJoin_none (none_ : s.surv.spare = none) : Runs (.spareJoin c logical image step plan) s s := by
  change execSpareJoin c logical image step plan s = _
  simp only [execSpareJoin, none_]

theorem runs_spareJoin_member (member : s.stew.program.armed = true ∨ s.surv.plan.isSome = true) :
    Runs (.spareJoin c logical image step plan) s s := by
  cases spare : s.surv.spare with
  | none => exact runs_spareJoin_none spare
  | some x =>
    obtain ⟨a, n, d⟩ := x
    have stays : (d != image || s.stew.program.armed || s.surv.plan.isSome) = true := by
      rcases member with armed | planned
      · rw [armed, Bool.or_true, Bool.true_or]
      · rw [planned, Bool.or_true]
    change execSpareJoin c logical image step plan s = _
    simp only [execSpareJoin, spare, stays, if_true]

/-- The spare in the program that it joins: the image is loaded, measured and recorded, and the map gives it the number. -/
def State.joined (z : State) (logical : BitVec 12) (dig : BitVec 256) (img : Image) : State :=
  let w := (z.clearListed.writeImage true img logical.toNat).setProgram dig img logical
  let w := { w with vault := { w.vault with mrRun := 0, log := w.vault.log.take 4, runCount := 0 } }
  let w := (w.measure 5 dig).append (plainRecord 5 0 0 0)
  w.redraw logical w.heath.id

theorem runs_spareJoin {a : BitVec 48} {n : BitVec 64} {z : State} {bs x : List Byte} {dig : BitVec 256} {img : Image}
    (spare : s.surv.spare = some (a, n, image)) (unarmed : s.stew.program.armed = false) (free : s.surv.plan = none)
    (reads : s.readDram a.toNat n.toNat = (z, some bs)) (opens : z.plainImage bs image = some (dig, x))
    (parses : parseImage x = some img) (checks : z.imageCheck img logical.toNat = .ok ()) {w : State}
    (joined : z.joined logical dig img = w) : Runs (.spareJoin c logical image step plan) s { w with surv := { w.surv with
      partnerPhys := (w.physOf (planBuddy plan)).getD 0
      spare := none, plan := some plan, planSince := w.clk.clk, recovering := true, recoverStep := step } } := by
  have joins : (image != image || s.stew.program.armed || s.surv.plan.isSome) = false := by
    rw [bne_self_eq_false, unarmed, free]; rfl
  have loads : ((z.plainImage bs image).bind fun x => (parseImage x.2).map fun i => (x.1, i)) = some (dig, img) := by
    rw [opens, Option.bind_some, parses, Option.map_some]
  subst joined
  change execSpareJoin c logical image step plan s = _
  simp only [execSpareJoin, spare, joins, reads, loads, checks, Bool.false_eq_true, if_false]
  rfl

end
end

theorem runs_sealReport (epoch : BitVec 32) (last : BitVec 64) (head : BitVec 256) (twin : s.surv.twin.isSome = true)
    (from_twin : s.logicalOf c.src = s.surv.twin) : Runs (.sealReport c epoch last head) s
      { s with surv := { s.surv with twinSeal := some (epoch, last, head) } } := by
  have due : (s.surv.twin.isSome && s.logicalOf c.src = s.surv.twin) = true := by rw [twin, decide_eq_true from_twin]; rfl
  exact congrArg Host.Outcome.next (if_pos due)

end

end Sys2Proof.Machine

open Sys2Proof Sys2Proof.Machine

/-- Settles O34, one message after another. -/
theorem stewardsRecover : Obligations.StewardsRecover := by
  intro s c
  refine ⟨?plan, ?answer, fun step logical copied x leads => ⟨runs_report_snapshot leads, runs_report_notes leads⟩,
    fun step loss snapshot => runs_commit loss snapshot, ?map, fun logical image step a n => runs_map_spare,
    fun step what planned => ⟨runs_resume_announces planned, runs_resume_acts planned⟩,
    fun logical image step plan => runs_spareJoin_none, ?join, fun logical image step plan => runs_spareJoin_member,
    runs_sealReport⟩
  case plan =>
    intro plan own image grade feed owns loaded r
    exact ⟨runs_planCheck_refuses owns loaded, runs_planCheck_accepts owns loaded⟩
  case answer =>
    intro p reason cofated asked buddy
    refine ⟨runs_planAnswer_drops asked buddy reason rfl, fun fated lone => ?_, fun apart => ?_⟩
    · exact runs_planAnswer_drops asked buddy reason (by rw [fated, lone]; rfl)
    · have accepts : (false || (cofated && !planForce p)) = false := by
        rcases apart with apart | forced
        · rw [apart]; rfl
        · rw [forced]; exact Bool.and_false _
      exact ⟨_, runs_planAnswer_accepts asked buddy reason accepts, rfl, rfl, rfl, rfl, rfl, rfl⟩
  case map =>
    intro logical phys image step loaded other data z
    exact runs_map loaded other rfl rfl
  case join =>
    intro logical image step plan a n z bs x dig img u spare unarmed free reads opens parses checks
    exact ⟨_, runs_spareJoin spare unarmed free reads opens parses checks rfl, rfl, rfl, rfl, rfl⟩
end

section
/-!
O46: the readings of a sensor, and the limits that act on them.
-/
namespace Sys2Proof.Machine

/-! ## The time since which a condition holds -/

/-- A condition that holds keeps the time since which it holds, or holds from now on. -/
theorem find?_since_holds {m : SMap Nat} {n t : Nat} {holds : Bool} (h : holds = true) :
    Sparse.find? n (since m n t holds) = some ((Sparse.find? n m).getD t) := by
  rw [since, h, Bool.not_true, if_neg Bool.false_ne_true]
  cases found : Sparse.find? n m with
  | none => exact Sparse.find?_put_self ..
  | some u => exact found

/-- A condition that does not hold has no such time. -/
theorem find?_since_fails {m : SMap Nat} {n t : Nat} {holds : Bool} (h : holds = false) :
    Sparse.find? n (since m n t holds) = none := by
  rw [since, h, Bool.not_false, if_pos rfl]
  exact Sparse.find?_erase_self ..

/-- The times of `m` say that the condition of sensor `k` has stood for `d` microseconds. -/
def State.Stands (s : State) (m : SMap Nat) (k d : Nat) : Prop :=
  ∃ t, Sparse.find? k m = some t ∧ t + d * usUnits ≤ s.clk.clk

theorem State.heldFor_iff {s z : State} (clock : z.clk.clk = s.clk.clk) {m : SMap Nat} {k d : Nat} :
    z.heldFor m k (d * usUnits) = true ↔ s.Stands m k d := by
  simp only [State.heldFor, Option.any_eq_true, State.passed, clock, decide_eq_true_eq, State.Stands]

/-! ## Readings (R516; log entry 136) -/

section
variable {s : State}

/-- A reading of the power sensor is not kept. -/
theorem State.noteReading_power (r : BitVec 16) : s.noteReading 20 r = s := if_pos rfl

/-- A reading changes nothing but the readings and the times of its sensor. -/
theorem State.noteReading_keeps (n : Nat) (r : BitVec 16) : (s.noteReading n r).clk = s.clk
    ∧ (s.noteReading n r).power.holders = s.power.holders ∧ (s.noteReading n r).power.trip = s.power.trip := by
  by_cases power : n = 20
  · rw [power, State.noteReading_power]
    exact ⟨rfl, rfl, rfl⟩
  · rw [State.noteReading, if_neg power]
    exact ⟨rfl, rfl, rfl⟩

section
variable {n : Nat} {r : BitVec 16} (thermal : n ≠ 20)
include thermal

theorem State.noteReading_reading : Sparse.get 0 (s.noteReading n r).power.readings n = r := by
  rw [State.noteReading, if_neg thermal]
  exact Sparse.get_set_self ..

theorem State.noteReading_above : (s.noteReading n r).power.above = since s.power.above n s.clk.clk
    ((thresholds s.grade n).1 != 0 && (thresholds s.grade n).1 ≤ r.toNat) := by
  rw [State.noteReading, if_neg thermal]

theorem State.noteReading_below : (s.noteReading n r).power.below = since s.power.below n s.clk.clk
    (r.toNat < (thresholds s.grade n).2.1) := by
  rw [State.noteReading, if_neg thermal]

end

/-! ## Steps (R507, R516) -/

section
variable {n : BitVec 5} {r : BitVec 16} {z : State} (noted : s.noteReading n.toNat r = z) (watched : s.watches n.toNat = true)
include noted watched

section
variable (booted : s.stew.booted = true)
include booted

theorem runs_thermalStepDown : Runs (.thermalStepDown n r) s (if z.heldFor z.power.above n.toNat (1000 * usUnits)
    then State.followStep { z with power := { z.power with
      thermalStep := slower z.wantedStep, above := Sparse.put n.toNat z.clk.clk z.power.above } }
    else z) := by
  have runs : (!(s.watches n.toNat && s.stew.booted)) = false := by rw [watched, booted]; rfl
  subst noted
  exact congrArg Host.Outcome.next (if_neg (Bool.eq_false_iff.mp runs))

theorem runs_thermalStepUp : Runs (.thermalStepUp n r) s (if z.heldFor z.power.below n.toNat (1000000 * usUnits)
    then State.followStep { z with power := { z.power with
      thermalStep := faster z.power.thermalStep, below := Sparse.put n.toNat z.clk.clk z.power.below } }
    else z) := by
  have runs : (!(s.watches n.toNat && s.stew.booted)) = false := by rw [watched, booted]; rfl
  subst noted
  exact congrArg Host.Outcome.next (if_neg (Bool.eq_false_iff.mp runs))

end

/-! ## Thermal holds and trips (R516–R518) -/

theorem runs_thermalHold (has : (thresholds s.grade n.toNat).2.2.1 ≠ 0) (hot : (thresholds s.grade n.toNat).2.2.1 ≤ r.toNat)
    (new : s.power.holders.contains n.toNat = false) : Runs (.thermalHold n r) s
      (State.requestHold { z with power := { z.power with holders := z.power.holders ++ [n.toNat] } } .thermal z.fab.scc) := by
  subst noted
  obtain ⟨-, holders, -⟩ := State.noteReading_keeps (s := s) n.toNat r
  have runs : (!s.watches n.toNat) = false := by rw [watched]; rfl
  have due : ((thresholds s.grade n.toNat).2.2.1 != 0 && (thresholds s.grade n.toNat).2.2.1 ≤ r.toNat
      && !(s.noteReading n.toNat r).power.holders.contains n.toNat) = true := by
    rw [bne_iff_ne.mpr has, decide_eq_true hot, holders, new]; rfl
  exact congrArg Host.Outcome.next ((if_neg (Bool.eq_false_iff.mp runs)).trans (if_pos due))

theorem runs_thermalHoldRelease (holds : s.power.holders.contains n.toNat = true)
    (cool : r.toNat < (thresholds s.grade n.toNat).2.2.2.1) {h : State}
    (left : { z with power := { z.power with holders := z.power.holders.filter fun k => k != n.toNat } } = h) :
    Runs (.thermalHoldRelease n r) s (if h.power.holders.isEmpty
      then { h with fab := { h.fab with hold := { h.fab.hold with thermalOff := some h.clk.clk } } } else h) := by
  subst noted left
  obtain ⟨-, holders, -⟩ := State.noteReading_keeps (s := s) n.toNat r
  have runs : (!s.watches n.toNat) = false := by rw [watched]; rfl
  have due : ((s.noteReading n.toNat r).power.holders.contains n.toNat
      && r.toNat < (thresholds s.grade n.toNat).2.2.2.1) = true := by
    rw [holders, holds, decide_eq_true cool]; rfl
  exact congrArg Host.Outcome.next ((if_neg (Bool.eq_false_iff.mp runs)).trans (if_pos due))

theorem runs_trip (has : (thresholds s.grade n.toNat).2.2.2.2 ≠ 0) (hot : (thresholds s.grade n.toNat).2.2.2.2 ≤ r.toNat)
    (first : s.power.trip = false) : Runs (.trip n r) s (z.tripped n) := by
  subst noted
  obtain ⟨-, -, trip⟩ := State.noteReading_keeps (s := s) n.toNat r
  have runs : (!s.watches n.toNat) = false := by rw [watched]; rfl
  have due : ((thresholds s.grade n.toNat).2.2.2.2 != 0 && (thresholds s.grade n.toNat).2.2.2.2 ≤ r.toNat
      && !(s.noteReading n.toNat r).power.trip) = true := by
    rw [bne_iff_ne.mpr has, decide_eq_true hot, trip, first]; rfl
  exact congrArg Host.Outcome.next ((if_neg (Bool.eq_false_iff.mp runs)).trans (if_pos due))

end

/-! ## Power (R507) -/

theorem runs_powerCapStep {r : BitVec 16} {w : State} (watched : s.watches 20 = true) (booted : s.stew.booted = true)
    (noted : { s with power := { s.power with
      below := since s.power.below 20 s.clk.clk (r.toNat * 10 < s.power.cap.toNat * 9) } } = w) :
    Runs (.powerCapStep r) s (if s.power.cap.toNat < r.toNat
      then State.followStep { w with power := { w.power with powerStep := slower w.wantedStep } }
      else if w.heldFor w.power.below 20 (1000000 * usUnits) then State.followStep { w with power := { w.power with
        powerStep := faster w.power.powerStep, below := Sparse.put 20 w.clk.clk w.power.below } }
      else w) := by
  have runs : (!(s.watches 20 && s.stew.booted)) = false := by rw [watched, booted]; rfl
  subst noted
  exact congrArg Host.Outcome.next (if_neg (Bool.eq_false_iff.mp runs))

end

end Sys2Proof.Machine

open Sys2Proof Sys2Proof.Machine

/-- Settles O46: the times that a reading keeps, then each limit. -/
theorem heatAndPowerAreLimited : Obligations.HeatAndPowerAreLimited := by
  intro s n r i z limits stands
  refine ⟨fun thermal => ⟨State.noteReading_reading thermal, ?hot, ?warm, ?cold, ?cool⟩, fun watched => ⟨fun booted => ?steps,
    runs_thermalHold rfl watched, ?release, runs_trip rfl watched⟩, ?power⟩
  case hot =>
    intro has above
    exact (congrArg _ (State.noteReading_above thermal)).trans
      (find?_since_holds (by rw [bne_iff_ne.mpr has, decide_eq_true above]; rfl))
  case warm =>
    intro under
    refine (congrArg _ (State.noteReading_above thermal)).trans (find?_since_fails ?_)
    rcases under with none_ | under
    · rw [Bool.and_eq_false_iff]
      exact .inl (bne_eq_false_iff_eq.mpr none_)
    · rw [decide_eq_false (not_le.mpr under), Bool.and_false]
  case cold =>
    exact fun below => (congrArg _ (State.noteReading_below thermal)).trans (find?_since_holds (decide_eq_true below))
  case cool =>
    exact fun exceeds => (congrArg _ (State.noteReading_below thermal)).trans
      (find?_since_fails (decide_eq_false (not_lt.mpr exceeds)))
  case steps =>
    have clock : z.clk.clk = s.clk.clk := congrArg (·.clk) (State.noteReading_keeps i r).1
    have down := runs_thermalStepDown rfl watched booted (r := r)
    have up := runs_thermalStepUp rfl watched booted (r := r)
    exact ⟨fun held => by rwa [if_pos ((State.heldFor_iff clock).mpr held)] at down,
      fun short_ => by rwa [if_neg (mt (State.heldFor_iff clock).mp short_)] at down,
      fun held => by rwa [if_pos ((State.heldFor_iff clock).mpr held)] at up,
      fun short_ => by rwa [if_neg (mt (State.heldFor_iff clock).mp short_)] at up⟩
  case release =>
    intro holds below h
    have releases := runs_thermalHoldRelease (h := h) rfl watched holds below rfl
    exact ⟨fun others => by rwa [if_neg (mt List.isEmpty_iff.mp others)] at releases,
      fun last => by rwa [if_pos (List.isEmpty_iff.mpr last)] at releases⟩
  case power =>
    intro watched booted cap w
    have steps := runs_powerCapStep (w := w) watched booted rfl
    refine ⟨fun exceeds => by rwa [if_pos exceeds] at steps, fun under => ?_⟩
    rw [if_neg (not_lt.mpr under)] at steps
    exact ⟨fun held => by rwa [if_pos ((State.heldFor_iff (z := w) rfl).mpr held)] at steps,
      fun short_ => by rwa [if_neg (mt (State.heldFor_iff (z := w) rfl).mp short_)] at steps⟩
end

section
/-!
O1: a step with a command in front.
-/
namespace Sys2Proof.Machine

/-- A step with a command in front of the queue runs it on the state with the rest of the queue. -/
theorem step_of_pending {s : State} {c : Instr} {rest : List Instr} (front : s.pending = c :: rest) :
    step s = exec c { s with pending := rest } := by
  rw [step, front]

/-- With an empty queue the commands of the bundle that is due enter it. -/
theorem step_of_bundle {s : State} {cs : List Instr} (empty : s.pending = []) (due : s.bundleNext = some cs) :
    step s = .next { s with pending := cs } := by
  rw [step, empty, due]

/-- With an empty queue and no bundle due, a period passes. -/
theorem step_of_tick {s : State} (empty : s.pending = []) (idle : s.bundleNext = none) : step s = .next s.tick := by
  rw [step, empty, idle]

end Sys2Proof.Machine

open Sys2Proof Sys2Proof.Machine

/-- Settles O1: the front of the queue is the command that `step` runs. -/
theorem stepRunsFrontCommand : Obligations.StepRunsFrontCommand := fun _ _ _ => step_of_pending
end

section
/-!
SUPPORT. What leaves the queue of commands alone: every operation of the model, in the order of its files. Only `step` and the
fetch of a bundle write the queue, so each lemma states that its operation keeps `pending`, and those above it use it by `simp`.
-/
namespace Sys2Proof.Machine

/-! ## Runs of changes, and what an operation gives back -/

/-- A run of changes that each leave the queue leaves it. -/
theorem foldl_pending {α : Type} {f : State → α → State} (h : ∀ s a, (f s a).pending = s.pending) (l : List α)
    (s : State) : (l.foldl f s).pending = s.pending := foldl_keeps State.pending h l s

/-- The same for changes that carry a second value along. -/
theorem foldl_fst_pending {α β : Type} {f : State × β → α → State × β} (h : ∀ x a, (f x a).1.pending = x.1.pending)
    (l : List α) (x : State × β) : (l.foldl f x).1.pending = x.1.pending := by
  induction l generalizing x with
  | nil => rfl
  | cons a l ih => rw [List.foldl_cons, ih, h]

/-- The queue of a pair's state, once the pair is named. -/
theorem State.pending_of_eq {β : Type} {p : State × β} {s : State} {b : β} (h : p = (s, b)) : s.pending = p.1.pending := by
  rw [h]

/-- The next state that an answer gives, if any, has the queue `q`. -/
def AnswerKeeps (q : List Instr) (a : Answer) : Prop := ∀ s, a = .next s → s.pending = q

@[simp] theorem answerKeeps_next (q : List Instr) (s : State) : AnswerKeeps q (.next s) ↔ s.pending = q :=
  ⟨fun h => h s rfl, fun h _ e => by cases e; exact h⟩

/-- The state that an accepted command leaves, if any, has the queue `q`. -/
def ResultKeeps (q : List Instr) (r : Except Refused (State × Done)) : Prop := ∀ s d, r = .ok (s, d) → s.pending = q

@[simp] theorem resultKeeps_ok (q : List Instr) (s : State) (d : Done) : ResultKeeps q (.ok (s, d)) ↔ s.pending = q :=
  ⟨fun h => h s d rfl, fun h _ _ e => by cases e; exact h⟩

@[simp] theorem resultKeeps_error (q : List Instr) (r : Refused) : ResultKeeps q (.error r) := fun _ _ e => by cases e

@[simp] theorem resultKeeps_short (q : List Instr) (s : State) (data : List Byte) :
    ResultKeeps q (short s data) ↔ s.pending = q :=
  resultKeeps_ok q s _

@[simp] theorem resultKeeps_bind {α : Type} {q : List Instr} {x : Except Refused α} {k : α → Except Refused (State × Done)} :
    ResultKeeps q (x >>= k) ↔ ∀ a, x = .ok a → ResultKeeps q (k a) := by
  cases x with
  | error r => simp
  | ok a => simp

/-- The state in which a long operation ends, if it does, has the queue `q`. -/
def FinishKeeps (q : List Instr) (r : Option (State × Except Refused (List Byte))) : Prop :=
  ∀ t e, r = some (t, e) → t.pending = q

@[simp] theorem finishKeeps_none (q : List Instr) : FinishKeeps q none := fun _ _ h => by cases h

@[simp] theorem finishKeeps_some (q : List Instr) (t : State) (e : Except Refused (List Byte)) :
    FinishKeeps q (some (t, e)) ↔ t.pending = q :=
  ⟨fun h => h t e rfl, fun h _ _ he => by cases he; exact h⟩

/-! ## Operations on a part of the state -/

@[simp] theorem State.modTile_pending (s : State) (t : Nat) (f : Tile → Tile) : (s.modTile t f).pending = s.pending := by
  unfold State.modTile
  split <;> simp

@[simp] theorem State.modStack_pending (s : State) (k : Nat) (f : Stack → Stack) : (s.modStack k f).pending = s.pending := rfl

@[simp] theorem State.modPost_pending (s : State) (k : Nat) (n : BitVec 32) (f : Post → Post) :
    (s.modPost k n f).pending = s.pending := rfl

@[simp] theorem State.eccWrite_pending (s : State) (a n : Nat) : (s.eccWrite a n).pending = s.pending := rfl

@[simp] theorem State.setTally_pending (s : State) (u : TallyUnit) (n : Nat) (x : Tally) :
    (s.setTally u n x).pending = s.pending := by
  unfold State.setTally
  split <;> simp

@[simp] theorem State.count_pending (s : State) (u : TallyUnit) (event qual : BitVec 8) (n : Nat) :
    (s.count u event qual n).pending = s.pending :=
  State.count_keeps State.pending (fun s n x => s.setTally_pending u n x) s event qual n

@[simp] theorem State.corrects_pending (s : State) (k c : Nat) : (s.corrects k c).pending = s.pending := by
  simp [State.corrects, apply_ite State.pending]

@[simp] theorem State.endItem_pending (s : State) (k : Nat) (n : BitVec 32) (i : Nat) :
    (s.endItem k n i).pending = s.pending := by
  unfold State.endItem
  (repeat' split) <;> simp

@[simp] theorem State.writeBytes_pending (s : State) (a : Nat) (bs : List Byte) :
    (s.writeBytes a bs).pending = s.pending := by
  simp [State.writeBytes]

@[simp] theorem State.dramWrite_pending (s : State) (k b : Nat) (bs : List Byte) :
    (s.dramWrite k b bs).pending = s.pending := by
  unfold State.dramWrite
  dsimp only
  split <;> simp

@[simp] theorem State.writeLine_pending (s : State) (a : Nat) (v : Line) : (s.writeLine a v).pending = s.pending := rfl

@[simp] theorem State.setPadLine_pending (s : State) (t n : Nat) (v : Line) (gen : Option (BitVec 2)) :
    (s.setPadLine t n v gen).pending = s.pending := by
  cases gen with
  | none => rfl
  | some g => exact State.modTile_pending _ _ _

@[simp] theorem State.dropWrite_pending (s : State) (t : Nat) (w : PadWrite) : (s.dropWrite t w).pending = s.pending := by
  simp [State.dropWrite]

/-! ## Machine/Ops.lean -/

@[simp] theorem State.modField_pending (s : State) (f : Nat) (g : Field → Field) : (s.modField f g).pending = s.pending := rfl
@[simp] theorem State.modDie_pending (s : State) (d : Nat) (g : Die → Die) : (s.modDie d g).pending = s.pending := rfl
@[simp] theorem State.modLink_pending (s : State) (k : Nat) (g : Link → Link) : (s.modLink k g).pending = s.pending := rfl
@[simp] theorem State.modChan_pending (s : State) (c : Nat) (g : Channel → Channel) : (s.modChan c g).pending = s.pending := rfl

@[simp] theorem State.modIsland_pending (s : State) (d : Nat) (g : Island → Island) :
    (s.modIsland d g).pending = s.pending := rfl

@[simp] theorem State.setRingEnd_pending (s : State) (d n : Nat) (x : RingEnd) : (s.setRingEnd d n x).pending = s.pending := rfl

@[simp] theorem State.tileEvent_pending (s : State) (t : Nat) (event : BitVec 8) (n : Nat) :
    (s.tileEvent t event n).pending = s.pending := by simp [State.tileEvent, apply_ite State.pending]

@[simp] theorem State.endTallies_pending (s : State) : s.endTallies.pending = s.pending := by
  unfold State.endTallies
  exact foldl_pending (fun _ _ => by dsimp only; split <;> simp) _ _

@[simp] theorem State.elapse_pending (s : State) (u : Nat) : (s.elapse u).pending = s.pending := rfl

@[simp] theorem State.requestHold_pending (s : State) (c : Cause) (cyc : Scc) : (s.requestHold c cyc).pending = s.pending := by
  simp [State.requestHold, apply_ite State.pending]

@[simp] theorem State.requestSlip_pending (s : State) (d : Nat) : (s.requestSlip d).pending = s.pending := by
  simp [State.requestSlip, apply_ite State.pending]

@[simp] theorem State.requestSlips_pending (s : State) : s.requestSlips.pending = s.pending := by
  simp [State.requestSlips, foldl_pending]

@[simp] theorem State.stopRun_pending (s : State) : s.stopRun.pending = s.pending := rfl

@[simp] theorem State.requestHalt_pending (s : State) (rank : Nat) (source : BitVec 64) (cyc : Scc)
    (reason : BitVec 8) (subcode : BitVec 4) (detail : BitVec 32) :
    (s.requestHalt rank source cyc reason subcode detail).pending = s.pending := by
  simp [State.requestHalt, apply_ite State.pending]

@[simp] theorem State.unitHalt_pending (s : State) (kind index : Nat) (reason : BitVec 8) (subcode : BitVec 4)
    (detail : BitVec 32) : (s.unitHalt kind index reason subcode detail).pending = s.pending := by
  simp [State.unitHalt, apply_ite State.pending]

@[simp] theorem State.abort_pending (s : State) (code : BitVec 8) (detail : BitVec 32) :
    (s.abort code detail).pending = s.pending := by simp [State.abort]

@[simp] theorem State.tileHalt_pending (s : State) (t : Nat) (cyc : Scc) (iaddr : BitVec 11) (f : Failure) :
    (s.tileHalt t cyc iaddr f).pending = s.pending := by
  unfold State.tileHalt
  dsimp only
  (repeat' split) <;> simp

/-! ## Machine/Dram.lean -/

@[simp] theorem State.dramRead_pending (s : State) (k b n : Nat) : (s.dramRead k b n).1.pending = s.pending := by
  unfold State.dramRead
  dsimp only
  (repeat' split) <;> simp

@[simp] theorem State.dramHalt_pending (s : State) (k a : Nat) : (s.dramHalt k a).pending = s.pending := by simp [State.dramHalt]

@[simp] theorem State.readDram_pending (s : State) (a n : Nat) : (s.readDram a n).1.pending = s.pending := by
  refine foldl_fst_pending (fun x p => ?_) _ _
  split <;> simp

/-! ## Machine/HeathOps.lean -/

@[simp] theorem State.selectRedrawn_pending (s : State) : s.selectRedrawn.pending = s.pending := by
  simp [State.selectRedrawn, apply_ite State.pending]

@[simp] theorem State.sendFlit_pending (s : State) (k : Nat) : (s.sendFlit k).pending = s.pending := by simp [State.sendFlit]

@[simp] theorem State.pump_pending (s : State) (k : Nat) (fuel : Nat) : (s.pump k fuel).pending = s.pending := by
  induction fuel generalizing s with
  | zero => rfl
  | succ fuel ih =>
    unfold State.pump
    split <;> simp [ih]

@[simp] theorem State.returnCredits_pending (s : State) (k : Nat) (vc : BitVec 3) (n : Nat) :
    (s.returnCredits k vc n).pending = s.pending := rfl

@[simp] theorem State.leaves_pending (s : State) (o : OutPacket) : (s.leaves o).pending = s.pending := by
  unfold State.leaves
  split <;> simp

@[simp] theorem State.sendOn_pending (s : State) (k : Nat) (o : OutPacket) : (s.sendOn k o).pending = s.pending := by
  simp [State.sendOn]

@[simp] theorem State.linkDead_pending (s : State) (dst : BitVec 12) : (s.linkDead dst).pending = s.pending := by
  simp [State.linkDead]

theorem State.trySend_pending {s s' : State} {o : OutPacket} (h : s.trySend o = some s') : s'.pending = s.pending := by
  unfold State.trySend at h
  split at h
  · cases h
  · cases h
    split <;> simp
  · split at h
    · cases h
      dsimp only
      split <;> simp
    · cases h

theorem State.pump_foldl_pending (s : State) (ls : SMap Link) (n : Nat) :
    (ls.foldl (fun s l => s.pump l.1 n) s).pending = s.pending := foldl_pending (fun s l => s.pump_pending l.1 n) ls s

@[simp] theorem State.drainOut_pending (s : State) : s.drainOut.pending = s.pending := by
  rw [State.drainOut, State.pump_foldl_pending, foldl_pending]
  intro s o
  split
  · next h => exact State.trySend_pending h
  · rfl

@[simp] theorem State.queueOut_pending (s : State) (o : OutPacket) : (s.queueOut o).pending = s.pending := rfl

@[simp] theorem State.queuePacket_pending (s : State) (ty : PacketType) (p : Packet) :
    (s.queuePacket ty p).pending = s.pending := by simp [State.queuePacket, apply_ite State.pending]

@[simp] theorem State.send_pending (s : State) (ty : PacketType) (p : Packet) : (s.send ty p).pending = s.pending := by
  simp [State.send]

@[simp] theorem State.sendPinned_pending (s : State) (k : Nat) (ty : PacketType) (p : Packet) :
    (s.sendPinned k ty p).pending = s.pending := by simp [State.sendPinned]

@[simp] theorem State.sendControl_pending (s : State) (dst : BitVec 12) (link : Option (BitVec 5)) (ckind : BitVec 8)
    (data : List Byte) : (s.sendControl dst link ckind data).pending = s.pending := by
  unfold State.sendControl
  rw [State.drainOut_pending]
  refine foldl_pending (fun s p => ?_) _ _
  split <;> simp

@[simp] theorem State.sendTransfer_pending (s : State) (c : Nat) (tid : BitVec 32) (ps : List (PacketType × Packet)) :
    (s.sendTransfer c tid ps).pending = s.pending := by simp [State.sendTransfer, foldl_pending]

@[simp] theorem State.startAs_pending (s : State) (c : Nat) (tid : BitVec 32) (t : Transfer)
    (ps : List (PacketType × Packet)) : (s.startAs c tid t ps).pending = s.pending := by simp [State.startAs]

@[simp] theorem State.takeTid_pending (s : State) (c : Nat) : (s.takeTid c).1.pending = s.pending := rfl

@[simp] theorem State.startTransfer_pending (s : State) (c : Nat) (t : Transfer) (ps : List (PacketType × Packet)) :
    (s.startTransfer c t ps).pending = s.pending := by simp [State.startTransfer, apply_ite State.pending]

@[simp] theorem State.endTransfer_pending (s : State) (c : Nat) (tid : BitVec 32) :
    (s.endTransfer c tid).pending = s.pending := by
  unfold State.endTransfer
  dsimp only
  (repeat' split) <;> simp

/-! ## Machine/Operands.lean -/

@[simp] theorem State.failIssue_pending (s : State) (t : Nat) (work : Tile) (f : Failure) :
    (s.failIssue t work f).pending = s.pending := by simp [State.failIssue]

@[simp] theorem State.raiseFails_pending (s : State) (t : Nat) (fails : List LateFail) :
    (s.raiseFails t fails).pending = s.pending := by
  induction fails generalizing s with
  | nil => rfl
  | cons f fs ih => simp [State.raiseFails, ih]

@[simp] theorem State.openSlot_pending (s : State) (n : Nat) : (s.openSlot n).pending = s.pending := by
  simp [State.openSlot, apply_ite State.pending]

@[simp] theorem State.endSlot_pending (s : State) (n : Nat) (y : Tile) : (s.endSlot n y).pending = s.pending := by
  simp [State.endSlot]

@[simp] theorem State.endTrial_pending (s : State) (n : Nat) (w : Tile) : (s.endTrial n w).pending = s.pending := by
  simp [State.endTrial]

@[simp] theorem State.issue_pending (s : State) (t : TileNo) (slot : Nat)
    (body : IssueEnv → Tile → Except Failure Tile) (uses : Bundle → Bundle) :
    (s.issue t slot body uses).pending = s.pending := by
  unfold State.issue
  dsimp only
  (repeat' split) <;> simp

/-! ## Machine/Scratch.lean -/

@[simp] theorem State.sampleRead_pending (s : State) (t : Nat) (r : PadRead) : (s.sampleRead t r).pending = s.pending := by
  unfold State.sampleRead
  dsimp only
  (repeat' split) <;> simp

@[simp] theorem State.sampleReads_pending (s : State) (t : Nat) : (s.sampleReads t).pending = s.pending := by
  unfold State.sampleReads
  dsimp only
  (repeat' split) <;> simp [foldl_pending]

@[simp] theorem State.enqueueAccess_pending (s : State) (t : Nat) (agent : Nat) (line : Nat)
    (data : Option (Line × BitVec 64)) (gen : Option (BitVec 2)) (spec : Bool) (owner : UOwner) :
    (s.enqueueAccess t agent line data gen spec owner).pending = s.pending := by simp [State.enqueueAccess]

@[simp] theorem State.scrubbed_pending (s : State) (t line : Nat) : (s.scrubbed t line).pending = s.pending := by
  simp [State.scrubbed, apply_ite State.pending]

/-! ## Machine/Rings.lean -/

@[simp] theorem State.noteLate_pending (s : State) (t : Nat) : (s.noteLate t).pending = s.pending := by simp [State.noteLate]

@[simp] theorem State.asyncRead_pending (s : State) (a n : Nat) : (s.asyncRead a n).1.pending = s.pending := by
  unfold State.asyncRead
  (repeat' split) <;> simp

@[simp] theorem State.restartRing_pending (s : State) (d i : Nat) : (s.restartRing d i).pending = s.pending := by
  simp [State.restartRing, apply_ite State.pending]

@[simp] theorem State.unmapped_pending (s : State) : s.unmapped.pending = s.pending := by simp [State.unmapped]

@[simp] theorem State.coinFault_pending (s : State) (kind index : Nat) (chan : BitVec 14) :
    (s.coinFault kind index chan).pending = s.pending := by simp [State.coinFault]

@[simp] theorem State.returnCoins_pending (s : State) (d i : Nat) (v : Int) (sub : Bool) :
    (s.returnCoins d i v sub).pending = s.pending := by
  unfold State.returnCoins
  dsimp only
  (repeat' split) <;> simp

@[simp] theorem State.applyTill_pending (s : State) (n : BitVec 15) (v : BitVec 32) (sub : Bool) :
    (s.applyTill n v sub).1.pending = s.pending := by
  unfold State.applyTill
  dsimp only
  (repeat' split) <;> simp

@[simp] theorem State.queueTill_pending (s : State) (src : TillSource) (o : TillOp) :
    (s.queueTill src o).pending = s.pending := rfl

@[simp] theorem State.applyPosted_pending (s : State) (t : Nat) (d : BitVec 2) : (s.applyPosted t d).pending = s.pending := by
  unfold State.applyPosted
  (repeat' split) <;> simp

@[simp] theorem State.applyQueued_pending (s : State) (src : TillSource) (d : BitVec 2) :
    (s.applyQueued src d).pending = s.pending := by
  unfold State.applyQueued
  dsimp only
  (repeat' split) <;> simp

@[simp] theorem State.skipTail_pending (s : State) (c : Nat) (n : Nat) (tid : Option (BitVec 32)) :
    (s.skipTail c n tid).pending = s.pending := by
  unfold State.skipTail
  dsimp only
  (repeat' split) <;> simp

@[simp] theorem State.spend_pending (s : State) (c n : Nat) : (s.spend c n).1.pending = s.pending := rfl

@[simp] theorem State.sendMessage_pending (s : State) (c : Nat) (m : Message) (tid : Option (BitVec 32)) :
    (s.sendMessage c m tid).pending = s.pending := by
  unfold State.sendMessage
  dsimp only
  (repeat' split) <;> simp

@[simp] theorem State.readUnits_pending (s : State) (e : Line) (us : List Nat) : (s.readUnits e us).1.pending = s.pending := by
  induction us generalizing s with
  | nil => rfl
  | cons u us ih =>
    unfold State.readUnits
    split
    · rfl
    · split
      · simp [State.pending_of_eq ‹s.dramRead _ _ _ = _›]
      · split <;> simp [State.pending_of_eq ‹State.readUnits _ e us = _›, ih, State.pending_of_eq ‹s.dramRead _ _ _ = _›]

@[simp] theorem State.unspill_pending (s : State) (e : Line) (m : Spilled) : (s.unspill e m).1.pending = s.pending := by
  unfold State.unspill
  split <;> simp [State.pending_of_eq ‹s.readUnits _ _ = _›]

@[simp] theorem State.splitMcast_pending (s : State) (tree : Nat) (input : Option (BitVec 5)) (back : Nat)
    (p : Packet) : (s.splitMcast tree input back p).pending = s.pending := by
  unfold State.splitMcast
  rw [State.drainOut_pending]
  exact foldl_pending (fun s k => by simp) _ _

@[simp] theorem State.ownMcast_pending (s : State) (tree : Nat) (p : Packet) : (s.ownMcast tree p).pending = s.pending := by
  unfold State.ownMcast
  split <;> simp

@[simp] theorem State.readyMembers_pending (s : State) (c : Nat) (n : Nat) (members : List (Nat × Nat)) :
    (s.readyMembers c n members).1.pending = s.pending := by
  induction members generalizing s with
  | nil => rfl
  | cons m rest ih =>
    unfold State.readyMembers
    dsimp only
    split
    · exact ih s
    · split <;> simp [ih]

@[simp] theorem State.departRing_pending (s : State) (c : Nat) : (s.departRing c).pending = s.pending := by
  unfold State.departRing
  split
  · rfl
  · split
    · rfl
    · extract_lets s1
      have h1 : s1.pending = s.pending := by
        unfold s1
        split <;> simp
      clear_value s1
      split
      · exact h1
      · split <;> simp [State.pending_of_eq ‹s1.unspill _ _ = _›, h1]

/-! ## Machine/Fetch.lean -/

@[simp] theorem State.setDesc_pending (s : State) (f n : Nat) (x : DescDyn) : (s.setDesc f n x).pending = s.pending := rfl

@[simp] theorem State.modDesc_pending (s : State) (f n : Nat) (g : DescDyn → DescDyn) :
    (s.modDesc f n g).pending = s.pending := rfl

@[simp] theorem State.descError_pending (s : State) (f n : Nat) (i : Option (BitVec 25)) (addr : Nat) (cause : Nat) :
    (s.descError f n i addr cause).pending = s.pending := rfl

@[simp] theorem State.settleDesc_pending (s : State) (f n : Nat) : (s.settleDesc f n).pending = s.pending := by
  simp [State.settleDesc, apply_ite State.pending]

@[simp] theorem State.farmReaches_pending (s : State) (f n t : Nat) (c : Scc) (spec : Bool) :
    (s.farmReaches f n t c spec).pending = s.pending := by simp [State.farmReaches, apply_ite State.pending]

@[simp] theorem State.sliceFail_pending (s : State) (f n : Nat) (i : BitVec 25) (cause : Nat) :
    (s.sliceFail f n i cause).pending = s.pending := rfl

@[simp] theorem State.modBlock_pending (s : State) (f n : Nat) (i : BitVec 25) (g : Block → Block) :
    (s.modBlock f n i g).pending = s.pending := rfl

@[simp] theorem State.writeBlock_pending (s : State) (f n t : Nat) (i : BitVec 25) (words : List Line) :
    (s.writeBlock f n t i words).pending = s.pending := by
  unfold State.writeBlock
  dsimp only
  (repeat' split) <;> simp [foldl_pending]

@[simp] theorem State.blockData_pending (s : State) (f n : Nat) (i : BitVec 25) (words : List Line) :
    (s.blockData f n i words).pending = s.pending := by simp [State.blockData, apply_ite State.pending]

@[simp] theorem State.issueLocal_pending (s : State) (f n : Nat) (i : BitVec 25) (a : Int) (size : Nat) :
    (s.issueLocal f n i a size).pending = s.pending := by
  unfold State.issueLocal
  dsimp only
  split
  · split
    · simp
    · split
      · split
        · simp
        · simp [foldl_pending]
      · split <;> simp [State.pending_of_eq ‹s.dramRead _ _ _ = _›]
  · simp

@[simp] theorem State.issueRemote_pending (s : State) (f n c : Nat) (i : BitVec 25) (a : Int) (size : Nat) :
    (s.issueRemote f n c i a size).pending = s.pending := by
  unfold State.issueRemote
  dsimp only
  (repeat' split) <;> simp

@[simp] theorem State.advanceHome_pending (s : State) (f n : Nat) (fuel : Nat) :
    (s.advanceHome f n fuel).pending = s.pending := by
  induction fuel generalizing s with
  | zero => rfl
  | succ fuel ih =>
    unfold State.advanceHome
    dsimp only
    split
    · rw [ih]
      split <;> simp
    · rfl

@[simp] theorem State.blockHome_pending (s : State) (f n : Nat) (i : BitVec 25) : (s.blockHome f n i).pending = s.pending := by
  simp [State.blockHome]

@[simp] theorem State.fillFq_pending (s : State) (f n : Nat) (b : Block) : (s.fillFq f n b).pending = s.pending := by
  simp [State.fillFq, apply_ite State.pending]

@[simp] theorem State.blockRefused_pending (s : State) (t f n : Nat) (i : BitVec 25) (cause : Nat) :
    (s.blockRefused t f n i cause).pending = s.pending := by simp [State.blockRefused]

@[simp] theorem State.fetchGranted_pending (s : State) (f n : Nat) (i : BitVec 25) (line : Nat) (read : Option Line) :
    (s.fetchGranted f n i line read).pending = s.pending := rfl

@[simp] theorem State.commitFetch_pending (s : State) (t : Nat) : (s.commitFetch t).pending = s.pending := by
  refine foldl_pending (fun s y => ?_) _ _
  split
  · split <;> simp
  · rfl

@[simp] theorem State.discardFetch_pending (s : State) (t : Nat) : (s.discardFetch t).pending = s.pending := by
  refine foldl_pending (fun s y => ?_) _ _
  split
  · dsimp only
    split
    · rfl
    · split <;> simp
  · rfl

/-! ## Machine/Control.lean -/

@[simp] theorem State.modDrain_pending (s : State) (c : Scc) (g : Drain → Drain) : (s.modDrain c g).pending = s.pending := rfl

@[simp] theorem State.drainCheck_pending (s : State) (c : Scc) : (s.drainCheck c).pending = s.pending := by
  unfold State.drainCheck
  exact foldl_pending (fun _ _ => by split <;> simp) _ _

/-! ## Machine/Petty.lean -/

@[simp] theorem State.sampleReqs_pending (s : State) (t : Nat) : (s.sampleReqs t).pending = s.pending := by
  refine foldl_pending (fun s r => ?_) _ _
  dsimp only
  split
  · rfl
  · split <;> simp [apply_ite State.pending]

@[simp] theorem State.modPetty_pending (s : State) (t : Nat) (n : BitVec 32) (g : Petty → Petty) :
    (s.modPetty t n g).pending = s.pending := by simp [State.modPetty]

@[simp] theorem State.startWindow_pending (s : State) (t : Nat) (p : Petty) : (s.startWindow t p).pending = s.pending := by
  unfold State.startWindow
  dsimp only
  (repeat' split) <;> simp

@[simp] theorem State.startPost_pending (s : State) (t : Nat) (q : LatePost) : (s.startPost t q).pending = s.pending := by
  simp [State.startPost]

@[simp] theorem State.queuePost_pending (s : State) (t : Nat) (q : LatePost) : (s.queuePost t q).pending = s.pending := by
  simp [State.queuePost, apply_ite State.pending]

@[simp] theorem State.startLate_pending (s : State) (t : Nat) : (s.startLate t).pending = s.pending := by
  simp [State.startLate, foldl_pending]

@[simp] theorem State.postRead_pending (s : State) (t : Nat) (r : ReqLine) (d : Line) :
    (s.postRead t r d).pending = s.pending := by simp [State.postRead, apply_ite State.pending]

@[simp] theorem State.pettyDone_pending (s : State) (t : Nat) (n : BitVec 32) (burned : Bool) :
    (s.pettyDone t n burned).pending = s.pending := by simp [State.pettyDone]

@[simp] theorem State.fillPq_pending (s : State) (t : Nat) (fuel : Nat) : (s.fillPq t fuel).pending = s.pending := by
  induction fuel generalizing s with
  | zero => rfl
  | succ fuel ih =>
    unfold State.fillPq
    split
    · dsimp only
      split
      · rfl
      · split <;> simp [ih]
    · rfl

@[simp] theorem State.localGet_pending (s : State) (p : Petty) : (s.localGet p).1.pending = s.pending := by
  unfold State.localGet
  split
  · split <;> simp [State.pending_of_eq ‹s.dramRead _ _ _ = _›]
  · rfl

@[simp] theorem State.getReplied_pending (s : State) (t : Nat) (n : BitVec 32) (bs : List Byte) :
    (s.getReplied t n bs).pending = s.pending := by simp [State.getReplied]

/-! ## Machine/Stream.lean -/

@[simp] theorem State.captureWord_pending (s : State) (t : Nat) (west : Bool) (track : Nat) (w : Word) :
    (s.captureWord t west track w).pending = s.pending := by simp [State.captureWord, apply_ite State.pending]

@[simp] theorem State.stepWord_pending (s : State) (t : Nat) (west : Bool) (track : Nat) (w : Word) :
    (s.stepWord t west track w).pending = s.pending := by
  unfold State.stepWord
  dsimp only
  (repeat' split) <;> simp

@[simp] theorem State.stepWords_pending (s : State) : s.stepWords.pending = s.pending := by
  refine (foldl_pending (fun s w => by simp) _ _).trans ?_
  exact foldl_pending (fun s x => by simp) _ _

@[simp] theorem State.passOutput_pending (s : State) (now : Scc) (x : Transit) : (s.passOutput now x).pending = s.pending := by
  unfold State.passOutput
  (repeat' split) <;> simp

@[simp] theorem State.stepTransits_pending (s : State) : s.stepTransits.pending = s.pending := by
  simp [State.stepTransits, foldl_pending]

@[simp] theorem State.arrive_pending (s : State) (t : Nat) (west : Bool) (track : BitVec 6) :
    (s.arrive t west track).pending = s.pending := by
  unfold State.arrive
  dsimp only
  (repeat' split) <;> simp

@[simp] theorem State.judgeArrivals_pending (s : State) (t : Nat) (y : Tile) : (s.judgeArrivals t y).pending = s.pending := by
  unfold State.judgeArrivals
  exact foldl_pending (fun _ _ => by split <;> simp) _ _

/-! ## Machine/Escrow.lean -/

@[simp] theorem State.resolvePosts_pending (s : State) (t : Nat) (commit : Bool) :
    (s.resolvePosts t commit).pending = s.pending := by
  unfold State.resolvePosts
  exact foldl_pending (fun _ _ => by split <;> simp) _ _

@[simp] theorem State.burnWaiting_pending (s : State) (t : Nat) : (s.burnWaiting t).pending = s.pending := by
  unfold State.burnWaiting
  exact foldl_pending (fun _ _ => by split <;> simp) _ _

@[simp] theorem State.resolveMember_pending (s : State) (t : Nat) : (s.resolveMember t).pending = s.pending := by
  simp [State.resolveMember, apply_ite State.pending]

@[simp] theorem State.undoIssue_pending (s : State) (t : Nat) : (s.undoIssue t).pending = s.pending := by
  unfold State.undoIssue
  split <;> simp

@[simp] theorem State.disagree_pending (s : State) (eres : Bool) (t : Nat) : (s.disagree eres t).pending = s.pending := by
  unfold State.disagree
  dsimp only
  (repeat' split) <;> simp [foldl_pending]

@[simp] theorem State.checkGroups_pending (s : State) : s.checkGroups.pending = s.pending := by
  simp [State.checkGroups, foldl_pending]

@[simp] theorem State.resolveGroups_pending (s : State) : s.resolveGroups.pending = s.pending := by
  refine (foldl_pending (fun s t => ?_) _ _).trans ?_
  · dsimp only
    split <;> simp
  · exact foldl_pending (fun s t => by simp) _ _

/-! ## Machine/Gleaner.lean -/

@[simp] theorem State.scriptFault_pending (s : State) (k : Nat) (p : Post) (pc : Nat) (f : ScriptFault) :
    (s.scriptFault k p pc f).pending = s.pending := rfl

@[simp] theorem State.script_pending (s : State) (k : BitVec 4) (post : BitVec 32) (item : BitVec 20) (o : ScriptOp)
    (n : Needs) (body : Post → Thread → Except ScriptFault Thread) :
    (s.script k post item o n body).pending = s.pending := by
  unfold State.script
  dsimp only
  (repeat' split) <;> simp

@[simp] theorem State.pushFq_pending (s : State) (k : Nat) (p : Post) (ws : List Line) :
    (s.pushFq k p ws).pending = s.pending := by simp [State.pushFq]

@[simp] theorem State.postDone_pending (s : State) (k : Nat) (p : Post) : (s.postDone k p).pending = s.pending := by
  simp [State.postDone]

/-! ## Machine/Bundle.lean -/

@[simp] theorem State.runThread_pending (s : State) (k : Nat) (p : Post) (item : Nat) (t : Thread) :
    (s.runThread k p item t).pending = s.pending := by
  unfold State.runThread
  dsimp only
  split
  · rfl
  · split
    · next hf =>
      obtain ⟨needs, body, hrun⟩ := scriptCommand_runs hf (BitVec.ofNat 4 k) p.number (BitVec.ofNat 20 item)
        (scriptFields (Sparse.get 0 (s.stack k).script t.pc)) s
      rw [hrun]
      simp
    · split <;> simp

@[simp] theorem State.runScripts_pending (s : State) : s.runScripts.pending = s.pending := by
  refine foldl_pending (fun s k => foldl_pending (fun s p => foldl_pending (fun s t => ?_) _ _) _ _) _ _
  split <;> simp

/-! ## Machine/Links.lean -/

@[simp] theorem State.linkTally_pending (s : State) (k : Nat) (event : BitVec 8) :
    (s.linkTally k event).pending = s.pending := by simp [State.linkTally]

@[simp] theorem State.linkComesUp_pending (s : State) (k : Nat) : (s.linkComesUp k).pending = s.pending := by
  simp [State.linkComesUp]

@[simp] theorem State.linkTrains_pending (s : State) (k : Nat) (st : BitVec 3) : (s.linkTrains k st).pending = s.pending := rfl
@[simp] theorem State.linkReady_pending (s : State) (k : Nat) : (s.linkReady k).pending = s.pending := rfl

@[simp] theorem State.resend_pending (s : State) (k : Nat) : (s.resend k).pending = s.pending := by
  simp [State.resend, foldl_pending]

@[simp] theorem State.takeFlit_pending (s : State) (n : Nat) (x : Flit) : (s.takeFlit n x).1.pending = s.pending := by
  unfold State.takeFlit
  dsimp only
  (repeat' split) <;> simp

@[simp] theorem State.reroute_pending (s : State) (k : Nat) : (s.reroute k).pending = s.pending := rfl

@[simp] theorem State.askAbout_pending (s : State) (ps : List (PacketType × Packet)) :
    (s.askAbout ps).1.pending = s.pending := by simp [State.askAbout, foldl_pending]

@[simp] theorem State.linkFails_pending (s : State) (k : Nat) (st : BitVec 3) : (s.linkFails k st).pending = s.pending := by
  simp [State.linkFails]

@[simp] theorem State.linkRestarts_pending (s : State) (k : Nat) : (s.linkRestarts k).pending = s.pending := rfl

@[simp] theorem State.reconciled_pending (s : State) (src : BitVec 12) (chan : BitVec 16) :
    (s.reconciled src chan).pending = s.pending := by
  refine foldl_pending (fun s l => ?_) _ _
  dsimp only
  split
  · split <;> simp
  · rfl

@[simp] theorem State.took_pending (s : State) (k : Nat) (ty : PacketType) (p : Packet) :
    (s.took k ty p).pending = s.pending := by simp [State.took]

@[simp] theorem State.refuse_pending (s : State) (dst : BitVec 12) (chan : BitVec 14) (tid : BitVec 32) (which : Nat)
    (cause : BitVec 8) (coins : Nat) : (s.refuse dst chan tid which cause coins).pending = s.pending := by simp [State.refuse]

@[simp] theorem State.hopLimit_pending (s : State) (ty : PacketType) (p : Packet) : (s.hopLimit ty p).pending = s.pending := by
  unfold State.hopLimit
  split
  · exact foldl_pending (fun s m => by simp) _ _
  · split <;> simp

@[simp] theorem State.forward_pending (s : State) (n : Nat) (ty : PacketType) (p : Packet) :
    (s.forward n ty p).pending = s.pending := by simp [State.forward, apply_ite State.pending]

/-! ## Machine/Packets.lean -/

@[simp] theorem State.modPart_pending (s : State) (w : Flow) (g : Partial → Partial) : (s.modPart w g).pending = s.pending := rfl

@[simp] theorem State.openPart_pending (s : State) (w : Flow) : (s.openPart w).pending = s.pending := by
  simp [State.openPart, apply_ite State.pending]

@[simp] theorem State.acknowledge_pending (s : State) (w : Flow) : (s.acknowledge w).pending = s.pending := by
  simp [State.acknowledge]

@[simp] theorem State.refuseFlow_pending (s : State) (w : Flow) (cause : BitVec 8) (coins : Nat) :
    (s.refuseFlow w cause coins).pending = s.pending := by simp [State.refuseFlow]

@[simp] theorem State.reply_pending (s : State) (w : Flow) (a : Nat) (bs : List Byte) :
    (s.reply w a bs).pending = s.pending := by simp [State.reply, foldl_pending]

@[simp] theorem State.dropRead_pending (s : State) (w : Flow) : (s.dropRead w).pending = s.pending := rfl
@[simp] theorem State.landed_pending (s : State) (x : RingPlace) : (s.landed x).pending = s.pending := rfl
@[simp] theorem State.ringRefused_pending (s : State) (x : RingPlace) : (s.ringRefused x).pending = s.pending := rfl

@[simp] theorem State.finishPart_pending (s : State) (w : Flow) : (s.finishPart w).pending = s.pending := by
  unfold State.finishPart
  (repeat' split) <;> simp

@[simp] theorem State.notePacket_pending (s : State) (w : Flow) (p : Packet) (cause : Option (BitVec 8)) (waits : Nat)
    (total : Option Nat) (ring : Option RingPlace) : (s.notePacket w p cause waits total ring).pending = s.pending := by
  simp [State.notePacket]

/-- A packet that is taken once leaves the queue if its effect does. -/
theorem State.once_pending (s : State) (w : Flow) (p : Packet) {f : State → State}
    (hf : ∀ s, (f s).pending = s.pending) : (s.once w p f).pending = s.pending := by
  unfold State.once
  split
  · rfl
  · split
    · simp
    · dsimp only
      split <;> simp [hf]

@[simp] theorem State.takeReadReq_pending (s : State) (p : Packet) : (s.takeReadReq p).pending = s.pending := by
  refine State.once_pending s _ p fun s => ?_
  split
  · split
    · simp
    · split <;> simp [State.pending_of_eq ‹s.dramRead _ _ _ = _›]
  · dsimp only
    split
    · simp
    · split
      · simp
      · simp [foldl_pending]
  · simp

@[simp] theorem State.takeReadReply_pending (s : State) (p : Packet) : (s.takeReadReply p).pending = s.pending := by
  unfold State.takeReadReply
  dsimp only
  (repeat' split) <;> simp

@[simp] theorem State.passMcast_pending (s : State) (k : Nat) (tree : Nat) (whole p : Packet) :
    (s.passMcast k tree whole p).pending = s.pending := by simp [State.passMcast, apply_ite State.pending]

@[simp] theorem State.applySignal_pending (s : State) (w : Flow) : (s.applySignal w).pending = s.pending := by
  unfold State.applySignal
  dsimp only
  (repeat' split) <;> simp

@[simp] theorem State.takeSignal_pending (s : State) (p : Packet) : (s.takeSignal p).pending = s.pending :=
  State.once_pending s _ p fun s => by simp

@[simp] theorem State.copyDone_pending (s : State) (t : Nat) (n : BitVec 32) : (s.copyDone t n).pending = s.pending := by
  unfold State.copyDone
  (repeat' split) <;> simp

@[simp] theorem State.transferDone_pending (s : State) (c : Nat) (tr : Transfer) :
    (s.transferDone c tr).pending = s.pending := by
  unfold State.transferDone
  (repeat' split) <;> simp

theorem State.copyOf_pending {s s' : State} {c : Nat} {tr : Transfer} {p : Packet} (h : s.copyOf c tr p = some s') :
    s'.pending = s.pending := by
  unfold State.copyOf at h
  split at h
  · cases h; rfl
  · dsimp only at h
    split at h
    · cases h
    · cases h; simp

@[simp] theorem State.takeAck_pending (s : State) (p : Packet) : (s.takeAck p).pending = s.pending := by
  unfold State.takeAck
  dsimp only
  split
  · rfl
  · split
    · rfl
    · split
      · simp
      · split
        · next h => simp [State.copyOf_pending h]
        · rfl

@[simp] theorem State.giveCoins_pending (s : State) (c n : Nat) : (s.giveCoins c n).pending = s.pending := rfl
@[simp] theorem State.routeFails_pending (s : State) (c : Nat) : (s.routeFails c).pending = s.pending := rfl

@[simp] theorem State.returnRefused_pending (s : State) (dst : BitVec 12) (p : Packet) :
    (s.returnRefused dst p).pending = s.pending := by
  unfold State.returnRefused
  dsimp only
  (repeat' split) <;> simp

@[simp] theorem State.refused_pending (s : State) (c : Nat) (tr : Transfer) (cause : Nat) (ring : Bool) :
    (s.refused c tr cause ring).pending = s.pending := by
  unfold State.refused
  (repeat' split) <;> simp

@[simp] theorem State.answerRefused_pending (s : State) (p : Packet) : (s.answerRefused p).pending = s.pending := by
  simp [State.answerRefused, apply_ite State.pending]

@[simp] theorem State.takeRefuse_pending (s : State) (p : Packet) : (s.takeRefuse p).pending = s.pending := by
  unfold State.takeRefuse
  dsimp only
  split
  · simp
  · split
    · split <;> simp
    · split
      · split <;> split <;> simp
      · split
        · split <;> split <;> simp
        · next h => simp [State.copyOf_pending h, apply_ite State.pending]

@[simp] theorem State.applyReturns_pending (s : State) (link : Option Nat) (c : Nat) (fuel : Nat) :
    (s.applyReturns link c fuel).pending = s.pending := by
  induction fuel generalizing s with
  | zero => rfl
  | succ fuel ih =>
    unfold State.applyReturns
    dsimp only
    split
    · rfl
    · split <;> simp [ih]

@[simp] theorem State.takeReturn_pending (s : State) (link : Option Nat) (p : Packet) :
    (s.takeReturn link p).pending = s.pending := by simp [State.takeReturn, apply_ite State.pending]

@[simp] theorem State.joinControl_pending (s : State) (link : Option Nat) (p : Packet) :
    (s.joinControl link p).pending = s.pending := by
  unfold State.joinControl
  dsimp only
  (repeat' split) <;> simp

@[simp] theorem State.modArrival_pending (s : State) (die : BitVec 2) (index : BitVec 10) (pos : BitVec 24)
    (g : Arrived → Arrived) : (s.modArrival die index pos g).pending = s.pending := rfl

@[simp] theorem State.accessRefused_pending (s : State) (t : Nat) (r : URequest) :
    (s.accessRefused t r).pending = s.pending := by
  obtain ⟨agent, age, line, data, gen, spec, owner⟩ := r
  cases owner <;> simp [State.accessRefused, UOwner.flow]

@[simp] theorem State.accessWritten_pending (s : State) (r : URequest) : (s.accessWritten r).pending = s.pending := by
  unfold State.accessWritten
  split <;> simp

@[simp] theorem State.lineRead_pending (s : State) (t : Nat) (r : URequest) (v : Line) :
    (s.lineRead t r v).pending = s.pending := by
  obtain ⟨agent, age, line, data, gen, spec, owner⟩ := r
  cases owner <;> simp [State.lineRead, UOwner.flow]

@[simp] theorem State.lineBad_pending (s : State) (t : Nat) (r : URequest) : (s.lineBad t r).pending = s.pending := by
  obtain ⟨agent, age, line, data, gen, spec, owner⟩ := r
  cases owner <;> simp [State.lineBad, UOwner.flow]

@[simp] theorem State.grantedRead_pending (s : State) (t : Nat) (r : URequest) : (s.grantedRead t r).pending = s.pending := by
  simp [State.grantedRead, apply_ite State.pending]

@[simp] theorem State.stewardBytes_pending (s : State) (t a : Nat) (bs : List Byte) :
    (s.stewardBytes t a bs).pending = s.pending := by simp [State.stewardBytes, foldl_pending]

/-! ## Machine/Ledger.lean -/

@[simp] theorem State.measure_pending (s : State) (kind : BitVec 8) (d : BitVec 256) :
    (s.measure kind d).pending = s.pending := rfl

@[simp] theorem State.closeSessions_pending (s : State) (p : Session → Bool) : (s.closeSessions p).pending = s.pending := rfl

@[simp] theorem State.sendOut_pending (s : State) (port : Bool) (sub : BitVec 2) (dscp : BitVec 6) (o : Output) :
    (s.sendOut port sub dscp o).pending = s.pending := by simp [State.sendOut, apply_ite State.pending]

@[simp] theorem State.spendPn_pending (s : State) (n : BitVec 32) : (s.spendPn n).pending = s.pending := by
  unfold State.spendPn
  (repeat' split) <;> simp

@[simp] theorem State.sendMessage1_pending (s : State) (n : BitVec 32) (mtype status seg : BitVec 8)
    (reqid lseq ltime : BitVec 64) (dscp : BitVec 6) (data : List Byte) :
    (s.sendMessage1 n mtype status seg reqid lseq ltime dscp data).pending = s.pending := by
  unfold State.sendMessage1
  split <;> simp

@[simp] theorem State.sendStatus_pending (s : State) (n : BitVec 32) (dscp : BitVec 6) (reqid : BitVec 64)
    (st : BitVec 8) : (s.sendStatus n dscp reqid st).pending = s.pending := by
  unfold State.sendStatus
  split <;> simp

@[simp] theorem State.storedReply_pending (s : State) (r : Receipt) : (s.storedReply r).1.pending = s.pending := by
  unfold State.storedReply
  split
  · rfl
  · split <;> simp [State.pending_of_eq ‹s.readDram _ _ = _›]

@[simp] theorem State.floor_pending (s : State) (client : Nat) : (s.floor client).1.pending = s.pending := by
  unfold State.floor
  split
  · rfl
  · split <;> simp [State.pending_of_eq ‹s.readDram _ _ = _›]

@[simp] theorem State.sendReply_pending (s : State) (mtype : BitVec 8) (r : Receipt) (data : List Byte) :
    (s.sendReply mtype r data).pending = s.pending := by simp [State.sendReply, foldl_pending]

@[simp] theorem State.exportItem_pending (s : State) (n : BitVec 32) (item part parts count : Nat)
    (content : List Byte) : (s.exportItem n item part parts count content).pending = s.pending := by simp [State.exportItem]

@[simp] theorem State.appendWith_pending (s : State) (d : RecordDraft) (imd : BitVec 192) :
    (s.appendWith d imd).pending = s.pending := by simp [State.appendWith, foldl_pending]

@[simp] theorem State.append_pending (s : State) (d : RecordDraft) : (s.append d).pending = s.pending := by
  simp [State.append, apply_ite State.pending]

@[simp] theorem State.sealNow_pending (s : State) : s.sealNow.pending = s.pending := by
  simp [State.sealNow, apply_ite State.pending]

@[simp] theorem State.exportSeal_pending (s : State) (n : BitVec 32) (sl : List Byte) :
    (s.exportSeal n sl).pending = s.pending := by simp [State.exportSeal, foldl_pending]

@[simp] theorem State.flushAppends_pending (s : State) (drafts : List RecordDraft) :
    (s.flushAppends drafts).pending = s.pending := by
  induction drafts generalizing s with
  | nil => rfl
  | cons d ds ih =>
    unfold State.flushAppends
    split
    · rfl
    · simp [ih]

@[simp] theorem State.sealDone_pending (s : State) : s.sealDone.pending = s.pending := by
  unfold State.sealDone
  split
  · rfl
  · extract_lets sl v signed counted exported told v' resealed
    have he : exported.pending = s.pending := by
      unfold exported
      rw [foldl_pending fun s u => by split <;> simp, State.count_pending]
    have ht : told.pending = s.pending := by
      unfold told
      split <;> simp [he]
    rw [State.flushAppends_pending]
    unfold resealed
    split <;> simp [ht]

@[simp] theorem State.startEpoch_pending (s : State) : s.startEpoch.pending = s.pending := by simp [State.startEpoch]

/-! ## Machine/Cycle.lean -/

@[simp] theorem State.windowDrives_pending (s : State) : s.windowDrives.pending = s.pending := by
  unfold State.windowDrives
  refine foldl_pending (fun s x => ?_) _ _
  split
  · split <;> simp
  · rfl

@[simp] theorem State.settleDrain_pending (s : State) : s.settleDrain.pending = s.pending := by
  unfold State.settleDrain
  dsimp only
  (repeat' split) <;> simp

@[simp] theorem State.checkDrainers_pending (s : State) : s.checkDrainers.pending = s.pending := by
  unfold State.checkDrainers
  refine foldl_pending (fun s d => ?_) _ _
  dsimp only
  split <;> split <;> simp

@[simp] theorem State.checkRunOff_pending (s : State) : s.checkRunOff.pending = s.pending := by
  simp [State.checkRunOff, foldl_pending]

@[simp] theorem State.haltAll_pending (s : State) (t : Nat) (fs : List (BitVec 11 × Failure)) :
    (s.haltAll t fs).pending = s.pending := by simp [State.haltAll, foldl_pending]

@[simp] theorem State.settleTile_pending (s : State) (t : Nat) : (s.settleTile t).pending = s.pending := by
  unfold State.settleTile
  dsimp only
  (repeat' split) <;> simp

@[simp] theorem State.countPortWaits_pending (s : State) : s.countPortWaits.pending = s.pending := by
  unfold State.countPortWaits
  exact foldl_pending (fun _ _ => by dsimp only; split <;> simp) _ _

@[simp] theorem State.endCycle_pending (s : State) : s.endCycle.pending = s.pending := by
  unfold State.endCycle
  dsimp only
  rw [State.stepWords_pending, foldl_pending fun s x => State.setTile_pending _ _ _, State.resolveGroups_pending,
    State.checkDrainers_pending,
    foldl_pending State.settleTile_pending, foldl_pending fun s t => State.judgeArrivals_pending _ _ _, State.checkGroups_pending,
    State.settleDrain_pending, State.checkRunOff_pending]

@[simp] theorem State.raiseLate_pending (s : State) (t : Nat) : (s.raiseLate t).pending = s.pending := by
  simp [State.raiseLate, apply_ite State.pending]

@[simp] theorem State.beginWakes_pending (s : State) : s.beginWakes.pending = s.pending := by
  unfold State.beginWakes
  split
  · rfl
  · refine foldl_pending (fun s x => ?_) _ _
    dsimp only
    split <;> simp

@[simp] theorem State.forgetDrains_pending (s : State) : s.forgetDrains.pending = s.pending := by
  simp [State.forgetDrains, apply_ite State.pending]

@[simp] theorem State.beginCycle_pending (s : State) : s.beginCycle.pending = s.pending := by
  simp [State.beginCycle, foldl_pending]

@[simp] theorem State.sendSignal_pending (s : State) (p : Posted) : (s.sendSignal p).pending = s.pending := by
  unfold State.sendSignal
  dsimp only
  (repeat' split) <;> simp

@[simp] theorem State.sendSignals_pending (s : State) (t : Nat) : (s.sendSignals t).pending = s.pending := by
  simp [State.sendSignals, foldl_pending]

@[simp] theorem State.watchHold_pending (s : State) : s.watchHold.pending = s.pending := by
  unfold State.watchHold
  dsimp only
  (repeat' split) <;> simp [foldl_pending]

@[simp] theorem State.countTime_pending (s : State) (ns us : Nat) : (s.countTime ns us).pending = s.pending := by
  unfold State.countTime
  extract_lets held hs s1 s2
  have h1 : s1.pending = s.pending := by
    unfold s1
    split
    · rfl
    · exact foldl_pending (fun s n => by dsimp only; split <;> simp) _ s
  have h2 : s2.pending = s.pending := by
    unfold s2
    split <;> simp [h1]
  split
  · exact h2
  · refine (foldl_pending (fun s k => ?_) _ _).trans h2
    dsimp only
    split <;> split <;> simp

@[simp] theorem State.passTime_pending (s : State) (u : Nat) : (s.passTime u).pending = s.pending := by
  simp [State.passTime, apply_ite State.pending]

@[simp] theorem State.repayDebt_pending (s : State) : s.repayDebt.pending = s.pending := by
  simp [State.repayDebt, apply_ite State.pending]

/-! ## Machine/Blocks.lean -/

@[simp] theorem State.putIo0_pending (s : State) (off : Nat) (v : BitVec 32) : (s.putIo0 off v).pending = s.pending := by
  simp [State.putIo0, apply_ite State.pending]

@[simp] theorem State.putReg_pending (s : State) (b : RegBlock) (off : Nat) (v : BitVec 32) :
    (s.putReg b off v).pending = s.pending := by
  unfold State.putReg
  (repeat' split) <;> simp

@[simp] theorem State.mapChannel_pending (s : State) (c : Nat) : (s.mapChannel c).pending = s.pending := by
  unfold State.mapChannel
  exact foldl_pending (fun _ _ => by simp) _ _

@[simp] theorem State.mapChannels_pending (s : State) : s.mapChannels.pending = s.pending := by
  unfold State.mapChannels
  exact foldl_pending (fun _ _ => by simp) _ _

/-! ## Machine/House.lean -/

@[simp] theorem State.dropFrame_pending (s : State) (port : Bool) (sub : BitVec 2) :
    (s.dropFrame port sub).pending = s.pending := by simp [State.dropFrame]

@[simp] theorem State.bufferFrame_pending (s : State) (port : Bool) (sub : BitVec 2) (n : Nat) :
    (s.bufferFrame port sub n).pending = s.pending := by simp [State.bufferFrame, apply_ite State.pending]

@[simp] theorem State.answerFrame_pending (s : State) (port : Bool) (sub : BitVec 2) (k : FrameKind) :
    (s.answerFrame port sub k).pending = s.pending := by simp [State.answerFrame, apply_ite State.pending]

@[simp] theorem State.releaseTx_pending (s : State) (port : Bool) (sub : BitVec 2) :
    (s.releaseTx port sub).pending = s.pending := by
  unfold State.releaseTx
  dsimp only
  split
  · rw [foldl_pending fun s e => State.emit_pending _ _, State.setSub_pending]
  · rfl

@[simp] theorem State.drainSub_pending (s : State) (port : Bool) (sub : BitVec 2) :
    (s.drainSub port sub).pending = s.pending := by simp [State.drainSub, apply_ite State.pending]

@[simp] theorem State.readPtp_pending (s : State) : s.readPtp.pending = s.pending := by
  unfold State.readPtp
  split
  · rfl
  · rw [foldl_pending fun s q => foldl_pending (fun s t => State.emit_pending _ _) _ _]

@[simp] theorem State.drainPorts_pending (s : State) : s.drainPorts.pending = s.pending := by
  simp [State.drainPorts, foldl_pending]

@[simp] theorem State.applyPatch_pending (s : State) (source : Nat) (bs : List Byte)
    (es : List (Nat × Nat × BitVec 32 × Nat)) : (s.applyPatch source bs es).pending = s.pending := by
  simp [State.applyPatch, foldl_pending]

@[simp] theorem State.patchPart_pending (s : State) (source : Nat) (x : PatchPart) :
    (s.patchPart source x).1.pending = s.pending := by
  unfold State.patchPart
  dsimp only
  (repeat' split) <;> simp

@[simp] theorem State.sendHandshake_pending (s : State) (type : BitVec 8) (x : InitMsg) (session : BitVec 32)
    (body : List Byte) : (s.sendHandshake type x session body).pending = s.pending := by simp [State.sendHandshake, foldl_pending]

@[simp] theorem State.sendReject_pending (s : State) (port : Bool) (sub : BitVec 2) (session : BitVec 32)
    (exchange : BitVec 64) (status : BitVec 8) : (s.sendReject port sub session exchange status).pending = s.pending := by
  simp [State.sendReject]

@[simp] theorem State.freeSlow_pending (s : State) (session : BitVec 32) : (s.freeSlow session).pending = s.pending := by
  simp [State.freeSlow]

@[simp] theorem State.hear_pending (s : State) (x : Session) (d : Datagram) : (s.hear x d).1.pending = s.pending := by
  unfold State.hear
  (repeat' split) <;> simp

@[simp] theorem State.openSealed_pending (s : State) (h : Sealed) : (s.openSealed h).1.pending = s.pending := by
  unfold State.openSealed
  split <;> simp

@[simp] theorem State.houseRead_pending (s : State) (a : Arrived) (addr n : Nat) :
    (s.houseRead a addr n).1.pending = s.pending := by
  unfold State.houseRead
  dsimp only
  (repeat' split) <;> simp [foldl_pending]

@[simp] theorem State.outboxError_pending (s : State) (cause : BitVec 4) : (s.outboxError cause).pending = s.pending := rfl

@[simp] theorem State.exportSealsOf_pending (s : State) (u : BitVec 32) (n : Nat) :
    (s.exportSealsOf u n).pending = s.pending := by
  unfold State.exportSealsOf
  exact foldl_pending (fun _ _ => by split <;> simp) _ _

@[simp] theorem State.exportRun_pending (s : State) (u : BitVec 32) (n : Nat) (m : Nat) (bs : List Byte)
    (fuel : Nat) : (s.exportRun u n m bs fuel).pending = s.pending := by
  induction fuel generalizing s n m bs with
  | zero =>
    unfold State.exportRun
    split <;> simp
  | succ k ih =>
    unfold State.exportRun
    dsimp only
    split
    · exact ih ..
    · split <;> simp [ih]

@[simp] theorem State.startExport_pending (s : State) (u : BitVec 32) (from_ : BitVec 64) :
    (s.startExport u from_).pending = s.pending := by simp [State.startExport, apply_ite State.pending]

/-! ## Machine/Resets.lean -/

@[simp] theorem State.burnInFlight_pending (s : State) : s.burnInFlight.pending = s.pending := by
  unfold State.burnInFlight
  exact foldl_pending (fun _ _ => by dsimp only; split <;> simp) _ _

@[simp] theorem State.measureBoot_pending (s : State) (n : Nat) : (s.measureBoot n).pending = s.pending := by
  simp [State.measureBoot]

@[simp] theorem State.trainLinks_pending (s : State) : s.trainLinks.pending = s.pending := by
  unfold State.trainLinks
  exact foldl_pending (fun _ _ => by simp) _ _

@[simp] theorem State.calibrate_pending (s : State) (o : BootOutcome) : (s.calibrate o).1.pending = s.pending := rfl

@[simp] theorem State.takeMargins_pending (s : State) (o : BootOutcome) (k : Nat) :
    (s.takeMargins o k).pending = s.pending := rfl

@[simp] theorem State.askWarm_pending (s : State) (why : BitVec 2) : (s.askWarm why).pending = s.pending := by
  simp [State.askWarm, apply_ite State.pending]

/-! ## Machine/Clocks.lean -/

@[simp] theorem State.relock_pending (s : State) (n : BitVec 3) : (s.relock n).pending = s.pending := by
  simp [State.relock, apply_ite State.pending]

@[simp] theorem State.applyStep_pending (s : State) : s.applyStep.pending = s.pending := by
  unfold State.applyStep
  split <;> simp

@[simp] theorem State.refLost_pending (s : State) (domain : Nat) (guardFault : Bool) :
    (s.refLost domain guardFault).pending = s.pending := by simp [State.refLost]

@[simp] theorem State.abandonDrain_pending (s : State) : s.abandonDrain.pending = s.pending := rfl

@[simp] theorem State.lossIn_pending (s : State) (d : Nat) : (s.lossIn d).pending = s.pending := by
  unfold State.lossIn
  split
  · simp
  · split
    · split
      · split <;> simp
      · rfl
    · split
      · exact foldl_pending (fun s i => by simp) _ _
      · split
        · simp
        · split
          · simp
          · split
            · simp
            · split <;> rfl

@[simp] theorem State.followStep_pending (s : State) : s.followStep.pending = s.pending := by
  simp [State.followStep, apply_ite State.pending]

@[simp] theorem State.beaconAt_pending (s : State) (full : Bool) (d : Nat) : (s.beaconAt full d).pending = s.pending := rfl

/-! ## Machine/Plans.lean -/

@[simp] theorem State.tellAll_pending (s : State) (kind : BitVec 8) (data : List Byte) :
    (s.tellAll kind data).pending = s.pending := by
  unfold State.tellAll
  refine foldl_pending (fun s l => ?_) _ _
  split
  · rfl
  · split <;> simp

@[simp] theorem State.readPieces_pending (s : State) (a : Nat) (fuel : Nat) : (s.readPieces a fuel).1.pending = s.pending := by
  induction fuel generalizing s a with
  | zero => rfl
  | succ n ih =>
    unfold State.readPieces
    split
    · split
      · simp [State.pending_of_eq ‹s.dramRead _ _ _ = _›]
      · split <;> simp [State.pending_of_eq ‹State.readPieces _ _ n = _›, ih, State.pending_of_eq ‹s.dramRead _ _ _ = _›]
    · rfl

@[simp] theorem State.copyChannel_pending (s : State) (dev : BitVec 12) (base size : Nat) :
    (s.copyChannel dev base size).1.pending = s.pending := by
  unfold State.copyChannel
  split
  · rw [State.mapChannel_pending, State.modChan_pending]
  · split
    · rw [State.mapChannel_pending, State.modChan_pending]
    · rfl

@[simp] theorem State.sendPieces_pending (s : State) (c : Nat) (src dst : Nat) (fuel : Nat) :
    (s.sendPieces c src dst fuel).pending = s.pending := by
  induction fuel generalizing s src dst with
  | zero => rfl
  | succ n ih =>
    unfold State.sendPieces
    split <;> simp [ih, State.pending_of_eq ‹s.readPieces _ _ = _›]

@[simp] theorem State.setInterval_pending (s : State) : s.setInterval.pending = s.pending := by
  unfold State.setInterval
  (repeat' split) <;> simp

@[simp] theorem State.startDrain_pending (s : State) (k : BitVec 64) : (s.startDrain k).pending = s.pending := rfl

@[simp] theorem State.commitHere_pending (s : State) (r : BitVec 64) (loss : BitVec 32) (snapshot : Bool) :
    (s.commitHere r loss snapshot).pending = s.pending := by
  unfold State.commitHere
  dsimp only
  (repeat' split) <;> simp

@[simp] theorem State.readLoss_pending (s : State) (p : Line) : (s.readLoss p).1.pending = s.pending := by
  unfold State.readLoss
  dsimp only
  (repeat' split) <;> simp

@[simp] theorem State.mismatch_pending (s : State) : s.mismatch.pending = s.pending := by simp [State.mismatch]

@[simp] theorem State.judge_pending (s : State) (p : Line) : (s.judge p).pending = s.pending := by
  unfold State.judge
  split
  · dsimp only
    split <;> simp [State.pending_of_eq ‹s.readLoss p = _›]
  · simp [State.pending_of_eq ‹s.readLoss p = _›]

@[simp] theorem State.tryCommit_pending (s : State) : s.tryCommit.pending = s.pending := by
  unfold State.tryCommit
  split
  · rfl
  · dsimp only
    split
    · rfl
    · split
      · split <;> simp
      · split
        · split <;> simp [State.pending_of_eq ‹s.readLoss _ = _›]
        · rfl

@[simp] theorem State.retryCommit_pending (s : State) : s.retryCommit.pending = s.pending := by
  simp [State.retryCommit, apply_ite State.pending]

@[simp] theorem State.noteReport_pending (s : State) (l : BitVec 12) (step : BitVec 64) (copied ended : Bool) :
    (s.noteReport l step copied ended).pending = s.pending := by simp [State.noteReport]

@[simp] theorem State.report_pending (s : State) (step : BitVec 64) (copied ended : Bool) :
    (s.report step copied ended).pending = s.pending := by
  unfold State.report
  (repeat' split) <;> simp

@[simp] theorem State.askSnapshot_pending (s : State) : s.askSnapshot.pending = s.pending := by
  unfold State.askSnapshot
  (repeat' split) <;> simp

@[simp] theorem State.replayEnded_pending (s : State) : s.replayEnded.pending = s.pending := by
  simp [State.replayEnded, apply_ite State.pending]

/-! ## Machine/Image.lean -/

@[simp] theorem State.clearListed_pending (s : State) : s.clearListed.pending = s.pending := rfl

/-! ## Machine/Messages.lean -/

@[simp] theorem State.proveLink_pending (s : State) (k : Nat) : (s.proveLink k).pending = s.pending := by
  unfold State.proveLink
  dsimp only
  (repeat' split) <;> simp

@[simp] theorem State.takeOver_pending (s : State) (logical : BitVec 12) (time : BitVec 64) :
    (s.takeOver logical time).pending = s.pending := by simp [State.takeOver, apply_ite State.pending]

@[simp] theorem State.peerDies_pending (s : State) (phys logical : BitVec 12) (time : BitVec 64) :
    (s.peerDies phys logical time).pending = s.pending := by simp [State.peerDies, apply_ite State.pending]

@[simp] theorem State.answerPlan_pending (s : State) (ok : Bool) : (s.answerPlan ok).pending = s.pending := rfl

@[simp] theorem State.startVerify_pending (s : State) : s.startVerify.pending = s.pending := by
  unfold State.startVerify
  split <;> simp

@[simp] theorem State.sendHalves_pending (s : State) : s.sendHalves.pending = s.pending := by
  unfold State.sendHalves
  dsimp only
  rw [foldl_pending, foldl_pending]
  · intro s c
    split
    · rfl
    · split <;> simp
  · intro s r
    split
    · rfl
    · split <;> simp

@[simp] theorem State.dropHalves_pending (s : State) : s.dropHalves.pending = s.pending := rfl

@[simp] theorem State.releaseCount_pending (s : State) : s.releaseCount.pending = s.pending := by
  simp [State.releaseCount, apply_ite State.pending]

@[simp] theorem State.endAnswered_pending (s : State) (src : BitVec 12) (chan : BitVec 14) (t : Transfer) :
    (s.endAnswered src chan t).pending = s.pending := by
  unfold State.endAnswered
  dsimp only
  (repeat' split) <;> simp [foldl_pending]

@[simp] theorem State.dropAnswered_pending (s : State) (src : BitVec 12) (chan : BitVec 16) (first : BitVec 32)
    (done : BitVec 4096) : (s.dropAnswered src chan first done).pending = s.pending := rfl

@[simp] theorem State.redraw_pending (s : State) (logical phys : BitVec 12) : (s.redraw logical phys).pending = s.pending := by
  simp [State.redraw]

@[simp] theorem State.refill_pending (s : State) (logical phys : BitVec 12) : (s.refill logical phys).pending = s.pending := by
  unfold State.refill
  split
  · dsimp only
    split
    · rfl
    · split <;> simp [State.pending_of_eq ‹State.copyChannel _ _ _ _ = _›]
  · rfl

@[simp] theorem State.setProgram_pending (s : State) (digest : BitVec 256) (img : Image) (logical : BitVec 12) :
    (s.setProgram digest img logical).pending = s.pending := rfl

/-! ## Machine/Boxes.lean -/

@[simp] theorem State.sendFrame_pending (s : State) (y : Session) (o : Output) : (s.sendFrame y o).pending = s.pending := by
  simp [State.sendFrame]

@[simp] theorem State.replyFrame_pending (s : State) (mb : BitVec 4) (tag : BitVec 16) (cmd : BitVec 8) (r : Refused)
    (data : List Byte) : (s.replyFrame mb tag cmd r data).pending = s.pending := by
  unfold State.replyFrame
  split <;> simp

@[simp] theorem State.complete_pending (s : State) (mb : BitVec 4) (tag : BitVec 16) (cmd : BitVec 8) (r : Refused)
    (data : List Byte) : (s.complete mb tag cmd r data).pending = s.pending := by simp [State.complete]

@[simp] theorem State.busyReply_pending (s : State) (f : Frame) (cmd : BitVec 8) (op : LongOp) (p : BitVec 16) :
    (s.busyReply f cmd op p).pending = s.pending := by
  unfold State.busyReply
  split <;> simp

@[simp] theorem State.openFrame_pending (s : State) (f : Frame) : (s.openFrame f).1.pending = s.pending := by
  unfold State.openFrame
  split
  · rfl
  · split
    · rfl
    · split <;> simp [State.pending_of_eq ‹s.hear _ _ = _›]

@[simp] theorem State.latchTallies_pending (s : State) : s.latchTallies.pending = s.pending := by
  simp [State.latchTallies, foldl_pending]

@[simp] theorem State.staged_pending (s : State) (a n : Nat) : (s.staged a n).1.pending = s.pending := by simp [State.staged]

@[simp] theorem State.beginReplay_pending (s : State) : s.beginReplay.pending = s.pending := by
  unfold State.beginReplay
  dsimp only
  rw [foldl_pending fun s f => State.modField_pending _ _ _, foldl_pending fun s t => State.modTile_pending _ _ _]

@[simp] theorem State.answerSteps_pending (s : State) : s.answerSteps.pending = s.pending := by
  simp [State.answerSteps, foldl_pending]

@[simp] theorem State.measureFrame_pending (s : State) (data : List Byte) : (s.measureFrame data).pending = s.pending := rfl

@[simp] theorem State.configPort_pending (s : State) (port : Bool) (sub : BitVec 2) (cfg : BitVec 64) :
    (s.configPort port sub cfg).pending = s.pending := by
  unfold State.configPort
  exact foldl_pending (fun _ _ => by dsimp only; split <;> simp) _ _

@[simp] theorem State.askRing_pending (s : State) (dev : BitVec 12) (chan : Nat) (d i coins : Nat) :
    (s.askRing dev chan d i coins).pending = s.pending := by
  unfold State.askRing
  split <;> simp

@[simp] theorem State.openRing_pending (s : State) (d i : Nat) (entry : BitVec 256) :
    (s.openRing d i entry).pending = s.pending := rfl

@[simp] theorem State.setByHand_pending (s : State) (n : BitVec 15) (v : BitVec 32) (session : BitVec 32)
    (client : BitVec 16) : (s.setByHand n v session client).pending = s.pending := by simp [State.setByHand]

/-! ## Machine/Trust.lean -/

@[simp] theorem State.nextGeneration_pending (s : State) : s.nextGeneration.pending = s.pending := rfl

@[simp] theorem State.enrolNewOwner_pending (s : State) (key : BitVec 15616) (osigA osigB : Option Signature) :
    (s.enrolNewOwner key osigA osigB).pending = s.pending := by simp [State.enrolNewOwner, apply_ite State.pending]

@[simp] theorem State.editEnrolment_pending (s : State) (g : Enrolment → Enrolment) :
    (s.editEnrolment g).pending = s.pending := rfl

@[simp] theorem State.updateDone_pending (s : State) (mb : BitVec 4) (x : FwSlot) :
    (s.updateDone mb x).pending = s.pending := by simp [State.updateDone]

@[simp] theorem State.zeroiseRecord_pending (s : State) : s.zeroiseRecord.pending = s.pending := by
  unfold State.zeroiseRecord
  (repeat' split) <;> simp

/-! ## Machine/Survive.lean -/

@[simp] theorem State.noteTake_pending (s : State) (r : BitVec 1536) : (s.noteTake r).pending = s.pending := rfl

@[simp] theorem State.readTallies_pending (s : State) (time : BitVec 64) : (s.readTallies time).1.pending = s.pending := by
  unfold State.readTallies
  exact foldl_fst_pending (fun a u => State.setTally_pending _ _ _ _) _ _

@[simp] theorem State.loadDone_pending (s : State) (mb : BitVec 4) (digest req : BitVec 256) (logical : BitVec 12)
    (sections : List Section) (tiles : List Nat) :
    (s.loadDone mb digest req logical sections tiles).pending = s.pending := by simp [State.loadDone]

/-! ## Machine/Power.lean -/

@[simp] theorem State.smbRead_pending (s : State) (data : List Byte) : (s.smbRead data).pending = s.pending := by
  simp [State.smbRead, apply_ite State.pending]

@[simp] theorem State.sampleSensors_pending (s : State) : s.sampleSensors.pending = s.pending := rfl

@[simp] theorem State.noteReading_pending (s : State) (n : Nat) (r : BitVec 16) : (s.noteReading n r).pending = s.pending := by
  simp [State.noteReading, apply_ite State.pending]

@[simp] theorem State.tripped_pending (s : State) (n : BitVec 5) : (s.tripped n).pending = s.pending := by
  unfold State.tripped
  dsimp only
  rw [foldl_pending fun s k => State.modStack_pending _ _ _, State.abort_pending]

/-! ## Machine/Wire.lean -/

@[simp] theorem State.sendIdle_pending (s : State) : s.sendIdle.pending = s.pending := by
  unfold State.sendIdle
  exact foldl_pending (fun _ _ => by split <;> simp) _ _

/-! ## Machine/Registers.lean -/

@[simp] theorem State.clearOvf_pending (s : State) (u : TallyUnit) (n : Nat) (v : BitVec 32) :
    (s.clearOvf u n v).pending = s.pending := by simp [State.clearOvf, apply_ite State.pending]

@[simp] theorem State.putTally_pending (s : State) (u : TallyUnit) (base off : Nat) (v : BitVec 32) :
    (s.putTally u base off v).pending = s.pending := by simp [State.putTally, apply_ite State.pending]

@[simp] theorem State.putIsland_pending (s : State) (d : Nat) (v : BitVec 32) : (s.putIsland d v).pending = s.pending := rfl

@[simp] theorem State.writeField_pending (s : State) (f off : Nat) (v : BitVec 32) :
    (s.writeField f off v).pending = s.pending := by simp [State.writeField, apply_ite State.pending]

@[simp] theorem State.writeDie_pending (s : State) (d off : Nat) (v : BitVec 32) :
    (s.writeDie d off v).pending = s.pending := by simp [State.writeDie, apply_ite State.pending]

@[simp] theorem State.writeStack_pending (s : State) (k off : Nat) (v : BitVec 32) :
    (s.writeStack k off v).pending = s.pending := by simp [State.writeStack, apply_ite State.pending]

@[simp] theorem State.writeHeath_pending (s : State) (w : Writer) (off : Nat) (v : BitVec 32) :
    (s.writeHeath w off v).pending = s.pending := by simp [State.writeHeath, apply_ite State.pending]

@[simp] theorem State.writePorts_pending (s : State) (i off : Nat) (v : BitVec 32) :
    (s.writePorts i off v).pending = s.pending := by simp [State.writePorts, apply_ite State.pending]

@[simp] theorem State.writeIo0_pending (s : State) (w : Writer) (off : Nat) (v : BitVec 32) :
    (s.writeIo0 w off v).pending = s.pending := by simp [State.writeIo0, apply_ite State.pending]

@[simp] theorem State.writeIo1_pending (s : State) (off : Nat) (v : BitVec 32) : (s.writeIo1 off v).pending = s.pending := by
  simp [State.writeIo1, apply_ite State.pending]

/-! ## Machine/Vector.lean -/

@[simp] theorem State.completeResults_pending (s : State) (t : Nat) (dst : BitVec 6) :
    (s.completeResults t dst).pending = s.pending := by simp [State.completeResults]

/-! ## Machine/Tick.lean -/

@[simp] theorem State.nextCycle_pending (s : State) : s.nextCycle.pending = s.pending := by
  simp [State.nextCycle, apply_ite State.pending]

@[simp] theorem State.refreshAlive_pending (s : State) : s.refreshAlive.pending = s.pending := by
  simp [State.refreshAlive, apply_ite State.pending]

/-! ## Machine/Dram.lean, where it writes memory -/

@[simp] theorem State.writeDram_pending (s : State) (a : Nat) (bs : List Byte) : (s.writeDram a bs).pending = s.pending := by
  unfold State.writeDram
  exact foldl_pending (fun _ _ => by split <;> simp) _ _

/-! ## Machine/Scratch.lean, where it writes memory -/

@[simp] theorem State.copyPadLine_pending (s : State) (t src dst : Nat) : (s.copyPadLine t src dst).pending = s.pending := by
  simp [State.copyPadLine]

@[simp] theorem State.goLive_pending (s : State) (t n : Nat) : (s.goLive t n).pending = s.pending := by
  unfold State.goLive
  split <;> simp

@[simp] theorem State.landWrite_pending (s : State) (t : Nat) (w : PadWrite) : (s.landWrite t w).pending = s.pending := by
  unfold State.landWrite
  exact foldl_pending (fun _ _ => by dsimp only; split <;> simp) _ _

@[simp] theorem execScratchpadWriteLand_pending (s : State) (t : TileNo) : AnswerKeeps s.pending
    (execScratchpadWriteLand t s) := by
  unfold execScratchpadWriteLand
  dsimp only
  (repeat' split) <;> simp

@[simp] theorem State.landUnscheduled_pending (s : State) (t : Nat) (r : URequest) :
    (s.landUnscheduled t r).pending = s.pending := by
  unfold State.landUnscheduled
  split
  · rfl
  · dsimp only
    (repeat' split) <;> simp

@[simp] theorem execScrub_pending (s : State) (t : TileNo) (line : BitVec 15) : AnswerKeeps s.pending (execScrub t line s) := by
  unfold execScrub
  dsimp only
  (repeat' split) <;> simp

/-! ## Machine/Rings.lean, where it writes memory -/

@[simp] theorem State.asyncWrite_pending (s : State) (a : Nat) (bs : List Byte) (agent : Nat) (gen : Option (BitVec 2))
    (spec : Bool) (owner : UOwner) : (s.asyncWrite a bs agent gen spec owner).1.pending = s.pending := by
  unfold State.asyncWrite
  dsimp only
  (repeat' split) <;> simp [foldl_pending]

@[simp] theorem State.writeUnit_pending (s : State) (e : Line) (u : Nat) (bs : List Byte) :
    (s.writeUnit e u bs).pending = s.pending := by
  unfold State.writeUnit
  split <;> simp

@[simp] theorem State.writeRecord_pending (s : State) (e : Line) (m : Spilled) : (s.writeRecord e m).pending = s.pending := by
  unfold State.writeRecord
  split <;> simp

@[simp] theorem State.spillMessage_pending (s : State) (c : Nat) (m : Message) (owed : BitVec 64) (tid : BitVec 32) :
    (s.spillMessage c m owed tid).pending = s.pending := by
  unfold State.spillMessage
  dsimp only
  (repeat' split) <;> simp [foldl_pending]

@[simp] theorem State.spillRing_pending (s : State) (c : Nat) (m : Message) : (s.spillRing c m).pending = s.pending := by
  simp [State.spillRing, apply_ite State.pending]

@[simp] theorem State.placeMessage_pending (s : State) (c : Nat) (m : Message) : (s.placeMessage c m).pending = s.pending := by
  simp [State.placeMessage, apply_ite State.pending]

@[simp] theorem State.placeMulticast_pending (s : State) (c : Nat) (m : Message) : (s.placeMulticast c m).pending = s.pending := by
  unfold State.placeMulticast
  extract_lets e ms all
  split
  · simp
  · split
    next gathered tid taken =>
    split
    next s1 ready readied =>
    extract_lets spent s2 mask sent s3 owed
    have h1 : s1.pending = s.pending := by
      rw [State.pending_of_eq readied, State.readyMembers_pending, State.pending_of_eq taken, State.takeTid_pending]
    have h2 : s2.pending = s.pending := (foldl_fst_pending (fun x r => by simp) _ _).trans h1
    have h3 : s3.pending = s.pending := by
      unfold s3
      split
      · exact h2
      · rw [foldl_pending fun s p => by simp]
        simpa [sent] using h2
    split
    · exact h3
    · rw [State.spillMessage_pending, h3]

@[simp] theorem State.payOwed_pending (s : State) (c m : Nat) (x : Spilled) : (s.payOwed c m x).pending = s.pending := by
  simp [State.payOwed, apply_ite State.pending]

@[simp] theorem State.departMember_pending (s : State) (c m mc : Nat) : (s.departMember c m mc).pending = s.pending := by
  unfold State.departMember
  split
  · rfl
  · split
    · rfl
    · dsimp only
      split
      · simp
      · split <;> simp [State.pending_of_eq ‹State.unspill _ _ _ = _›]

@[simp] theorem execSpillDepart_pending (s : State) (chan : BitVec 14) : AnswerKeeps s.pending (execSpillDepart chan s) := by
  unfold execSpillDepart
  dsimp only
  (repeat' split) <;> simp [foldl_pending]

@[simp] theorem execAtillApply_pending (s : State) (die : BitVec 2) (index : BitVec 10) :
    AnswerKeeps s.pending (execAtillApply die index s) := by
  unfold execAtillApply
  extract_lets r n step at_ out go
  have goes (p : BitVec 24) (gone : List (BitVec 24)) : (go p gone).pending = s.pending := by
    unfold go
    split
    · split
      · rfl
      · dsimp only
        split
        · simp
        · split <;> simp [State.pending_of_eq ‹State.applyTill _ _ _ _ = _›]
    · rfl
  rw [answerKeeps_next]
  (repeat' split) <;> simp [goes]

/-! ## Machine/Control.lean, where it writes memory -/

@[simp] theorem execSpineSetSwitch_pending (s : State) : AnswerKeeps s.pending (execSpineSetSwitch s) := by
  unfold execSpineSetSwitch
  rw [answerKeeps_next]
  split
  · split
    · exact foldl_pending (fun _ _ => State.modField_pending ..) _ _
    · rfl
  · rfl

@[simp] theorem State.clearBank_pending (s : State) (t b : Nat) : (s.clearBank t b).pending = s.pending := by
  simp [State.clearBank]

/-! ## Machine/Petty.lean, where it writes memory -/

@[simp] theorem State.startLocal_pending (s : State) (t : Nat) (p : Petty) : (s.startLocal t p).pending = s.pending := by
  unfold State.startLocal
  dsimp only
  (repeat' split) <;> simp [foldl_pending]

@[simp] theorem State.startPetty_pending (s : State) (t : Nat) (n : BitVec 32) : (s.startPetty t n).pending = s.pending := by
  unfold State.startPetty
  dsimp only
  (repeat' split) <;> simp

@[simp] theorem State.pettyRead_pending (s : State) (t : Nat) (r : ReqLine) (d : Line) :
    (s.pettyRead t r d).pending = s.pending := by simp [State.pettyRead, apply_ite State.pending]

@[simp] theorem execPgetReply_pending (s : State) (t : TileNo) (n : BitVec 32) : AnswerKeeps s.pending
    (execPgetReply t n s) := by
  unfold execPgetReply
  dsimp only
  rw [answerKeeps_next]
  split
  · rfl
  · next p _ =>
    split
    · rfl
    · split
      · simp
      · split
        · simp
        · split
          · simp
          · split
            · rfl
            · have got : (if p.chan.toNat = localChan then s.localGet p else (s, some p.lineBytes)).1.pending = s.pending := by
                split <;> simp
              split <;> simp [State.pending_of_eq ‹(if p.chan.toNat = localChan then _ else _) = _›, got]

/-! ## Machine/Escrow.lean, where it writes memory -/

@[simp] theorem State.swapTile_pending (s : State) (t : Nat) : (s.swapTile t).pending = s.pending := by
  simp [State.swapTile, foldl_pending]

@[simp] theorem execEscrowSwap_pending (s : State) (f : BitVec 4) (row : BitVec 3) (g : BitVec 4) :
    AnswerKeeps s.pending (execEscrowSwap f row g s) := by
  unfold execEscrowSwap
  rw [answerKeeps_next]
  split
  · rfl
  · exact foldl_pending (fun _ _ => by dsimp only; split <;> simp) _ _

@[simp] theorem State.releaseOp_pending (s : State) (t : Nat) (p : Posted) : (s.releaseOp t p).pending = s.pending := by
  unfold State.releaseOp
  split <;> simp

/-! ## Machine/Gleaner.lean, where it writes memory -/

@[simp] theorem State.finishAccess_pending (s : State) (k : Nat) (t : Thread) (a : Access) (reset : Bool) :
    (s.finishAccess k t a reset).1.pending = s.pending := by
  unfold State.finishAccess
  dsimp only
  split
  · split <;> simp [State.pending_of_eq ‹s.dramRead _ _ _ = _›]
  · split <;> simp [State.pending_of_eq ‹s.dramRead _ _ _ = _›]
  · split
    · split <;> simp [foldl_pending]
    · split <;> simp [foldl_pending]
  · simp
  · split
    · simp [State.pending_of_eq ‹s.dramRead _ _ _ = _›]
    · split <;> simp [State.pending_of_eq ‹s.dramRead _ _ _ = _›]

@[simp] theorem execScriptAccessComplete_pending (s : State) (k : BitVec 4) (post : BitVec 32) (item : BitVec 20)
    (second : Bool) : AnswerKeeps s.pending (execScriptAccessComplete k post item second s) := by
  unfold execScriptAccessComplete
  rw [answerKeeps_next]
  split
  · rfl
  · split
    · rfl
    · split
      · rfl
      · extract_lets blocked waits
        split
        · rfl
        · split <;> simp [State.pending_of_eq ‹s.finishAccess _ _ _ _ = _›]

/-! ## Machine/Links.lean, where it writes memory -/

@[simp] theorem execPacketForward_pending (s : State) (k : BitVec 5) (ty : PacketType) (p : Packet) :
    AnswerKeeps s.pending (execPacketForward k ty p s) := by simp [execPacketForward, apply_ite State.pending]

@[simp] theorem execHeartbeat_pending (s : State) (k : BitVec 5) (p : Packet) : AnswerKeeps s.pending
    (execHeartbeat k p s) := by simp [execHeartbeat, apply_ite State.pending]

/-! ## Machine/Packets.lean, where it writes memory -/

@[simp] theorem State.takeWrite_pending (s : State) (hedge : Bool) (p : Packet) : (s.takeWrite hedge p).pending = s.pending := by
  refine State.once_pending s _ p fun s => ?_
  dsimp only
  split
  · simp
  · split <;> simp [State.pending_of_eq ‹s.dramRead _ _ _ = _›]
  · simp

@[simp] theorem State.landRing_pending (s : State) (w : Flow) (d i : Nat) (off : Nat) (pos : Option Nat)
    (p : Packet) : (s.landRing w d i off pos p).pending = s.pending := by
  unfold State.landRing
  (repeat' split) <;> simp

@[simp] theorem State.takeRing_pending (s : State) (link : Option Nat) (p : Packet) :
    (s.takeRing link p).pending = s.pending := by
  unfold State.takeRing
  dsimp only
  split
  · split <;> simp
  · exact State.once_pending s _ p fun s => by simp

@[simp] theorem State.takeMember_pending (s : State) (link : Option Nat) (p : Packet) (m : Nat) (pos : BitVec 32) :
    (s.takeMember link p m pos).pending = s.pending := by
  unfold State.takeMember
  dsimp only
  split
  · split <;> simp
  · exact State.once_pending s _ p fun s => by simp

@[simp] theorem State.takeMcast_pending (s : State) (link : Option Nat) (p : Packet) :
    (s.takeMcast link p).pending = s.pending := by
  unfold State.takeMcast
  dsimp only
  (repeat' split) <;> simp [foldl_pending]

@[simp] theorem State.deliver_pending (s : State) (link : Option Nat) (ty : PacketType) (p : Packet) :
    (s.deliver link ty p).pending = s.pending := by
  unfold State.deliver
  split <;> simp

@[simp] theorem State.receive_pending (s : State) (k : BitVec 5) (ty : PacketType) (p : Packet) :
    (s.receive k ty p).pending = s.pending := by simp [State.receive, apply_ite State.pending]

@[simp] theorem State.landAccess_pending (s : State) (t : Nat) (r : URequest) : (s.landAccess t r).pending = s.pending := by
  simp [State.landAccess]

@[simp] theorem State.grantAccess_pending (s : State) (t : Nat) (bank : BitVec 4) (r : URequest) :
    (s.grantAccess t bank r).pending = s.pending := by simp [State.grantAccess, apply_ite State.pending]

@[simp] theorem State.landPartials_pending (s : State) : s.landPartials.pending = s.pending := by
  unfold State.landPartials
  exact foldl_pending (fun _ _ => foldl_pending (fun _ _ => by split <;> simp) _ _) _ _

/-! ## Machine/Ledger.lean, where it writes memory -/

@[simp] theorem State.storeReply_pending (s : State) (r : Receipt) (data : List Byte) :
    (s.storeReply r data).pending = s.pending := by simp [State.storeReply, apply_ite State.pending]

/-! ## Machine/Cycle.lean, where it writes memory -/

@[simp] theorem State.deliverLoop_pending (s : State) : s.deliverLoop.pending = s.pending := by
  simp [State.deliverLoop, foldl_pending]

@[simp] theorem State.asyncWork_pending (s : State) : s.asyncWork.pending = s.pending := by simp [State.asyncWork, foldl_pending]

/-! ## Machine/Blocks.lean, where it writes memory -/

@[simp] theorem State.setFallow_pending (s : State) (t : Nat) (mask : BitVec 16) :
    (s.setFallow t mask).pending = s.pending := by simp [State.setFallow, foldl_pending]

/-! ## Machine/House.lean, where it writes memory -/

/-- A message of a session leaves the queue if what it does with the session does. -/
theorem State.onMessage_pending (s : State) (h : Sealed) (reqid : BitVec 64) {g : State → Session → State}
    (hg : ∀ s y, (g s y).pending = s.pending) : (s.onMessage h reqid g).pending = s.pending := by
  unfold State.onMessage
  split
  · rfl
  · split
    · split <;> simp [hg, State.pending_of_eq ‹s.openSealed h = _›]
    · simp [State.pending_of_eq ‹s.openSealed h = _›]

@[simp] theorem execKeepalive_pending (s : State) (h : Sealed) : AnswerKeeps s.pending (execKeepalive h s) :=
  (answerKeeps_next _ _).mpr (State.onMessage_pending s h 0 fun s y => by simp)

@[simp] theorem execClose_pending (s : State) (h : Sealed) : AnswerKeeps s.pending (execClose h s) :=
  (answerKeeps_next _ _).mpr (State.onMessage_pending s h 0 fun s y => by simp)

@[simp] theorem State.raiseFloor_pending (s : State) (c : Nat) (v : BitVec 64) : (s.raiseFloor c v).pending = s.pending := by
  simp [State.raiseFloor, apply_ite State.pending]

@[simp] theorem State.evict_pending (s : State) (slot : Nat) : (s.evict slot).pending = s.pending := by
  unfold State.evict
  split <;> simp

@[simp] theorem State.acceptRequest_pending (s : State) (c : Nat) (client : BitVec 13) (y : Session)
    (x : RequestMsg) : (s.acceptRequest c client y x).pending = s.pending := by simp [State.acceptRequest]

@[simp] theorem State.handleRequest_pending (s : State) (y : Session) (x : RequestMsg) :
    (s.handleRequest y x).pending = s.pending := by
  unfold State.handleRequest
  dsimp only
  (repeat' split) <;> simp

@[simp] theorem execRequest_pending (s : State) (h : Sealed) (x : RequestMsg) : AnswerKeeps s.pending (execRequest h x s) :=
  (answerKeeps_next _ _).mpr (State.onMessage_pending s _ _ fun s y => by simp)

@[simp] theorem State.answerTicket_pending (s : State) (r : Receipt) (st : BitVec 8) (data : List Byte) :
    (s.answerTicket r st data).pending = s.pending := by simp [State.answerTicket]

@[simp] theorem State.handleArrived_pending (s : State) (a : Arrived) (m : Option (List Byte)) :
    (s.handleArrived a m).pending = s.pending := by
  unfold State.handleArrived
  dsimp only
  (repeat' split) <;> simp

@[simp] theorem State.outboxData_pending (s : State) (a : Arrived) (frame : BitVec 32) :
    (s.outboxData a frame).pending = s.pending := by
  unfold State.outboxData
  dsimp only
  split <;> simp [State.pending_of_eq ‹s.houseRead _ _ _ = _›]

@[simp] theorem State.outboxTurn_pending (s : State) (a : Arrived) : (s.outboxTurn a).pending = s.pending := by
  unfold State.outboxTurn
  split
  · simp
  · dsimp only
    split <;> simp [State.pending_of_eq ‹s.houseRead _ _ _ = _›]

@[simp] theorem State.endTickets_pending (s : State) : s.endTickets.pending = s.pending := by
  unfold State.endTickets
  extract_lets house stopped turned
  have hturned : turned.pending = s.pending := foldl_pending (fun _ _ => by split <;> simp) _ _
  split
  · exact hturned
  · exact (foldl_pending (fun _ _ => by split <;> simp) _ _).trans hturned

@[simp] theorem execLedger_pending (s : State) (h : Sealed) (start : Option (BitVec 64)) :
    AnswerKeeps s.pending (execLedger h start s) :=
  (answerKeeps_next _ _).mpr (State.onMessage_pending s h 0 fun s y => by (repeat' split) <;> simp)

@[simp] theorem execPatchMessage_pending (s : State) (h : Sealed) (x : PatchPart) :
    AnswerKeeps s.pending (execPatchMessage h x s) := by
  refine (answerKeeps_next _ _).mpr (State.onMessage_pending s h 0 fun s y => ?_)
  split
  · simp
  · split
    · simp
    · split <;> simp [State.pending_of_eq ‹s.patchPart _ _ = _›]

/-! ## Machine/Resets.lean, where it writes memory -/

@[simp] theorem State.clearPads_pending (s : State) : s.clearPads.pending = s.pending := rfl

@[simp] theorem State.programReset_pending (s : State) : s.programReset.pending = s.pending := by
  simp [State.programReset, apply_ite State.pending]

@[simp] theorem State.clearData_pending (s : State) : s.clearData.pending = s.pending := rfl

@[simp] theorem State.bringUp_pending (s : State) (o : BootOutcome) (first : Nat) :
    (s.bringUp o first).pending = s.pending := by
  unfold State.bringUp
  dsimp only
  (repeat' split) <;> simp

@[simp] theorem State.powerOff_pending (s : State) : s.powerOff.pending = s.pending := rfl

@[simp] theorem execPowerOn_pending (s : State) (o : BootOutcome) : AnswerKeeps s.pending (execPowerOn o s) := by
  unfold execPowerOn
  dsimp only
  (repeat' split) <;> simp

@[simp] theorem State.warmClear_pending (s : State) : s.warmClear.pending = s.pending := rfl

@[simp] theorem execWarmReset_pending (s : State) (o : BootOutcome) : AnswerKeeps s.pending (execWarmReset o s) := by
  simp [execWarmReset, apply_ite State.pending]

/-! ## Machine/Clocks.lean, where it writes memory -/

@[simp] theorem execBeacon_pending (s : State) (full : Bool) (missed : List (BitVec 7)) :
    AnswerKeeps s.pending (execBeacon full missed s) := by
  unfold execBeacon
  rw [answerKeeps_next]
  split
  · rfl
  · exact foldl_pending (fun _ _ => State.beaconAt_pending ..) _ _

/-! ## Machine/Image.lean, where it writes memory -/

@[simp] theorem State.writeSection_pending (s : State) (dram : Bool) (x : Section) :
    (s.writeSection dram x).pending = s.pending := by
  unfold State.writeSection
  dsimp only
  (repeat' split) <;> simp [foldl_pending]

@[simp] theorem State.writeImage_pending (s : State) (dram : Bool) (img : Image) (logical : Nat) :
    (s.writeImage dram img logical).pending = s.pending := by simp [State.writeImage, foldl_pending]

@[simp] theorem State.armProgram_pending (s : State) : s.armProgram.pending = s.pending := by
  unfold State.armProgram
  dsimp only
  (repeat' split) <;> simp [foldl_pending]

@[simp] theorem State.afterReset_pending (s : State) (cause : ResetCause) : (s.afterReset cause).pending = s.pending := by
  unfold State.afterReset
  (repeat' split) <;> simp

@[simp] theorem State.tryReset_pending (s : State) : s.tryReset.pending = s.pending := by
  unfold State.tryReset
  dsimp only
  (repeat' split) <;> simp

@[simp] theorem State.askReset_pending (s : State) (c : ResetCause) : (s.askReset c).pending = s.pending := by
  simp [State.askReset]

/-! ## Machine/Messages.lean, where it writes memory -/

@[simp] theorem execLinkNonce_pending (s : State) (c : Control) (nonce : BitVec 256) : AnswerKeeps s.pending
    (execLinkNonce c nonce s) := by simp [execLinkNonce, apply_ite State.pending]

@[simp] theorem execLinkProof_pending (s : State) (c : Control) (owner : BitVec 256) (chain : Chain)
    (signature : Signature) : AnswerKeeps s.pending (execLinkProof c owner chain signature s) := by
  unfold execLinkProof
  dsimp only
  (repeat' split) <;> simp

@[simp] theorem execDeathDeclaration_pending (s : State) (phys : BitVec 12) : AnswerKeeps s.pending
    (execDeathDeclaration phys s) := by
  unfold execDeathDeclaration
  dsimp only
  rw [answerKeeps_next]
  split
  · rfl
  · split
    · split
      · simp
      · rw [State.peerDies_pending, foldl_pending]
        · simp
        · intro s d
          split
          · rfl
          · split <;> simp
    · simp

@[simp] theorem execDeath_pending (s : State) (_c : Control) (phys : BitVec 12) (logical : BitVec 12)
    (image : BitVec 256) (time : BitVec 64) : AnswerKeeps s.pending (execDeath _c phys logical image time s) := by
  simp [execDeath, apply_ite State.pending]

@[simp] theorem execExpelled_pending (s : State) (_c : Control) (logical : BitVec 12) (image : BitVec 256) :
    AnswerKeeps s.pending (execExpelled _c logical image s) := by simp [execExpelled, apply_ite State.pending]

@[simp] theorem execPlanCheck_pending (s : State) (c : Control) (plan : Line) (image : BitVec 256) (grade : BitVec 2)
    (feed : BitVec 4) : AnswerKeeps s.pending (execPlanCheck c plan image grade feed s) := by
  simp [execPlanCheck, apply_ite State.pending]

@[simp] theorem execPlanAnswer_pending (s : State) (c : Control) (refuses : Bool) (_reason : BitVec 8)
    (cofated : Bool) : AnswerKeeps s.pending (execPlanAnswer c refuses _reason cofated s) := by
  unfold execPlanAnswer
  (repeat' split) <;> simp

@[simp] theorem State.rearm_pending (s : State) : s.rearm.pending = s.pending := by simp [State.rearm]

@[simp] theorem State.resumeHere_pending (s : State) (step : BitVec 64) (what : BitVec 8) :
    (s.resumeHere step what).pending = s.pending := by simp [State.resumeHere, apply_ite State.pending]

@[simp] theorem State.announce_pending (s : State) (step : BitVec 64) (what : BitVec 8) :
    (s.announce step what).pending = s.pending := by simp [State.announce]

@[simp] theorem State.recovered_pending (s : State) : s.recovered.pending = s.pending := by simp [State.recovered]

@[simp] theorem execReport_pending (s : State) (_c : Control) (step : BitVec 64) (logical : BitVec 12) (copied : Bool)
    (ended : ReportEnd) : AnswerKeeps s.pending (execReport _c step logical copied ended s) := by
  simp [execReport, apply_ite State.pending]

@[simp] theorem execCommit_pending (s : State) (c : Control) (step : BitVec 64) (loss : BitVec 32) (snapshot : Bool) :
    AnswerKeeps s.pending (execCommit c step loss snapshot s) := by simp [execCommit, apply_ite State.pending]

@[simp] theorem execCoinHalf_pending (s : State) (c : Control) (chan : BitVec 14) (die : BitVec 2) (index : BitVec 10)
    (ringHalf : Bool) (spillEmpty : Bool) (coins : BitVec 32) (returned : BitVec 32) : AnswerKeeps s.pending
    (execCoinHalf c chan die index ringHalf spillEmpty coins returned s) := by
  unfold execCoinHalf
  dsimp only
  (repeat' split) <;> simp

@[simp] theorem execReconcileAsk_pending (s : State) (c : Control) (chan : BitVec 16) (first : BitVec 32)
    (count : BitVec 13) : AnswerKeeps s.pending (execReconcileAsk c chan first count s) := by simp [execReconcileAsk]

@[simp] theorem execReconcileAnswer_pending (s : State) (c : Control) (chan : BitVec 16) (first : BitVec 32)
    (done : BitVec 4096) (_returned : BitVec 32) : AnswerKeeps s.pending
    (execReconcileAnswer c chan first done _returned s) := by simp [execReconcileAnswer, foldl_pending]

@[simp] theorem execRingEndCheck_pending (s : State) (c : Control) (chan : BitVec 14) (die : BitVec 2)
    (index : BitVec 10) (rcoins : BitVec 32) (_matching : Bool) (answer : Bool) : AnswerKeeps s.pending
    (execRingEndCheck c chan die index rcoins _matching answer s) := by simp [execRingEndCheck, apply_ite State.pending]

@[simp] theorem execMap_pending (s : State) (c : Control) (logical : BitVec 12) (phys : BitVec 12)
    (image : BitVec 256) (step : BitVec 64) : AnswerKeeps s.pending (execMap c logical phys image step s) := by
  simp [execMap, apply_ite State.pending]

@[simp] theorem execSpareJoin_pending (s : State) (_c : Control) (logical : BitVec 12) (image : BitVec 256)
    (step : BitVec 64) (plan : Line) : AnswerKeeps s.pending (execSpareJoin _c logical image step plan s) := by
  unfold execSpareJoin
  rw [answerKeeps_next]
  split
  · rfl
  · split
    · rfl
    · split
      · simp [State.pending_of_eq ‹s.readDram _ _ = _›]
      · have hread := (State.pending_of_eq ‹s.readDram _ _ = _›).trans (s.readDram_pending _ _)
        split
        · simp [hread]
        · split <;> simp [hread]

@[simp] theorem execResume_pending (s : State) (c : Control) (step : BitVec 64) (what : BitVec 8) :
    AnswerKeeps s.pending (execResume c step what s) := by simp [execResume, apply_ite State.pending]

@[simp] theorem execSealReport_pending (s : State) (c : Control) (epoch : BitVec 32) (last : BitVec 64)
    (head : BitVec 256) : AnswerKeeps s.pending (execSealReport c epoch last head s) := by
  simp [execSealReport, apply_ite State.pending]

/-! ## Machine/Boxes.lean, where it writes memory -/

/-- A mailbox frame leaves the queue if its command's body does. -/
theorem State.runFrame_pending (s : State) (f : Frame) (c : Command) {body : Body}
    (hb : ∀ s, ResultKeeps s.pending (body s)) : (s.runFrame f c body).pending = s.pending := by
  unfold State.runFrame
  split
  · rfl
  · split
    · next opened => rw [State.pending_of_eq opened, State.openFrame_pending]
    · next s1 opened =>
      have h1 : s1.pending = s.pending := by rw [State.pending_of_eq opened, State.openFrame_pending]
      rw [← h1]
      split
      · simp
      · split
        · simp
        · split
          · simp
          · split
            · split <;> simp
            · split
              · simp
              · next done => simpa using hb s1 _ _ done
              · next done =>
                dsimp only
                split <;> simpa using hb s1 _ _ done
              · next done => simpa using hb s1 _ _ done
              · next done => simpa using hb s1 _ _ done

theorem State.command_pending (s : State) (f : Frame) (c : Command) {body : Body}
    (hb : ∀ s, ResultKeeps s.pending (body s)) : (s.command f c body).pending = s.pending := by
  unfold State.command
  split
  · exact s.runFrame_pending f c hb
  · split
    · exact s.runFrame_pending f _ fun _ => resultKeeps_error _ _
    · rfl

@[simp] theorem State.copyDram_pending (s : State) (a b n : Nat) : (s.copyDram a b n).pending = s.pending := by
  unfold State.copyDram
  split <;> simp [State.pending_of_eq ‹s.readDram _ _ = _›]

@[simp] theorem State.moveReceipts_pending (s : State) (old : BitVec 62) : (s.moveReceipts old).pending = s.pending := by
  unfold State.moveReceipts
  extract_lets new
  split
  · rfl
  · split
    · exact State.writeDram_pending ..
    · rw [State.copyDram_pending]
      exact foldl_pending (fun _ _ => by (repeat' split) <;> simp) _ _

@[simp] theorem execLoadImage_pending (s : State) (f : Frame) (addr : BitVec 48) (length : BitVec 64) (logical : BitVec 16)
    (digest : BitVec 256) : AnswerKeeps s.pending (execLoadImage f addr length logical digest s) := by
  refine (answerKeeps_next _ _).mpr (State.command_pending s f _ fun s => ?_)
  simp only [resultKeeps_bind]
  intros
  split
  · exact resultKeeps_error _ _
  · have staged := (State.pending_of_eq ‹s.staged _ _ = _›).trans (s.staged_pending _ _)
    simp only [resultKeeps_bind]
    intros
    split
    · exact resultKeeps_error _ _
    · split
      · exact resultKeeps_error _ _
      · simp [staged]

@[simp] theorem execPatch_pending (s : State) (f : Frame) (x : PatchPart) : AnswerKeeps s.pending (execPatch f x s) := by
  refine (answerKeeps_next _ _).mpr (State.command_pending s f _ fun s => ?_)
  split <;> simp [State.pending_of_eq ‹s.patchPart _ _ = _›]

@[simp] theorem execStop_pending (s : State) (f : Frame) (reset : Bool) : AnswerKeeps s.pending (execStop f reset s) := by
  refine (answerKeeps_next _ _).mpr (State.command_pending s f _ fun s => ?_)
  simp only [resultKeeps_bind, resultKeeps_short]
  intros
  split <;> simp

@[simp] theorem execHold_pending (s : State) (f : Frame) (hold : Bool) : AnswerKeeps s.pending (execHold f hold s) := by
  refine (answerKeeps_next _ _).mpr (State.command_pending s f _ fun s => ?_)
  simp only [resultKeeps_bind, resultKeeps_short]
  intros
  (repeat' split) <;> simp

@[simp] theorem execSetStep_pending (s : State) (f : Frame) (step : BitVec 8) : AnswerKeeps s.pending (execSetStep f step s) := by
  refine (answerKeeps_next _ _).mpr (State.command_pending s f _ fun s => ?_)
  simp only [resultKeeps_bind]
  intros
  split <;> simp

@[simp] theorem execChannelOpen_pending (s : State) (f : Frame) (chan : BitVec 16) (entry : Line) (remote : Option Bool) :
    AnswerKeeps s.pending (execChannelOpen f chan entry remote s) := by
  refine (answerKeeps_next _ _).mpr (State.command_pending s f _ fun s => ?_)
  refine (resultKeeps_bind ..).mpr fun _ _ => (resultKeeps_bind ..).mpr fun _ _ => (resultKeeps_bind ..).mpr fun _ _ => ?_
  extract_lets ring asked restarted opened
  have hasked : asked.pending = s.pending := by
    unfold asked
    split <;> simp
  have hrestarted : restarted.pending = s.pending := by
    unfold restarted
    split <;> simp [hasked]
  split
  · exact (resultKeeps_ok ..).mpr hasked
  · simpa [opened] using hrestarted

@[simp] theorem execRingEndClose_pending (s : State) (f : Frame) (index : BitVec 16) (remoteClosed : Bool) :
    AnswerKeeps s.pending (execRingEndClose f index remoteClosed s) := by
  refine (answerKeeps_next _ _).mpr (State.command_pending s f _ fun s => ?_)
  refine (resultKeeps_bind ..).mpr fun _ _ => ?_
  extract_lets r c own asked closed
  have hasked : asked.pending = s.pending := by
    unfold asked
    split <;> simp
  split <;> simp [hasked]

/-! ## Machine/Trust.lean, where it writes memory -/

@[simp] theorem State.enrolForm_pending (s : State) (f : Frame) (form : BitVec 8) (x : EnrolArgs) (uses : List Nat) :
    (s.enrolForm f form x uses).pending = s.pending :=
  State.command_pending s f _ fun s => by simp

@[simp] theorem execEnrolOwner_pending (s : State) (f : Frame) (x : EnrolArgs) (osigA osigB : Signature) :
    AnswerKeeps s.pending (execEnrolOwner f x osigA osigB s) := by
  refine (answerKeeps_next _ _).mpr (State.command_pending s f _ fun s => ?_)
  refine (resultKeeps_bind ..).mpr fun _ _ => (resultKeeps_bind ..).mpr fun _ _ => (resultKeeps_bind ..).mpr fun _ _ => ?_
  split
  · exact resultKeeps_error _ _
  · exact resultKeeps_error _ _
  · simp [State.pending_of_eq ‹s.staged _ _ = _›]

@[simp] theorem State.evictClient_pending (s : State) (c : BitVec 16) : (s.evictClient c).pending = s.pending := by
  unfold State.evictClient
  exact foldl_pending (fun _ _ => by (repeat' split) <;> simp) _ _

@[simp] theorem State.enrolEffect_pending (s : State) (form : BitVec 8) (x : EnrolArgs) (key : BitVec 15616)
    (osigA osigB : Option Signature) : (s.enrolEffect form x key osigA osigB).pending = s.pending := by
  simp [State.enrolEffect, apply_ite State.pending]

@[simp] theorem State.enrolDone_pending (s : State) (mb : BitVec 4) (form : BitVec 8) (x : EnrolArgs)
    (key : BitVec 15616) (osigA osigB : Option Signature) :
    (s.enrolDone mb form x key osigA osigB).pending = s.pending := by simp [State.enrolDone]

@[simp] theorem execUpdateFw_pending (s : State) (f : Frame) (addr : BitVec 48) (length : BitVec 64) (esig osig : Signature) :
    AnswerKeeps s.pending (execUpdateFw f addr length esig osig s) := by
  refine (answerKeeps_next _ _).mpr (State.command_pending s f _ fun s => ?_)
  simp only [resultKeeps_bind]
  intros
  split
  · exact resultKeeps_error _ _
  · simp [State.pending_of_eq ‹s.staged _ _ = _›]

@[simp] theorem State.zeroiseBegins_pending (s : State) (mb : BitVec 4) (ret : Bool) :
    (s.zeroiseBegins mb ret).pending = s.pending := by simp [State.zeroiseBegins]

@[simp] theorem State.zeroiseStep_pending (s : State) : s.zeroiseStep.pending = s.pending := by
  simp [State.zeroiseStep, apply_ite State.pending]

@[simp] theorem State.zeroiseEnds_pending (s : State) : s.zeroiseEnds.pending = s.pending := by simp [State.zeroiseEnds]

@[simp] theorem State.retireEnds_pending (s : State) (record : List Byte) : (s.retireEnds record).pending = s.pending := by
  simp [State.retireEnds]

/-! ## Machine/Survive.lean, where it writes memory -/

@[simp] theorem execSnapshotPlan_pending (s : State) (f : Frame) (plan : Line) :
    AnswerKeeps s.pending (execSnapshotPlan f plan s) := by
  refine (answerKeeps_next _ _).mpr (State.command_pending s f _ fun s => ?_)
  simp only [resultKeeps_bind]
  intros
  split <;> simp

@[simp] theorem execRestore_pending (s : State) (f : Frame) (step : BitVec 64) :
    AnswerKeeps s.pending (execRestore f step s) := by
  refine (answerKeeps_next _ _).mpr (State.command_pending s f _ fun s => ?_)
  simp only [resultKeeps_bind]
  intros
  split <;> simp

@[simp] theorem State.restoreEnds_pending (s : State) (b tagsOk : Bool) : (s.restoreEnds b tagsOk).1.pending = s.pending := by
  unfold State.restoreEnds
  dsimp only
  (repeat' split) <;> simp

@[simp] theorem execBulkCopy_pending (s : State) : AnswerKeeps s.pending (execBulkCopy s) := by
  unfold execBulkCopy
  rw [answerKeeps_next]
  split
  · dsimp only
    split
    · rfl
    · split <;> simp [State.pending_of_eq ‹s.copyChannel _ _ _ = _›, apply_ite State.pending]
  · rfl

@[simp] theorem execSnapshotDrainComplete_pending (s : State) : AnswerKeeps s.pending (execSnapshotDrainComplete s) := by
  unfold execSnapshotDrainComplete
  rw [answerKeeps_next]
  split
  · dsimp only
    split
    · rfl
    · split
      · simp [State.pending_of_eq ‹State.readPieces _ _ _ = _›]
      · split <;> simp [State.pending_of_eq ‹State.readPieces _ _ _ = _›, apply_ite State.pending]
  · rfl

theorem State.finish_pending (s : State) (op : LongOp) (ok : Bool) : FinishKeeps s.pending (s.finish op ok) := by
  unfold State.finish
  dsimp only
  split
  -- A restore ends with a second value beside its state.
  case h_11 =>
    split <;> simp [State.pending_of_eq ‹s.restoreEnds _ _ = _›]
  all_goals (repeat' split) <;> simp

@[simp] theorem execLongOperationComplete_pending (s : State) (ok : Bool) :
    AnswerKeeps s.pending (execLongOperationComplete ok s) := by
  unfold execLongOperationComplete
  rw [answerKeeps_next]
  split
  · rfl
  · split
    · rfl
    · next ends =>
      have kept := State.finish_pending s _ ok _ _ ends
      dsimp only
      split <;> simp [kept]

/-! ## Machine/Power.lean, where it writes memory -/

/-- A write over SMBus leaves the queue if its effect does. -/
@[simp] theorem State.smbWrite_pending {s t : State} (kept : t.pending = s.pending) (ok : Bool) :
    (s.smbWrite ok t).pending = s.pending := by
  unfold State.smbWrite
  (repeat' split) <;> simp [kept]

/-! ## Machine/Wire.lean, where it writes memory -/

/-- What an answer makes of a state leaves the queue if the answer does. -/
@[simp] theorem after_pending {s : State} {a : Answer} (kept : AnswerKeeps s.pending a) : (after a s).pending = s.pending := by
  unfold after
  split
  · next t => exact kept t rfl
  · rfl

@[simp] theorem State.hearMessage_pending (s : State) (x : Joining) : (s.hearMessage x).pending = s.pending := by
  unfold State.hearMessage
  split <;> simp

@[simp] theorem State.readInbox_pending (s : State) : s.readInbox.pending = s.pending := by simp [State.readInbox, foldl_pending]

@[simp] theorem State.takePacket_pending (s : State) (k : BitVec 5) (ty : Nat) (p : Packet) :
    (s.takePacket k ty p).pending = s.pending := by
  unfold State.takePacket
  (repeat' split) <;> simp

@[simp] theorem execFlitReceive_pending (s : State) (k : BitVec 5) (x : Flit) : AnswerKeeps s.pending
    (execFlitReceive k x s) := by
  unfold execFlitReceive
  dsimp only
  (repeat' split) <;> simp [foldl_pending]

/-! ## Machine/Registers.lean, where it writes memory -/

@[simp] theorem State.writeTile_pending (s : State) (t off : Nat) (v : BitVec 32) :
    (s.writeTile t off v).pending = s.pending := by simp [State.writeTile, apply_ite State.pending]

@[simp] theorem State.writeWord_pending (s : State) (w : Writer) (b : RegBlock) (off : Nat) (v : BitVec 32) :
    (s.writeWord w b off v).pending = s.pending := by
  unfold State.writeWord
  (repeat' split) <;> simp

@[simp] theorem execRegisterWrite_pending (s : State) (w : Writer) (addr : BitVec 48) (value : BitVec 64)
    (wide : Bool) : AnswerKeeps s.pending (execRegisterWrite w addr value wide s) := by
  unfold execRegisterWrite
  dsimp only
  (repeat' split) <;> simp

/-! ## Machine/Tick.lean, where it writes memory -/

@[simp] theorem State.endBeat_pending (s : State) : s.endBeat.pending = s.pending := by simp [State.endBeat]
@[simp] theorem State.background_pending (s : State) : s.background.pending = s.pending := by simp [State.background]
@[simp] theorem State.tick_pending (s : State) : s.tick.pending = s.pending := by simp [State.tick, apply_ite State.pending]

end Sys2Proof.Machine
end

section
/-!
O57: a step takes the front of the queue, by the command that it runs, the bundle that is due or the tick.
-/
namespace Sys2Proof.Machine

/-! ## Commands and ticks -/

/-- Every command leaves the queue: those of the first three groups through operations of the layer above, without a branch, with
branches, or with branches under a shared value; those of the fourth through the body of a mailbox command; and each of the rest
has a lemma of its own. -/
theorem exec_pending (s : State) (c : Instr) : AnswerKeeps s.pending (exec c s) := by
  cases c with
  | mma | ldw | mov | fadd | fsub | fmul | fma | fmax | fmin | fabs | fneg | fcmpgt | fcmpeq | sel | exp | log | tanh
    | sigm | rsqrt | iadd | isub | imul | and_ | or_ | xor | shl | shr | sar | rot | cvtn | cvtw | rng | xclr | xadd
    | xsum | xrd | xout | xin | dadd | dsub | dmul | dfma | f2d | d2f | ld | st | ldv | stv | ocw | pget | pput | gpost
    | take | tap | drive | move | loop | loopEnd | jump | idle | endProgram | tadd | tsub | wait | drain | farm | agset
    | agadd | eopen | eres | vbr | tsig | gen | scriptNop | scriptLi | scriptLih | scriptAdd | scriptSub | scriptMuli
    | scriptAnd | scriptShl | scriptShr | scriptModu | scriptHash | scriptLd8 | scriptLdrow | scriptProbe | scriptXw
    | scriptNsamp | scriptSetrow | scriptBclr | scriptBadd | scriptBmax | scriptBdiv | scriptEmitb | scriptEmitw
    | scriptEmitx | scriptSt8 | scriptRadd | scriptBeq | scriptBne | scriptBltu | scriptJmp | scriptEnd | write
    | readReq | readReply | ring | signal | ack | ret | refuse | mcast | reconcileAsk | enrolBind | enrolUnbind
    | enrolClient | enrolRevoke | enumId | smbCap | smbHalt | smbStatus | warm | smbState | powerLoss
    | reservedOpcodeIssue =>
    refine (answerKeeps_next ..).mpr ?_
    simp
  | weightLoadComplete | passSettle | vResultComplete | streamWordArrival | idleExpiry | referenceLoss | measure
    | beaconTimeout | tillOperationApply | tillWriteJtag | shadowActivation | refresh | tempSample | retryTimeout
    | heartbeat | packetForward | linkNonce | death | expelled | commit | sealReport | heartbeatSend | isolation
    | pauseFrame | replayStart | lockstepMismatch | sealDue | sealComplete | enumAssign | pwr | temps | pgoodTimeout
    | strapSample | bringupTimeout | programReset | lreset | clear | tallyEventSelect | tallyLatch | tallySample | nop
    | undervoltageDip | portDown | requestLineRead | fallowBankPowerDown | bankWakeComplete | heldOperationRelease
    | capturedWordRelease | holdTimeout | measureComplete | timeStep | farmArrival | blockIssue | pputAck
    | unscheduledAccessGrant | hotClear | postActivate | itemStart | postResultDelivery | postComplete | ringMessageSend
    | signalApply | linkDown | linkTraining | planCheck | planAnswer | report | map | resume | frameReceive | init
    | handshakeTimeout | sessionTimeout | outboxMessage | programEndTickets | patchAssemblyTimeout | firmwareAbort
    | bulkCopyComplete | enable =>
    refine (answerKeeps_next ..).mpr ?_
    (repeat' split) <;> simp
  | waitSample | drainSample | holdStop | holdRestart | stretch | relockComplete | ptpEventMessage | tagHome | dramScrub
    | coinCount | linkProof | coinHalf | ringEndCheck | finish | linkReset | powerCapStep | thermalStepDown
    | thermalStepUp | thermalHold | thermalHoldRelease | trip | spareCopyComplete =>
    refine (answerKeeps_next ..).mpr ?_
    dsimp only
    (repeat' split) <;> simp
  | query | lastResult | readHalt | stage | arm | start | replay | setHeathId | setPort | heathTablesRoute
    | heathTablesDevmap | heathTablesSelect | channelClose | ringEndOpen | fallow | tillsRead | tillsSet | readTallies
    | snapshotTake | snapshotList | snapshotSpare | snapshotTwin | attest | zeroise | prepareReturn | reset =>
    exact (answerKeeps_next ..).mpr (State.command_pending _ _ _ fun s => by simp)
  | capWrite w => exact (answerKeeps_next ..).mpr (State.smbWrite_pending (State.setCap_pending s w) true)
  | scratchpadWriteLand t => exact execScratchpadWriteLand_pending s t
  | spineSetSwitch => exact execSpineSetSwitch_pending s
  | escrowSwap f row g => exact execEscrowSwap_pending s f row g
  | beacon full missed => exact execBeacon_pending s full missed
  | pgetReply t n => exact execPgetReply_pending s t n
  | scrub t line => exact execScrub_pending s t line
  | scriptAccessComplete k post item second => exact execScriptAccessComplete_pending s k post item second
  | spillDepart chan => exact execSpillDepart_pending s chan
  | atillApply die index => exact execAtillApply_pending s die index
  | flitReceive k x => exact execFlitReceive_pending s k x
  | reconcileAnswer c chan first completed returned => exact execReconcileAnswer_pending s c chan first completed returned
  | spareJoin c logical image step plan => exact execSpareJoin_pending s c logical image step plan
  | deathDeclaration phys => exact execDeathDeclaration_pending s phys
  | request h x => exact execRequest_pending s h x
  | keepalive h => exact execKeepalive_pending s h
  | close h => exact execClose_pending s h
  | ledger h start => exact execLedger_pending s h start
  | patchMessage h x => exact execPatchMessage_pending s h x
  | loadImage f addr length logical digest => exact execLoadImage_pending s f addr length logical digest
  | patch f x => exact execPatch_pending s f x
  | stop f reset => exact execStop_pending s f reset
  | hold f hold => exact execHold_pending s f hold
  | setStep f step => exact execSetStep_pending s f step
  | channelOpen f chan entry remote => exact execChannelOpen_pending s f chan entry remote
  | ringEndClose f index remoteClosed => exact execRingEndClose_pending s f index remoteClosed
  | snapshotPlan f plan => exact execSnapshotPlan_pending s f plan
  | restore f step => exact execRestore_pending s f step
  | enrolOwner f x osigA osigB => exact execEnrolOwner_pending s f x osigA osigB
  | updateFw f addr length esig osig => exact execUpdateFw_pending s f addr length esig osig
  | longOperationComplete ok => exact execLongOperationComplete_pending s ok
  | bulkCopy => exact execBulkCopy_pending s
  | snapshotDrainComplete => exact execSnapshotDrainComplete_pending s
  | powerOn o => exact execPowerOn_pending s o
  | warmReset o => exact execWarmReset_pending s o
  | registerWrite w addr value wide => exact execRegisterWrite_pending s w addr value wide

/-- With a command in front, a step takes it from the queue and leaves the rest. -/
theorem step_takes_front {s s' : State} {c : Instr} {rest : List Instr} (front : s.pending = c :: rest)
    (steps : step s = .next s') : s'.pending = rest :=
  exec_pending { s with pending := rest } c s' ((step_of_pending front).symm.trans steps)

end Sys2Proof.Machine

open Sys2Proof Sys2Proof.Machine

/-- Settles O57, by the front of the queue: a command, a bundle that is due, or a tick. -/
theorem stepTakesOneCommand : Obligations.StepTakesOneCommand := by
  intro s s' steps
  refine ⟨fun some_ => ?front, fun empty => ⟨fun cs due => ?bundle, fun idle => ?tick⟩⟩
  case front =>
    obtain ⟨c, rest, front⟩ := List.exists_cons_of_ne_nil some_
    rw [front]
    exact step_takes_front front steps
  case bundle =>
    have next := (step_of_bundle empty due).symm.trans steps
    cases next
    rfl
  case tick =>
    have next := (step_of_tick empty idle).symm.trans steps
    cases next
    exact (State.tick_pending s).trans empty
end
